-- ==== Sys2Proof/Word.lean ====
section
/-!
DEFINITION. The word types and the byte strings of the block: bytes, big-endian and little-endian
readings of byte strings, as Reading conventions of spec/00_scope.md fix them (frame and message
fields most significant byte first; registers and memory values little-endian).
-/

namespace Sys2Proof

/-- One byte. -/
abbrev Byte := BitVec 8
/-- A byte string, first byte first on the wire or at the lowest address. -/
abbrev Bytes := List (BitVec 8)
/-- A register word (00_scope, R3: registers are 32 bits wide). -/
abbrev Word := BitVec 32
/-- A Fabric Time tick count (R148). -/
abbrev Tick := BitVec 64

/-- The value of a byte string read most significant byte first. -/
def beNat : Bytes → Nat
  | bs => bs.foldl (fun acc b => acc * 256 + b.toNat) 0

/-- The value of a byte string read least significant byte first (memory byte order, R44, R208). -/
def leNat : Bytes → Nat
  | [] => 0
  | b :: bs => b.toNat + 256 * leNat bs

/-- `n` bytes of `v`, least significant first. -/
def leBytes : Nat → Nat → Bytes
  | 0, _ => []
  | n + 1, v => BitVec.ofNat 8 v :: leBytes n (v / 256)

/-- `n` bytes of `v`, most significant first. -/
def beBytes (n v : Nat) : Bytes := (leBytes n v).reverse

/-- `n` bytes of a string from byte `off` on; bytes beyond its end read as 0. -/
def slice (bs : Bytes) (off n : Nat) : Bytes :=
  let part := (bs.drop off).take n
  part ++ List.replicate (n - part.length) 0

/-- The big-endian field of `n` bytes at byte `off`. -/
def beField (bs : Bytes) (off n : Nat) : Nat := beNat (slice bs off n)

/-- The little-endian field of `n` bytes at byte `off`. -/
def leField (bs : Bytes) (off n : Nat) : Nat := leNat (slice bs off n)

/-- Bits `lo` to `lo + n - 1` of a number. -/
def bitsOf (v lo n : Nat) : Nat := (v / 2 ^ lo) % 2 ^ n

/-- Bit `i` of a number. -/
def bitOf (v i : Nat) : Bool := v.testBit i

/-- Every byte of the string is 0 (reserved bytes, R5). -/
def allZero (bs : Bytes) : Bool := bs.all (fun b => b == 0)

/-- Division rounding up. -/
def ceilDiv (a b : Nat) : Nat := (a + b - 1) / b

end Sys2Proof
end

