-- ==== Sys2Proof/Syntax.lean ====
section
/-!
DEFINITION. The commands of the block: one constructor of `Instr` per row of spec/opcode_table.json,
with the operands the row's rule gives it, and the plain data those operands are made of (Attach
messages R32, Repex frames R125, link groups R289 to R291, physical outcomes an event reports).
-/

namespace Sys2Proof

/-- A-port 0 to 71 (R11, R12). -/
abbrev APort := Fin 72
/-- External port 0 to 87 (R11). -/
abbrev Port := Fin 88
/-- A-cluster 0 to 8 (R1, R13). -/
abbrev ACluster := Fin 9
/-- Mailbox channel (R414). -/
abbrev Chan := Fin 4
/-- Egress of the switching core: 0 to 87 the external ports, 88 MEM, 89 HOST, 90 CTL (R267, R278). -/
abbrev Egress := Fin 91

/-- The dies behind the core die's bridges (R9). -/
inductive Die where
  | e0 | e1 | e2 | e3 | o0 | o1 | m0 | m1
  deriving DecidableEq, Repr

/-- The reference clocks of R18. -/
inductive RefClk where
  | sys | cxl | sd (i : Fin 4)
  deriving DecidableEq, Repr

/-- What the error code found on a read of a stored word or line (R232, R241, R262): an outcome the
physical array reports, so an operand. -/
inductive Ecc where
  | clean | corrected | uncorrectable
  deriving DecidableEq, Repr

/-- The home points (05_remote_operations, R104). -/
inductive HomePt where
  | epb (p : APort) | mem | host
  deriving DecidableEq, Repr

/-- The two tiers of the device's own fabric memory (R237). -/
inductive Tier where
  | stacks | annex
  deriving DecidableEq, Repr

/-- The completion status codes of R6 the Oseno produces. -/
inductive Status where
  | done | accessDenied | unmapped | targetLost | targetUnreachable | dataError | late | mismatch
  | aborted | noContext | commitLost | malformed | tierFailed | fenced | busy | version
  deriving DecidableEq, Repr

/-- The code of a status (R6). -/
def Status.code : Status → Nat
  | .done => 0 | .accessDenied => 1 | .unmapped => 2 | .targetLost => 3 | .targetUnreachable => 4
  | .dataError => 5 | .late => 6 | .mismatch => 7 | .aborted => 8 | .noContext => 9
  | .commitLost => 10 | .malformed => 11 | .tierFailed => 12 | .fenced => 13 | .busy => 14
  | .version => 15

/-- The status a code of R6 names; codes 0x10 and above name none (R7). -/
def Status.ofCode : Nat → Option Status
  | 0 => some .done | 1 => some .accessDenied | 2 => some .unmapped | 3 => some .targetLost
  | 4 => some .targetUnreachable | 5 => some .dataError | 6 => some .late | 7 => some .mismatch
  | 8 => some .aborted | 9 => some .noContext | 10 => some .commitLost | 11 => some .malformed
  | 12 => some .tierFailed | 13 => some .fenced | 14 => some .busy | 15 => some .version
  | _ => none

/-- An Attach message as its 24-byte header and payload give it (R32); the CRC-32 is judged before a
message is taken (row ATTACH_MESSAGE_CORRUPT). -/
structure AttMsg where
  opc     : BitVec 8
  ord     : Bool := false
  scope   : BitVec 2 := 0
  comb    : Bool := false
  acq     : Bool := false
  rsv1    : BitVec 3 := 0
  msn     : BitVec 16 := 0
  rsvTag  : BitVec 3 := 0
  tag     : BitVec 13 := 0
  rsvLen  : BitVec 3 := 0
  len     : BitVec 13 := 0
  addr    : BitVec 64 := 0
  keyidx  : BitVec 16 := 0
  keytag  : BitVec 32 := 0
  atop    : BitVec 8 := 0
  status  : BitVec 8 := 0
  payload : Bytes := []
  deriving DecidableEq, Repr

/-- A Repex frame (R125). `mid` is header bytes 16 to 27 (SPACE, OFFSET, KEYIDX and KEYTAG, or
HANDLE, CHUNK, LO and HI in collective frames, R202, or the bitmap of an ACK, R130). -/
structure Frame where
  ver     : BitVec 4 := 2
  type    : BitVec 4
  cls     : BitVec 2 := 2
  red     : Bool := false
  ce      : Bool := false
  retx    : Bool := false
  first   : Bool := false
  last    : Bool := false
  ord     : Bool := false
  src     : BitVec 16
  dst     : BitVec 16
  plane   : BitVec 3 := 0
  comb    : Bool := false
  tenant  : BitVec 12 := 0
  psn     : BitVec 32 := 0
  opc     : BitVec 8 := 0
  atop    : BitVec 8 := 0
  path    : BitVec 4 := 0
  scope   : BitVec 2 := 0
  len     : BitVec 10 := 0
  mid     : BitVec 96 := 0
  status  : BitVec 8 := 0
  ttl     : BitVec 8 := 0
  hcrc    : BitVec 16 := 0
  payload : Bytes := []
  crc     : BitVec 64 := 0
  deriving DecidableEq, Repr

/-- A stream on this device's plane: source and destination endpoint, whether it is an ordered stream
(R88), and its tenant (R130, R141). -/
structure StreamId where
  src    : BitVec 16
  dst    : BitVec 16
  ord    : Bool := false
  tenant : BitVec 12 := 0
  deriving DecidableEq, Repr

/-- A time group as received (R289), with the receive tick taken at the pins (R150). -/
structure TimeGroup where
  seq    : BitVec 8
  state  : BitVec 3
  isGm   : Bool
  depth  : BitVec 8
  gmNode : BitVec 11
  tx     : Tick
  echoRx : Tick
  echoTx : Tick
  rx     : Tick
  deriving DecidableEq, Repr

/-- The CAPS content of a link group (R291). -/
structure Caps where
  role   : BitVec 8
  rates  : BitVec 8
  trev   : BitVec 8
  enc    : BitVec 2
  node   : BitVec 16
  port   : BitVec 8
  mode   : BitVec 8
  unitId : BitVec 64
  lanes  : BitVec 9
  deriving DecidableEq, Repr

/-- The COEFF content of a link group (R290). -/
structure Coeff where
  lane   : Fin 9
  req    : BitVec 8
  tap    : BitVec 8
  preset : BitVec 8
  reply  : BitVec 8
  deriving DecidableEq, Repr

/-- What a codeword that cannot be corrected, or a block whose sync header is invalid after correction (`sync`), hits: for each
unit that has one of its blocks, in order, which of the unit's blocks are errored (R285). -/
structure ErroredAt where
  sync  : Bool
  units : List (List Bool)
  deriving DecidableEq, Repr

/-- What the line shows of a frame beside its bytes: on an encrypted link whether it authenticates under the key of its COUNTER's
epoch, and COUNTER (R304); and whether an IDLE has come since the unit before it (R286). -/
structure LineIn where
  auth    : Bool
  counter : BitVec 64
  idle    : Bool
  deriving DecidableEq, Repr

/-- The WIDTH content of a link group (R290). -/
structure WidthMsg where
  op     : BitVec 8
  mask   : BitVec 9
  group  : BitVec 24
  ok     : Bool
  deriving DecidableEq, Repr

/-- Where a SLIP or COLL_ABORT notice arrived: on the rack chain (FTX_IN) or over an F-port
(R170, R199). -/
inductive Via where
  | chain | fport
  | back                                 -- back along a broken chain, towards FTX_IN (R170)
  deriving DecidableEq, Repr

/-- The payload of a SLIP notice (R169). -/
structure SlipMsg where
  job        : BitVec 32
  iter       : BitVec 32
  guard      : BitVec 8
  attempt    : BitVec 8
  tEff       : Tick
  shiftAfter : Tick
  deriving DecidableEq, Repr

/-- The code a device presents on FTX_OUT (R151): its time there. DESIGN CHOICE, unsafe (log 91): it carries as well the depth
and the grandmaster that planes 1 to 7 show, and the plane at whose FTX_IN the chain is broken, if it is. -/
structure ChainCode where
  time   : Tick
  depth  : BitVec 5
  gmNode : BitVec 11
  broken : Option (BitVec 3)
  deriving DecidableEq, Repr

/-- A rack announce (R379). -/
structure Announce where
  node   : BitVec 11
  unitId : BitVec 64
  domain : BitVec 32
  modes  : List (BitVec 2)
  deriving DecidableEq, Repr

/-- One link of a link-state advert (R380). -/
structure AdvLink where
  port     : BitVec 8
  peer     : BitVec 11
  peerPort : BitVec 8
  deriving DecidableEq, Repr

/-- A link-state advert (R380). -/
structure Advert where
  node    : BitVec 11
  unitId  : BitVec 64
  domain  : BitVec 32
  seq     : BitVec 32
  state   : BitVec 4
  transit : Bool
  links   : List AdvLink
  deriving DecidableEq, Repr

/-- A step of a page's move that the running device asks of a home on another node (R250, R252): `start_` marks the page at
its old and new home, with the key checks of both; `release` forwards the held stores; `settle` ends the wait at the
new home; `giveUp` undoes the marks. -/
inductive PageStep where
  | start_ (tenant : BitVec 12) (keyidx : BitVec 16) (keytag : BitVec 32) (dkeyidx : BitVec 16) (dkeytag : BitVec 32)
  | release | settle | giveUp
  deriving DecidableEq, Repr

/-- A change of a translation bucket or a region descriptor carried over Repex Control (R76), a step of the move of the
page at FPA `old` to FPA `new` (R59), or the drain of a tenant's requests (R78), whose messages the spec does not lay out
(log 23). -/
inductive MapChange where
  | buckets (tenant : BitVec 12) (bs : List (Nat × Bytes))
  | region (endpoint : BitVec 16) (index : BitVec 16) (desc : Bytes)
  | page (st : PageStep) (old new size : Nat)
  | drain (tenant : BitVec 12)
  deriving DecidableEq, Repr

/-- How a MOV_SUBMIT of a channel reaches a device (R246): as a command of the host's own mailbox, relayed over Repex Control
by the device of `node`, whose channel it is, or as the end of a MOVE that this device relayed. -/
inductive MoveSubmit where
  | mailbox (dma : Bytes)
  | relayed (node : BitVec 11) (tenant : BitVec 12) (desc : Bytes)
  | relayEnd (st : Status)
  deriving DecidableEq, Repr

/-- A recovery message's sender, by number, and the SERIAL its header names (R345). -/
structure RecFrom where
  host   : Nat
  serial : BitVec 64
  deriving DecidableEq, Repr

/-- A request for evidence comes by the mailbox, or by the management port, which names no channel (R328). -/
inductive EvidenceAsk where
  | mailbox (dma : Bytes)
  | port (inp : Bytes)
  deriving DecidableEq, Repr

/-- A frame arrives, and what a store finds as it is read for it: the replay store the copy to resend (R121), the cells the frame
itself, where it is held for reordering (R262). -/
structure FrameRead where
  frame : Frame
  found : Ecc
  deriving DecidableEq, Repr

/-- A tick is reached, and what the store finds that is read at it. -/
structure TickRead where
  tick  : Tick
  found : Ecc
  deriving DecidableEq, Repr

/-- What the Cellar finds as the outputs of a handle's nodes here move on: in the slots whose outputs were held there until a
credit or a step, in the slots of parents here that partials are added to, and in the matrices of a PROJECT (R191, R226,
R232). -/
structure CelReads where
  out : Ecc
  up  : Ecc
  mat : Ecc
  deriving DecidableEq, Repr

/-- Nothing read is found in error. -/
def CelReads.clean : CelReads := ⟨.clean, .clean, .clean⟩

/-- What reading the slot that a child's partial is added to finds, and what follows (R214, R232). -/
structure SlotReads where
  own  : Ecc
  next : CelReads
  deriving DecidableEq, Repr

/-- Nothing read is found in error. -/
def SlotReads.clean : SlotReads := ⟨.clean, .clean⟩

/-- What an evaluation finds in the landing store, in the leaf's slot, and in what follows (R232). -/
structure EvalReads where
  land : Ecc
  cel  : Ecc
  next : CelReads
  deriving DecidableEq, Repr

/-- A COLL_CREDIT arrives, and what the Cellar finds as held outputs move on (R191, R232). -/
structure CreditRead where
  frame : Frame
  next  : CelReads
  deriving DecidableEq, Repr

/-- A step falls due, and what the Cellar finds as it releases outputs (R200, R232). -/
structure StepRead where
  tick : Tick
  next : CelReads
  deriving DecidableEq, Repr

/-- What a held entry's turn finds: in the word its guard's check reads (R166), in the lines of its MULTICAST that do not
read clean, counted from the first (R196), and in the Cellar (R232). -/
structure HeldReads where
  word  : Ecc
  lines : List (Nat × Ecc)
  next  : CelReads
  deriving DecidableEq, Repr

/-- What the reads of a MOVE's part find: the checks of the source's and the destination's bucket, the lines of the source that
are corrected, and the first uncorrectable one, if any (R238, R241). -/
structure PageReads where
  tables : Ecc × Ecc
  corr   : List Nat
  bad    : Option Nat
  deriving DecidableEq, Repr

/-- The Oseno of a node confirms a change with DONE, or refuses it: a descriptor with ACCESS_DENIED or BUSY (R256, R312), a
page's move with ACCESS_DENIED, or with BUSY while another move of the page runs (R248, R253). -/
structure Confirm where
  node   : BitVec 11
  status : Status
  deriving DecidableEq, Repr

/-- Which waiting change of mappings or regions a confirmation belongs to: a mailbox channel's
command or the mapping change of a RELOCATE on a move engine (R76, R248). -/
inductive ChangeId where
  | chan (c : Chan) | engine (e : Fin 16)
  deriving DecidableEq, Repr

/-- A quarantine notice (R145): the endpoint whose bit is set, or cleared for EP_UNQUARANTINE, and the Oseno that waits for a
confirmation, where a mailbox command sent it (R416). -/
structure QuarNotice where
  endpoint : BitVec 16
  on       : Bool
  sender   : Option (BitVec 11)
  deriving DecidableEq, Repr

/-- A unit or area a scrub clears (R28, R322). -/
inductive ScrubUnit where
  | stacksGroup (g : Fin 16) | annexPackage (k : Fin 16) | cellarSet (c : Fin 16)
  | arrayGroup (g : Fin 32) | tables (slot : Fin 64) | regions (slot : Fin 64)
  deriving DecidableEq, Repr

/-- What the peer of a CXL.io DMA or host-tier access answers (R404, R24, R121). -/
inductive DmaOutcome where
  | ok (data : Bytes) | poisoned | refusedByHost
  deriving DecidableEq, Repr

/-- Which state bound of R306 a port exceeded, or the loss of signal (R292). -/
inductive PortBound where
  | stateBound | noSignal | tooFewLanes
  deriving DecidableEq, Repr

/-- Kinds of DOE exchange the device answers (R400). -/
inductive DoeKind where
  | discovery | spdm | ideKm (io : Bool) | cdat
  deriving DecidableEq, Repr

/-- The commands of the block, one per row of spec/opcode_table.json in the table's order. -/
inductive Instr where
  /-- BRIDGE_FLIT_REPLAY (R10): a flit of `die`'s bridge is replayed; `failed` says that the replay failed too. -/
  | bridgeFlitReplay (die : Die) (failed : Bool)
  /-- BRIDGE_DOWN (R10). -/
  | bridgeDown (die : Die)
  /-- REFCLK_LOST (R18). -/
  | refclkLost (clk : RefClk)
  /-- EPB_ATT_EN_SET (R30): a host write of EN = 1. -/
  | epbAttEnSet (p : APort)
  /-- EPB_ATT_EN_CLEAR (R30): a host write of EN = 0. -/
  | epbAttEnClear (p : APort)
  /-- HELLO (R30, R36): a peer HELLO. -/
  | hello (p : APort) (m : AttMsg)
  /-- HELLO_REPEAT (R30). -/
  | helloRepeat (p : APort)
  /-- HELLO_TIMEOUT (R30). -/
  | helloTimeout (p : APort)
  /-- ACCEPT (R39). -/
  | accept (p : APort) (msn : BitVec 16)
  /-- ATTACH_NAK (R38). -/
  | attachNak (p : APort) (msn : BitVec 16) (status : BitVec 8)
  /-- CREDIT (R40): the four counts in ADDR. -/
  | credit (p : APort) (counts : BitVec 64)
  /-- ATTACH_MESSAGE_CORRUPT (R37). -/
  | attachMessageCorrupt (p : APort)
  /-- ATTACH_RESEND_TIMEOUT (R38). -/
  | attachResendTimeout (p : APort)
  /-- READ (R43): an Attach message on the port, as the next rows. -/
  | read (p : APort) (m : AttMsg)
  /-- WRITE (R43). -/
  | write (p : APort) (m : AttMsg)
  /-- WRITE_FLAG (R90). -/
  | writeFlag (p : APort) (m : AttMsg)
  /-- ATOMIC (R44). -/
  | atomic (p : APort) (m : AttMsg)
  /-- COMMIT (R119). -/
  | commit (p : APort) (m : AttMsg)
  /-- MOVE (R246). -/
  | move (p : APort) (m : AttMsg)
  /-- RELEASE_MARK (R46). -/
  | releaseMark (p : APort) (m : AttMsg)
  /-- DESCRIPTOR_CHUNK (R187). -/
  | descriptorChunk (p : APort) (m : AttMsg)
  /-- DATA_CHUNK (R183). -/
  | dataChunk (p : APort) (m : AttMsg)
  /-- TREE_OPEN (R189). -/
  | treeOpen (p : APort) (m : AttMsg)
  /-- TREE_CLOSE (R187). -/
  | treeClose (p : APort) (m : AttMsg)
  /-- INB_DONE (R49). -/
  | inbDone (p : APort) (m : AttMsg)
  /-- MARK_DONE (R46): the mark of this tag has waited out what it covers. -/
  | markDone (p : APort) (tag : BitVec 13)
  /-- ATTACH_TIMEOUT (R51). -/
  | attachTimeout (p : APort)
  /-- FENCE_WAIT_END (R54). -/
  | fenceWaitEnd (p : APort)
  /-- BUCKET_READ_RETURN (R69): the oldest outstanding bucket read of the cluster's translator returns. -/
  | bucketReadReturn (c : ACluster) (ecc : Ecc)
  /-- DESCRIPTOR_MISS_RETURN (R74): the oldest outstanding descriptor read of the home point returns. -/
  | descriptorMissReturn (h : HomePt) (ecc : Ecc)
  /-- XLT_UPDATE (R76), mailbox channel and the bytes host memory gives by DMA. -/
  | xltUpdate (c : Chan) (dma : Bytes)
  /-- RGN_WRITE (R76). -/
  | rgnWrite (c : Chan) (dma : Bytes)
  /-- XLT_DRAIN (R78). -/
  | xltDrain (c : Chan) (dma : Bytes)
  /-- XLT_DRAIN_DONE (R78): every Oseno holding the tables has confirmed. -/
  | xltDrainDone (c : Chan)
  /-- XLT_DRAIN_TIMEOUT (R78). -/
  | xltDrainTimeout (c : Chan)
  /-- MAPPING_CONFIRM (R76). -/
  | mappingConfirm (id : ChangeId) (by_ : Confirm)
  /-- MAPPING_CONFIRM_TIMEOUT (R76). -/
  | mappingConfirmTimeout (id : ChangeId)
  /-- SERIALISER_ISSUE (R111): the turn of a hot line of the home point. -/
  | serialiserIssue (h : HomePt) (line : BitVec 48)
  /-- COMBINING_ENTRY_ISSUE (R113): entry number `k` of the combining table. -/
  | combiningEntryIssue (k : Nat)
  /-- HOME_ACCESS_DONE (R85): the oldest access executing at MEM on this line completes; `keyFault` is a key
  slot parity failure (R320). -/
  | homeAccessDone (line : BitVec 48) (ecc : Ecc) (keyFault : Bool)
  /-- REQ (R137). -/
  | req (x : FrameRead)
  /-- RSP (R130). -/
  | rsp (f : Frame)
  /-- ACK (R130). -/
  | ack (f : Frame)
  /-- NAK (R131), with the replay store's check of the copy that a reason CRC makes it resend (R121). -/
  | nak (x : FrameRead)
  /-- OPEN (R142). -/
  | openSession (f : Frame)
  /-- OPEN_ACK (R139). -/
  | openAck (f : Frame)
  /-- CLOSE (R139). -/
  | close (f : Frame)
  /-- SKIP_FRAME (R138). -/
  | skipFrame (x : FrameRead)
  /-- FRAME_FORWARD (R266): a frame arrives at the ingress of a port; `auth` is the GCM verdict on an
  encrypted link (R304) and `cells` the packet-buffer word check (R262). -/
  | frameForward (ingress : Port) (f : Frame) (line : LineIn) (cells : Ecc)
  /-- FRAME_RESIDENCY_EXPIRE (R135): the head frame of an egress queue has waited too long: unscheduled
  queue 0 to 31, 32 the control queue, 33 the scheduled lane, 34 a multicast copy, 35 a frame that its originator holds. -/
  | frameResidencyExpire (e : Egress) (queue : Fin 36)
  /-- RETRANSMIT_TIMEOUT (R133): the timer of a request; `copies` is the replay store's check of its copies (R121). -/
  | retransmitTimeout (id : Nat) (copies : Ecc)
  /-- REQUEST_LIFETIME_EXPIRE (R133). -/
  | requestLifetimeExpire (id : Nat)
  /-- ACK_DELAY_EXPIRE (R130). -/
  | ackDelayExpire (st : StreamId)
  /-- OPEN_REPEAT (R139). -/
  | openRepeat (st : StreamId)
  /-- CLOSE_REPEAT (R139). -/
  | closeRepeat (st : StreamId)
  /-- SESSION_IDLE_CLOSE (R139). -/
  | sessionIdleClose (st : StreamId)
  /-- CLOSE_ECHO_TIMEOUT (R139). -/
  | closeEchoTimeout (st : StreamId)
  /-- QUARANTINE_NOTICE (R145). -/
  | quarantineNotice (q : QuarNotice)
  /-- ROUTE_CHANGE_FLOOD (R134): the link of a node's port failed. -/
  | routeChangeFlood (node : BitVec 11) (port : BitVec 8)
  /-- TIME (R150): a time group arrives on a port. -/
  | time (p : Port) (g : TimeGroup)
  /-- TIME_GROUP_SEND (R289). -/
  | timeGroupSend (p : Port)
  /-- SERVO_LOCKED (R155): the slew ends with this error bound in ps. -/
  | servoLocked (errPs : BitVec 16)
  /-- PARENT_LOST (R155). -/
  | parentLost
  /-- LOCK_LOST (R155): at tick `now` the bound is found above its limit. -/
  | lockLost (now : Tick)
  /-- GRANDMASTER_HANDOVER (R155, R149): the grandmaster is chosen anew; `states` gives the servo state of each candidate
  of FTM_GM_LIST in its order, as the others' devices show it. -/
  | grandmasterHandover (states : List (BitVec 3))
  /-- CHAIN_TIME_CODE (R151): a time code on FTX_IN; on plane 0 `loopPs` is the measured loop delay. -/
  | chainTimeCode (code : ChainCode) (loopPs : BitVec 20)
  /-- CHAIN_BREAK (R151). -/
  | chainBreak
  /-- FT_PPS_IN (R153): a rising edge, timestamped by the device's own counter. -/
  | ftPpsIn (stamp : Tick)
  /-- PPS_MISS (R153): an expected pulse did not come. -/
  | ppsMiss
  /-- PPS_OUT_EDGE (R153): an edge of FT_PPS_OUT at tick `now`. -/
  | ppsOutEdge (now : Tick)
  /-- ALM_LOAD (R160). -/
  | almLoad (c : Chan) (dma : Bytes)
  /-- ALM_UNLOAD (R161). -/
  | almUnload (c : Chan) (dma : Bytes)
  /-- WINDOW (R163): entry `idx` of the job's image, at tick `now`; so the next rows. -/
  | window (job : BitVec 32) (idx : Nat) (now : Tick)
  /-- WINDOW_CLOSE (R163). -/
  | windowClose (p : Port) (now : Tick)
  /-- COLL_STEP (R200). -/
  | collStep (job : BitVec 32) (idx : Nat) (now : StepRead)
  /-- MULTICAST (R196); `lines` are those of its source that do not read clean, counted from the first (R241). -/
  | multicast (job : BitVec 32) (idx : Nat) (now : Tick) (lines : List (Nat × Ecc))
  /-- MOVE_ENTRY (R159). -/
  | moveEntry (job : BitVec 32) (idx : Nat) (now : Tick)
  /-- CHECK_READY (R167). -/
  | checkReady (job : BitVec 32) (idx : Nat) (now : Tick) (ecc : Ecc)
  /-- NOP (R159). -/
  | nop (job : BitVec 32) (idx : Nat) (now : Tick)
  /-- SLIP (R167): a notice arrives by the chain or over an F-port. -/
  | slip (via : Via) (payload : Bytes)
  /-- SLIP_EFFECTIVE (R167). -/
  | slipEffective (job : BitVec 32) (now : Tick)
  /-- HELD_ENTRY_FIRE (R168): entry `idx`, held on a LATE guard. -/
  | heldEntryFire (job : BitVec 32) (idx : Nat) (now : Tick) (found : HeldReads)
  /-- COLL_CHUNK (R214). -/
  | collChunk (f : Frame) (found : SlotReads)
  /-- COLL_RESULT (R193). -/
  | collResult (f : Frame)
  /-- COLL_CREDIT (R191). -/
  | collCredit (x : CreditRead)
  /-- COLL_DESC (R187). -/
  | collDesc (f : Frame)
  /-- COLL_DONE (R187). -/
  | collDone (f : Frame)
  /-- TREE_OPEN_CTL (R189): a hosting device receives TREE_OPEN, with the member list it names. -/
  | treeOpenCtl (f : Frame) (members : List (BitVec 16))
  /-- TREE_REPLY (R189). -/
  | treeReply (f : Frame)
  /-- TREE_RELEASE (R187). -/
  | treeRelease (f : Frame)
  /-- COLL_ABORT (R199). -/
  | collAbort (via : Via) (f : Frame)
  /-- TREE_OPEN_TIMEOUT (R189): of the open of this tenant's handle. -/
  | treeOpenTimeout (tenant : BitVec 12) (handle : BitVec 32)
  /-- CONTEXT_CLEAR (R187). -/
  | contextClear (ctx : Fin 4096)
  /-- COLL_IDLE_ABORT (R198). -/
  | collIdleAbort (ctx : Fin 4096)
  /-- CHUNK_EVALUATE (R213): a landed chunk set of a leaf context. -/
  | chunkEvaluate (ctx : Fin 4096) (chunk : BitVec 32) (found : EvalReads)
  /-- LANDING_RESERVE (R206): room frees in a group's landing store. -/
  | landingReserve (group : Fin 32)
  /-- RDA_PROG_LOAD (R226). -/
  | rdaProgLoad (c : Chan) (dma : Bytes)
  /-- RDA_PROG_UNLOAD (R226). -/
  | rdaProgUnload (c : Chan) (dma : Bytes)
  /-- CELLAR_PATROL (R232): one line of a bank. -/
  | cellarPatrol (bank : Fin 64) (ecc : Ecc)
  /-- MOVE_START (R247). -/
  | moveStart (engine : Fin 16)
  /-- MOVE_PAGE (R248). -/
  | movePage (engine : Fin 16) (found : PageReads)
  /-- PAGE_COPY_DONE (R250). -/
  | pageCopyDone (engine : Fin 16)
  /-- HOLD_RELEASE (R250). -/
  | holdRelease (engine : Fin 16)
  /-- RELOCATE_UNDO (R252). -/
  | relocateUndo (engine : Fin 16)
  /-- OLD_PAGE_RELEASE (R252): the oldest old page awaiting release. -/
  | oldPageRelease
  /-- HOLD_WRITE (R254). -/
  | holdWrite (x : FrameRead)
  /-- HOLD_FLAG (R254). -/
  | holdFlag (x : FrameRead)
  /-- HOLD_ATOMIC (R254). -/
  | holdAtomic (x : FrameRead)
  /-- HOLD_COMMIT (R254). -/
  | holdCommit (x : FrameRead)
  /-- MOV_SUBMIT (R246). -/
  | movSubmit (c : Chan) (by_ : MoveSubmit)
  /-- MOV_RESUME (R255). -/
  | movResume (c : Chan) (dma : Bytes)
  /-- MOV_FAIL (R255). -/
  | movFail (c : Chan) (dma : Bytes)
  /-- FAULT_RECORD_EXPIRE (R255). -/
  | faultRecordExpire (rec : Fin 64)
  /-- MEM_WIN_SET (R257). -/
  | memWinSet (c : Chan) (dma : Bytes)
  /-- CXL_MEM_READ (R101): of the 64-byte unit `unit` of the device physical address space. -/
  | cxlMemRead (dpa64 : BitVec 35) (ecc : Ecc)
  /-- CXL_MEM_WRITE (R101). -/
  | cxlMemWrite (dpa64 : BitVec 35) (data : Bytes) (ecc : Ecc)
  /-- TIER_PATROL (R242): one line of a tier. -/
  | tierPatrol (tier : Tier) (line : BitVec 37) (ecc : Ecc)
  /-- EGRESS_SELECT (R268): a frame boundary of an egress, with what reading the chosen frame's cells finds (R262). -/
  | egressSelect (e : Egress) (now : TickRead)
  /-- TDM_SLOT (R269): a 64 ns slot begins on a port in time-division mode; the read as for EGRESS_SELECT. -/
  | tdmSlot (p : Port) (now : TickRead)
  /-- SWC_MIRROR (R275). -/
  | swcMirror (c : Chan) (dma : Bytes)
  /-- PRT_EN_SET (R292). -/
  | prtEnSet (p : Port)
  /-- PRT_EN_CLEAR (R292). -/
  | prtEnClear (p : Port)
  /-- SIGNAL_DETECT (R292): the lanes with signal. -/
  | signalDetect (p : Port) (lanes : BitVec 9)
  /-- LANE_LOCK (R287). -/
  | laneLock (p : Port) (lane : Fin 9)
  /-- LANE_LOCK_LOST (R297). -/
  | laneLockLost (p : Port) (lane : Fin 9)
  /-- EQUALISE_DONE (R292). -/
  | equaliseDone (p : Port)
  /-- ALIGN_DONE (R292): the physical lanes that align. -/
  | alignDone (p : Port) (lanes : BitVec 9)
  /-- UNCORRECTABLE_CODEWORD (R285): on a lane; `inHeader` says that an errored block lies in a unit's header. -/
  | uncorrectableCodeword (p : Port) (lane : Fin 9) (at_ : ErroredAt)
  /-- STATUS (R290). -/
  | status (p : Port) (peerState : BitVec 8) (ready : Bool)
  /-- CAPS (R293). -/
  | caps (p : Port) (cp : Caps)
  /-- COEFF (R294). -/
  | coeff (p : Port) (cf : Coeff)
  /-- WIDTH (R296). -/
  | width (p : Port) (w : WidthMsg)
  /-- DOWN (R299): a DOWN group with its reason. -/
  | down (p : Port) (reason : BitVec 8)
  /-- PORT_STATE_TIMEOUT (R292). -/
  | portStateTimeout (p : Port) (b : PortBound)
  /-- PORT_RETRY_TIMEOUT (R293). -/
  | portRetryTimeout (p : Port)
  /-- PORT_GIVE_UP_TIMEOUT (R381). -/
  | portGiveUpTimeout (p : Port)
  /-- LANE_UE_THRESHOLD (R296). -/
  | laneUeThreshold (p : Port) (lane : Fin 9)
  /-- WIDTH_SWITCH (R296): the effective group of the planned change is reached. -/
  | widthSwitch (p : Port)
  /-- LANE_RETRAIN_DONE (R296): these removed lanes have retrained. -/
  | laneRetrainDone (p : Port) (lanes : BitVec 9)
  /-- RETIMER_POLL (R300): what the retimer reports. -/
  | retimerPoll (p : APort) (present lock : Bool) (temp : BitVec 8)
  /-- RETIMER_RESET (R300). -/
  | retimerReset (p : APort)
  /-- LASER_SAFETY_SHUTOFF (R302). -/
  | laserSafetyShutoff (p : Port)
  /-- LASER_PROBE (R302). -/
  | laserProbe (p : Port)
  /-- LIGHT_RETURN (R302). -/
  | lightReturn (p : Port)
  /-- LASER_MODULE_FAIL (R301): module `m` of the eight (4 s + m, R428). -/
  | laserModuleFail (m : Fin 8) (present : Bool)
  /-- LASER_MODULE_ENABLE (R301). -/
  | laserModuleEnable (m : Fin 8)
  /-- KEYING_EXCHANGE (R305): the exchange ends; `verified` says that both identity signatures verified. -/
  | keyingExchange (p : Port) (verified : Bool)
  /-- KEYING_TIMEOUT (R305). -/
  | keyingTimeout (p : Port)
  /-- REKEY (R305): the exchange names the counter value at which the new key takes effect. -/
  | rekey (p : Port)
  /-- OLD_KEY_EXPIRE (R305). -/
  | oldKeyExpire (p : Port)
  /-- TEN_ADMIT (R314). -/
  | tenAdmit (c : Chan) (dma : Bytes)
  /-- TEN_RELEASE (R321). -/
  | tenRelease (c : Chan) (dma : Bytes)
  /-- TENANT_DRAIN_DONE (R321). -/
  | tenantDrainDone (slot : Fin 64)
  /-- UNIT_SCRUB_DONE (R315): a unit or area is clean, or went out of service (`failed`). -/
  | unitScrubDone (u : ScrubUnit) (failed : Bool)
  /-- EP_BIND (R316). -/
  | epBind (c : Chan) (dma : Bytes)
  /-- EP_UNBIND (R316). -/
  | epUnbind (c : Chan) (dma : Bytes)
  /-- EVIDENCE_GET (R328). -/
  | evidenceGet (c : Chan) (by_ : EvidenceAsk)
  /-- DBG_CHALLENGE (R332). -/
  | dbgChallenge (c : Chan) (dma : Bytes)
  /-- DEBUG_UNLOCK (R332): an unlock token; `fusePower` says that VDD_FUSE is present (R434). -/
  | debugUnlock (serial : BitVec 64) (challenge : Bytes) (scopes : BitVec 32) (signature : Bytes) (fusePower : Bool)
  /-- WATCHDOG_EXPIRE (R337): of a core, at a tick. -/
  | watchdogExpire (core : Fin 18) (t : Tick)
  /-- POR_N (R368): the pin's new level. -/
  | porN (level : Bool)
  /-- SYS_RST_N (R368). -/
  | sysRstN (level : Bool)
  /-- PERST_N (R368). -/
  | perstN (level : Bool)
  /-- SPROUT (R342). -/
  | sprout
  /-- CATALOGUE_APPLY (R376). -/
  | catalogueApply
  /-- FW_STAGE (R346): the bundle the DMA read returned, or its failure. -/
  | fwStage (c : Chan) (bundle : DmaOutcome)
  /-- FW_ACTIVATE (R347). -/
  | fwActivate (c : Chan) (dma : Bytes)
  /-- ACTIVATION_STAGE (R348): the next stage may begin; its cores switch image. -/
  | activationStage (now : Tick)
  /-- ACTIVATION_STAGE_TIMEOUT (R350). -/
  | activationStageTimeout
  /-- ACTIVATION_START_TIMEOUT (R348). -/
  | activationStartTimeout
  /-- POWER_STAGE_DEFERRED_RUN (R349). -/
  | powerStageDeferredRun
  /-- FW_ARB_COMMIT (R343): `fusePower` says that VDD_FUSE is present (R434). -/
  | fwArbCommit (c : Chan) (dma : Bytes) (fusePower : Bool)
  /-- NEGOTIATE (R351). -/
  | negotiate (c : Chan) (dma : Bytes)
  /-- FW_STATUS (R416). -/
  | fwStatus (c : Chan) (dma : Bytes)
  /-- CAT_WRITE (R371). -/
  | catWrite (c : Chan) (dma : Bytes)
  /-- DISCOVER (R345): from recovery host `h`. -/
  | discover (h : Nat) (serial : BitVec 64)
  /-- BEGIN (R345): object type (1 bundle, 2 Catalogue) and total length. -/
  | beginObject (h : RecFrom) (kind : BitVec 8) (total : BitVec 64)
  /-- DATA (R345). -/
  | data (h : RecFrom) (offset : BitVec 64) (bytes : Bytes)
  /-- END (R345). -/
  | endObject (h : RecFrom)
  /-- RECOVERY_SESSION_TIMEOUT (R344). -/
  | recoverySessionTimeout
  /-- LEDGER_EXPORT (R354). -/
  | ledgerExport
  /-- POWER_BOUNDARY (R359): a 1 ms boundary, with the average power, the hottest junction (quarter degrees) and its sensor. -/
  | powerBoundary (now : Tick) (avgW : BitVec 11) (tj : BitVec 10) (sensor : BitVec 5)
  /-- POWER_RISE_BOUNDARY (R360): a 100 ms boundary, with the 100 ms average power. -/
  | powerRiseBoundary (now : Tick) (avg100W : BitVec 11)
  /-- PWR_BRAKE_N (R359): the pin's new level. -/
  | pwrBrakeN (level : Bool) (now : Tick)
  /-- UNDERVOLT (R365). -/
  | undervolt (now : Tick)
  /-- UNDERVOLT_CLEAR (R365). -/
  | undervoltClear
  /-- SUPPLY_LOSS (R365). -/
  | supplyLoss
  /-- THERMAL_TRIP (R365). -/
  | thermalTrip
  /-- PWR_CAP (R361): a write over I3C, with the latest power sample. -/
  | pwrCap (watts : BitVec 32) (sampleW : BitVec 11) (now : Tick)
  /-- PWR_TM_HB (R361). -/
  | pwrTmHb
  /-- TM_LOST (R365). -/
  | tmLost
  /-- ORPHAN (R365). -/
  | orphan (sampleW : BitVec 11) (now : Tick)
  /-- PORT_FORCED (R358). -/
  | portForced (p : Port)
  /-- MEMORY_TRAINED (R376): a tier finishes training; the units that failed it. -/
  | memoryTrained (tier : Tier) (failed : BitVec 128)
  /-- RACK_ANNOUNCE (R379): `direct` says that it arrives as its sender's own on FTX_IN. -/
  | rackAnnounce (a : Announce) (direct : Bool)
  /-- RACK_ANNOUNCE_SEND (R379). -/
  | rackAnnounceSend
  /-- LINK_STATE_ADVERT (R380): arriving on a port. -/
  | linkStateAdvert (p : Port) (a : Advert)
  /-- ADVERT_ORIGINATE (R380). -/
  | advertOriginate
  /-- ADVERT_EXPIRE (R380). -/
  | advertExpire (node : BitVec 11)
  /-- PLANE_SETTLED (R381): the database has been unchanged for 500 ms. -/
  | planeSettled
  /-- ROUTE_RECOMPUTE (R382). -/
  | routeRecompute
  /-- FAB_JOIN (R384). -/
  | fabJoin (c : Chan) (dma : Bytes)
  /-- EP_QUARANTINE (R416). -/
  | epQuarantine (c : Chan) (dma : Bytes)
  /-- EP_UNQUARANTINE (R416). -/
  | epUnquarantine (c : Chan) (dma : Bytes)
  /-- HEALTH_SCORE_UPDATE (R396). -/
  | healthScoreUpdate (now : Tick)
  /-- HEALTH_EXPORT (R398). -/
  | healthExport
  /-- REGISTER_WRITE (R409): a BAR0 write of `size` bytes. -/
  | registerWrite (offset : BitVec 26) (size : Nat) (value : BitVec 32)
  /-- ARM (R411). -/
  | arm
  /-- DISCARD (R411). -/
  | discard
  /-- CANCEL (R412). -/
  | cancel (slot : Fin 8)
  /-- COMMIT_FIRE (R412): the tick of a commit slot is reached at `now`. -/
  | commitFire (slot : Fin 8) (now : Tick)
  /-- LATCHED_READ (R407): a BAR0 read of the low half of a latched pair. -/
  | latchedRead (offset : BitVec 26)
  /-- RC_READ (R3): a BAR0 read of `size` bytes. -/
  | rcRead (offset : BitVec 26) (size : Nat)
  /-- IRQ_HOLDOFF_EXPIRE (R420). -/
  | irqHoldoffExpire (vector : Fin 32)
  /-- HOST_DMA_COMPLETION (R404): the oldest outstanding host access completes. -/
  | hostDmaCompletion (o : DmaOutcome)
  /-- CXL_LINK_DOWN (R24). -/
  | cxlLinkDown
  /-- IDENTIFY_MEMORY_DEVICE (R400). -/
  | identifyMemoryDevice
  /-- GET_SUPPORTED_LOGS (R400). -/
  | getSupportedLogs
  /-- GET_LOG (R400). -/
  | getLog (offset len : BitVec 32)
  /-- GET_PARTITION_INFO (R400). -/
  | getPartitionInfo
  /-- GET_EVENT_RECORDS (R400). -/
  | getEventRecords (log : BitVec 8)
  /-- CLEAR_EVENT_RECORDS (R400). -/
  | clearEventRecords (log : BitVec 8)
  /-- CORE_RESTART (R337): the core runs again. -/
  | coreRestart (core : Fin 18)
  /-- LOCK_BOUND_EXPIRE (R385). -/
  | lockBoundExpire
  /-- MSIX_UNMASK (R420). -/
  | msixUnmask (vector : Fin 32)
  /-- CXL_LINK_UP (R402): the trained width (lanes) and speed code. -/
  | cxlLinkUp (width : BitVec 4) (speed : BitVec 2) (busMaster : Bool)
  /-- DOE_REQUEST (R400). -/
  | doeRequest (k : DoeKind)
  /-- ITERATION_START (R162). -/
  | iterationStart (job : BitVec 32) (now : Tick)
  /-- LINK_GROUP_SEND (R290). -/
  | linkGroupSend (p : Port)
  /-- MAPPING_CHANGE (R76): from the Oseno of this node. -/
  | mappingChange (node : BitVec 11) (ch : MapChange)
  deriving DecidableEq, Repr

end Sys2Proof
end

