-- ==== Sys2Proof/Config.lean ====
section
/-!
DEFINITION. What one part or one implementation fixes and the free values the spec leaves open: opaque
constants with no body, so that nothing can be proved about their values. A free value drawn afresh is
the constant applied to the state's counter `fresh`.
-/

namespace Sys2Proof

/-- The fused serial number less one (R422: never 0 and never all ones). -/
opaque Config.serialIndex : Fin 18446744073709551614

/-- The fused serial number (R422). -/
def Config.serial : BitVec 64 := BitVec.ofNat 64 (Config.serialIndex.val + 1)

/-- Bits the true random number generator gives at a draw (R319, R140, R332, R305). -/
opaque Config.trng : Nat → BitVec 256

/-- The signature `sig` over `body` verifies under the operator or Axwick key whose digest is `key`
(R327; ECDSA P-384 and ML-DSA-87 as the spec names them, taken as a predicate). -/
opaque Config.verifies (key body sig : Bytes) : Bool

/-- The Axwick firmware and debug authorities' key digests fused at manufacture (R327, R332). -/
opaque Config.axwickKey : Bytes

/-- The device's signature over a message with its Alias key, certificates aside (R326, R328). -/
opaque Config.aliasSign : Nat → Bytes → Bytes

/-- Certificate `i` of the chain from the Axwick root to Alias (0 to 3), of algorithm `a` (0 Ed25519,
1 ML-DSA-65); the Alias certificate carries the firmware digests (R326, R327, R329). -/
opaque Config.certificate : Nat → Nat → Bytes → Bytes

/-- The version of the security core's ROM (R328). -/
opaque Config.romVersion : BitVec 32

/-- The features an image of the management role supports, by its digest (R347). -/
opaque Config.imageFeatures : Bytes → BitVec 64

/-- The version of the host interface the device answers with (R351). -/
opaque Config.interfaceVersion : BitVec 32

/-- The severity a trace point records with (R353: the spec names the four but not which is whose). -/
opaque Config.severity : Nat → BitVec 2

/-- What a sensor or counter of the physical layer reads (register offset and Fabric Time): lane skew,
signal-to-noise ratio, optical power, domain power, corrected symbols (R308, R367). -/
opaque Config.sensor : Nat → Nat → BitVec 32

/-- Weighted events a lane's codec counted in a second (entity and Fabric Time), in units of 1/1,024: corrected
symbols and codewords (R397). -/
opaque Config.laneEvents : Nat → Nat → BitVec 32

/-- How a health score rounds to its unit of 1/256 (entity and draw; R396 names no rounding): up or down. -/
opaque Config.scoreUp : Nat → Nat → Bool

/-- Tap `t` (0 PRE2, 1 PRE1, 2 MAIN, 3 POST1) of transmitter preset `k` (R294 names 8 presets, without values). -/
opaque Config.presetTap : Nat → Nat → BitVec 8

/-- A member of a slip group negotiated Repex Transport 1.1 on its link to its time parent or its chain neighbour (R171: the
spec does not say how another member learns of it). -/
opaque Config.memberOld : BitVec 11 → Bool

/-- A step of a job's collective, by handle and SEQ, has fired late on some other device (R168: the spec lets no frame carry it
to the members there; log 121). -/
opaque Config.lateElsewhere : BitVec 32 → BitVec 32 → Bool

/-- The set of the 1,024 of a translation cache that a 2 MiB page occupies, by its number of R66 (R68: not specified). -/
opaque Config.cacheSet : Nat → Fin 1024

/-- Axwick's PCI vendor ID (R401 names its owner, no number). -/
opaque Config.vendorId : BitVec 16

/-- What a port's GCM engine makes of a frame's payload and trailer under a key: the ciphertext and the tag (R304). -/
opaque Config.gcm (key : Nat) (nonce aad text : Bytes) : Bytes

/-- The marker group a port begins with (R284). -/
opaque Config.groupBase : Nat → BitVec 21

/-- Symbols the decoder of a lane has corrected, as a counter register of it (its offset) shows since the tick of its last clearing
(R308). -/
opaque Config.corrected (reg since t : Nat) : BitVec 32

/-- An otherwise unstated byte, number `i` of draw `n`. -/
opaque Config.freeByte : Nat → Nat → BitVec 8

/-- An otherwise unstated word of draw `n`. -/
opaque Config.freeWord : Nat → BitVec 64

/-- A route, as its egress ports, crosses a link beyond its first that runs Transport revision 1.1 (R141): the adverts carry
no revision, so the device learns it in a way the spec does not give (log 84). -/
opaque Config.farLinkOld : List Nat → Bool

end Sys2Proof
end

