-- ==== Sys2Proof/Machine/State.lean ====
section
/-!
DEFINITION. The state of the block: every register, FIFO, buffer, counter, mode and pin the spec gives
the Oseno, as plain data, with the queue of waiting commands. `State.reset` is the device right after
reset. Sparse collections are `Table`s: lists of key and value with keys strictly rising and no value
equal to what an unlisted key reads as.
-/

namespace Sys2Proof.Machine
open Sys2Proof

/-- Why the block could stop. No meaning raises one: every command of the table has an effect the spec
gives, or none at all, and then the state stays (safe). -/
inductive Fault where
  /-- Raised by no meaning of this model (safe): kept so that the interface has a closed fault type. -/
  | never
  deriving DecidableEq, Repr

/-- Why a command could be refused by the model. -/
inductive Refusal where
  /-- A command that has no meaning yet, by its mnemonic; raised by no arm of the finished model (safe). -/
  | notModelled (mnemonic : String)
  deriving DecidableEq, Repr

/-- A sparse collection by number; an unlisted key reads as the default its user gives. -/
abbrev Table (α : Type) := List (Nat × α)

/-! ### What the device puts out -/

/-- A Repex Control message (TYPE CTL, or the messages of R76, R145, R394 whose bytes the spec leaves
to firmware), as the device sends it. -/
inductive Ctl where
  | mapChange (ch : MapChange)                       -- R76, to the other Osenos that hold a copy
  | mapConfirm (node : BitVec 11) (st : Status)      -- R76, R78, the answer to a MAPPING_CHANGE, with its sender
  | quarantine (endpoint : BitVec 16)                -- R145
  | quarantineSet (endpoint : BitVec 16) (on : Bool)   -- R416, to an Oseno that confirms it
  | linkFailed (node : BitVec 11) (port : Nat)       -- R134
  | advert (payload : Bytes)                         -- R380
  | moveSubmit (c : Chan) (tenant : BitVec 12) (desc : Bytes)   -- R246, to the device of the MOVE's plane
  | moveEnded (c : Chan) (st : Status)               -- R246, back to the device whose host submitted the MOVE
  | readiness (word : Word)                          -- R383
  | notice (bytes : Bytes)                           -- R394
  deriving DecidableEq, Repr

/-- One thing the device puts on a link, the chain, a pin group or the host's memory. -/
inductive Emit where
  | attach (p : APort) (m : AttMsg)                  -- an Attach message on an A-port
  | frame (e : Egress) (f : Frame)                   -- a frame leaves the switching core at an egress
  | ctl (node : BitVec 11) (m : Ctl)                 -- a Repex Control message to a node
  | ctlPlane (m : Ctl)                               -- to every Oseno of the plane
  | ctlRack (m : Ctl)                                -- to every other Oseno of the rack
  | chainSlip (payload : Bytes)                      -- a slip notice on FTX_OUT (R170)
  | chainAbort (f : Frame) | chainAnnounce (a : Announce)
  | chainTime (c : ChainCode)                        -- the time code on FTX_OUT (R151)
  | chainBack (payload : Bytes)                      -- a slip notice back along a broken chain (R170)
  | entryEnded (job : BitVec 32) (iter desc : Nat) (st : Status)   -- what the receivers of a MULTICAST entry get for it, DONE apart (R168, R196)
  | timeGroup (p : Port) (g : TimeGroup)
  | linkStatus (p : Port) (st : BitVec 8) (ready : Bool)
  | linkCaps (p : Port) (c : Caps)
  | linkCoeff (p : Port) (c : Coeff)
  | linkWidth (p : Port) (w : WidthMsg)
  | linkDown (p : Port) (reason : Nat)               -- one DOWN group (R299)
  | keying (p : Port)                                -- CTL frames of the keying exchange (R305)
  | probe (p : Port)                                 -- a laser probe pulse (R302)
  | retimerReset (p : APort) (bus : Nat)             -- over I3C bus 0 or 1 (R300)
  | retimerPreset (p : APort) (bus : Nat)            -- the presets written before DETECT
  | frameCounter (p : Port) (counter : Bytes)        -- COUNTER of the frame just sent on an encrypted link (R304)
  | msix (vector : Nat)
  | hostWrite (addr : Nat) (bytes : Bytes)           -- a CXL.io DMA write
  | hostRead (addr : Nat) (len : Nat)                -- a CXL.io DMA read
  | hostReply (value : Word)                         -- the value a BAR0 read returns
  | cxlMem (data : Option Bytes)                     -- a CXL.mem read's answer; none is poison
  | cxlMemDone                                       -- completion of a CXL.mem write
  | mdMailbox (code : Nat) (payload : Bytes)         -- CXL memory-device mailbox answer
  | doe (k : DoeKind)                                -- a DOE answer
  | udp (bytes : Bytes)                              -- a management-port datagram
  | evidence (st : Status) (record : Bytes)          -- the management port's answer to its request for evidence (R328)
  | recovery (bytes : Bytes)                         -- a recovery message to the host (R345)
  | jtag (st : Status)                               -- an answer over JTAG (R332)
  | mirror (session : Nat) (rec : Bytes)             -- a copy to an analysis port (R275)
  | ledgerDump (n : Nat)                             -- the ring copied to the recovery area (R353)
  deriving DecidableEq, Repr

/-! ### Chip, clocks and pins -/

/-- One die bridge (R10). -/
structure Bridge where
  down     : Bool := false
  failRun  : Nat := 0      -- consecutive failed replays of the present flit
  replays  : Nat := 0      -- replays since reset, for the core die's health score
  deriving DecidableEq, Repr

/-- Resets, clocks and pins. -/
structure Chip where
  porN      : Bool := false
  sysRstN   : Bool := false
  perstN    : Bool := true
  running   : Bool := false             -- clocks run: false in reset and after a stop (R365)
  tripped   : Bool := false             -- THERMTRIP_N asserted (R432)
  stopped   : Bool := false             -- the supply-loss or trip stop of R365
  brakePin  : Bool := false             -- PWR_BRAKE_N low
  ppsOut    : Bool := false             -- FT_PPS_OUT
  bridges   : Table Bridge := []        -- by Die.idx
  sdLost    : List Nat := []            -- REFCLK_SD inputs lost
  cxlClkLost : Bool := false
  deriving DecidableEq, Repr

/-- What the fuses hold: they change only when the part blows them (R332, R343). -/
structure Fuses where
  serial    : BitVec 64                 -- fused (R422)
  arb       : BitVec 64 := 0            -- anti-rollback fuses (R343)
  unlocks   : Nat := 0                  -- unlock-count fuse bits blown (R332)
  axwickOff : Bool := false             -- R332
  opKeys    : List (Bytes × Bool) := [] -- fused operator key digests, with revoked (R372)
  deriving DecidableEq, Repr

/-! ### Fabric Time (R148 to R156) -/

inductive Servo where
  | freerun | acquire | locked | holdover | unlocked
  deriving DecidableEq, Repr

structure TimeSt where
  count    : BitVec 64 := 0             -- the master counter
  started  : Bool := false              -- the count has been started (R148, R370)
  servo    : Servo := .freerun
  isGm     : Bool := false
  parent   : BitVec 7 := 0x7E           -- 0x7F FTX_IN, 0x7E none
  depth    : BitVec 5 := 0
  gmNode   : BitVec 11 := 0
  errPs    : BitVec 16 := 0xFFFF        -- in HOLDOVER the last locked bound
  holdAt   : Nat := 0                   -- tick at which HOLDOVER began (R155)
  offset   : BitVec 16 := 0             -- last servo offset, 1/64 tick, signed
  offsets  : List Int := []             -- the last 8 offsets in ticks times 2, newest first (R150)
  delays   : Table Int := []            -- measured delay per port, ticks times 2
  txSeq    : Table (BitVec 8) := []     -- SEQ of the next time group per port (R289)
  lastRx   : Table (Tick × Tick) := []  -- receive tick and TX of the peer's last group per port
  heard    : Table (Nat × Nat × Nat × Bool) := []  -- depth, grandmaster node, servo state and GM bit of the last group per port
  loopPs   : BitVec 20 := 0
  broken   : Bool := false
  chainBrk : Option (BitVec 3) := none  -- plane at whose FTX_IN the rack chain is broken, as the code on FTX_IN has it (R170)
  slips    : List (BitVec 32 × Nat × Nat × Nat) := []  -- job, iteration, guard and attempt of notices passed on for jobs not loaded (R170)
  ppsMiss  : Nat := 0                   -- consecutive missed pulses
  everLocked : Bool := false            -- the device has reached LOCKED (R353)
  lockBound : Bool := false             -- the step-5 bound of R385 has passed
  deriving DecidableEq, Repr

/-! ### Ports (R279 to R305) -/

inductive PortState where
  | disabled | detect | equalise | align | negotiate | keying | up | recover
  deriving DecidableEq, Repr

/-- A planned change of lanes (R296). -/
structure LaneChange where
  op     : Nat
  mask   : BitVec 9
  group  : BitVec 24
  agreed : Bool := false
  power  : Bool := false                -- a narrowing to WIDTH_CAP: the lanes it removes are turned off
  deriving DecidableEq, Repr

structure PortSt where
  state     : PortState := .disabled
  width     : BitVec 2 := 3             -- 0 eight, 1 four, 2 two, 3 none
  fullRate  : Bool := false             -- PRT_STATUS.RATE
  trev11    : Bool := false             -- PRT_STATUS.TREV
  enc       : Bool := false
  spareUsed : Bool := false
  peerNode  : Option (BitVec 11) := none
  peerPort  : BitVec 7 := 0
  peerRole  : BitVec 3 := 0
  peerMode  : BitVec 2 := 0
  peerUnit  : BitVec 64 := 0
  peerRates : BitVec 2 := 0
  active    : BitVec 9 := 0
  order     : List Nat := []            -- physical lanes by their logical number (R281, R288)
  locked    : BitVec 9 := 0
  signal    : BitVec 9 := 0
  off       : BitVec 9 := 0             -- lanes narrowed away for power, turned off (R296)
  everLit   : BitVec 9 := 0             -- lanes that have had a signal since the reset (R308)
  peerSent  : Bool := false             -- the peer has sent a time group since DETECT (R289)
  settled   : Bool := false             -- COEFF exchange settled
  peerReady : Bool := false
  peerAccepted : Bool := false          -- CAPS of the peer accepted (R293)
  lastUp    : Option (BitVec 16 × BitVec 8 × BitVec 64) := none  -- NODE, PORT, UNIT_ID of the last UP
  failsFull : Nat := 0                  -- failed attempts in a row at the full rate
  lowTried  : Bool := false             -- a full attempt at the lowest allowed rate has failed (R381)
  tryFull   : Bool := true              -- the rate being tried
  change    : Option LaneChange := none
  narrowDue : Bool := false             -- a narrowing waits for a spare switch (R298)
  ueDue     : List Nat := []            -- lanes at UE_THR whose decision waits (R298)
  wideDue   : BitVec 9 := 0             -- retrained lanes whose use waits for the cluster core (R298)
  secondLoss : Bool := false            -- RECOVER restarted once (R298)
  refused   : Bool := false             -- waiting 10 s after refusing a peer (R293)
  givenUp   : Bool := false             -- R381
  heldDown  : Bool := false             -- held DISABLED by a mismatch (R378, R379) or R358
  forced    : Bool := false             -- held DISABLED by R358
  delin     : Bool := true              -- delineation held (R286)
  late      : Bool := false             -- the frame coming in has an errored block beyond its header (R285)
  lightOff  : Bool := false             -- transmitted light cut (R302)
  epochTx   : Bool := false
  epochRx   : Bool := false
  oldKey    : Bool := false             -- the old receive key is still held (R305)
  keyed     : Bool := false             -- link keys present
  ctrRx     : Option Nat := none        -- counter last accepted in the receive epoch (R304)
  ctrOld    : Option Nat := none        -- and in the epoch before it
  authFails : List Nat := []            -- ticks of the authentication failures of the last millisecond (R304)
  present   : Bool := false             -- retimer found (PRT_RTM)
  rtLock    : Bool := false
  rtAddr    : BitVec 7 := 0
  rtTemp    : BitVec 8 := 0
  groupTx   : BitVec 21 := 0            -- marker groups sent up to `groupAt`, beyond the port's first (R284)
  groupAt   : Nat := 0                  -- tick at which the rate of the groups last changed
  taps      : Table (List (BitVec 8)) := []  -- per lane PRE2, PRE1, MAIN, POST1 (R294)
  deriving DecidableEq, Repr

/-- One external laser source module (R301). -/
structure Laser where
  present   : Bool := false
  enabled   : Bool := false
  interlock : Bool := false
  fault     : Bool := false
  deriving DecidableEq, Repr

/-! ### Attach sessions (R29 to R56) -/

inductive AttState where
  | down | hello | up | fenced | lost
  deriving DecidableEq, Repr

/-- The key of a page: tenant, F, SEL and the 2 MiB page number (R65). -/
structure PageKey where
  tenant : BitVec 12
  f      : Bool
  sel    : BitVec 15
  vpn    : BitVec 27
  deriving DecidableEq, Repr

/-- A page a request touches, with the slot its translation found (R70). -/
structure PageRes where
  key  : PageKey
  slot : Option (BitVec 64 × BitVec 64) := none
  deriving DecidableEq, Repr

/-- Where an accepted request stands. -/
inductive Phase where
  | translate                            -- waiting for bucket reads (R67)
  | held                                 -- a WRITE_FLAG held behind earlier stores (R90)
  | ready                                -- translated, behind earlier requests of its ordered stream (R88)
  | mark                                 -- a RELEASE_MARK waiting for what it covers (R46)
  | issued                               -- its frames are in the transport's custody
  | moving                               -- a MOVE in the move engines' custody
  | coll                                 -- a COLL message in a context's custody
  deriving DecidableEq, Repr

/-- A request in the Oseno's custody on one Attach link (R39, R42). -/
structure OutReq where
  id     : Nat                           -- model's own number, rising in acceptance order
  msg    : AttMsg
  phase  : Phase
  pages  : List PageRes := []
  left   : Nat := 0                      -- fabric requests of it not yet ended
  status : Status := .done
  data   : List (Nat × Bytes) := []      -- answers by byte offset in the request
  failed : Bool := false                 -- a request a held flag waits on has failed (R91)
  gone   : Bool := false                 -- its link left UP: it is finished without a COMPLETION (R47)
  old    : Bool := false                 -- translated before the latest completed change (R78)
  since  : Nat := 0                      -- Fabric Time of its acceptance
  deriving DecidableEq, Repr

/-- An inbound request sent to the accelerator and not yet answered (R49). -/
structure InbReq where
  tag    : BitVec 13
  opc    : BitVec 8
  access : Nat                           -- the home access it serves
  off    : Nat
  len    : Nat
  locked : Bool := false                 -- INB_READ of a locked read-modify-write (R109)
  deriving DecidableEq, Repr

structure Session where
  state    : AttState := .down
  minor    : BitVec 1 := 0               -- negotiated revision: 1 is 1.1
  deleg    : Bool := false
  acq      : Bool := false
  atom128  : Bool := false
  peerCaps : BitVec 16 := 0
  peerMin  : BitVec 8 := 0
  peerMaj  : BitVec 8 := 0
  rspCrd   : Nat := 0
  inbCrd   : Nat := 0
  reqCrd   : Nat := 0                    -- REQ units granted for the session (CRD_A of every HELLO)
  inrCrd   : Nat := 0                    -- INR units granted
  reqUsed  : Nat := 0                    -- REQ units of messages taken and not yet returned in a CREDIT (R40, R187)
  inrUsed  : Nat := 0                    -- INR units likewise
  rxMsn    : BitVec 16 := 0              -- expected number e (R37)
  txMsn    : BitVec 16 := 0
  nakSent  : Bool := false
  halted   : Bool := false               -- the peer's ATTACH_NAK with FENCED has stopped resending (R54)
  refused  : Bool := false               -- HELLO refused or timed out; DOWN until retrain or EN 0 then 1
  waitEnd  : Bool := false               -- the fence's wait for INB_DONE has ended (R54)
  unacked  : List (BitVec 16 × AttMsg) := []   -- custody copies, oldest first (R38)
  blocked  : List AttMsg := []           -- messages that wait for RSP or INB credits
  toLink   : List AttMsg := []           -- messages that wait for RECOVER to end (R297)
  out      : List OutReq := []           -- requests outstanding, oldest first
  nextOut  : Nat := 1                    -- number of the next request
  inb      : List InbReq := []
  nextTag  : BitVec 13 := 0              -- next INB tag
  deriving DecidableEq, Repr

/-! ### Translation and regions (R57 to R80) -/

/-- A cached slot (R68). -/
structure CacheEntry where
  port : Nat                             -- A-port whose ways hold it (isolated tenancy)
  w0   : BitVec 64
  w1   : BitVec 64
  deriving DecidableEq, Repr

/-- A bucket read in flight (R67). -/
structure Miss where
  key  : PageKey
  port : Nat                             -- A-port whose request missed first
  deriving DecidableEq, Repr

/-- A change waiting for confirmations (R76). -/
structure PendChange where
  id     : Nat                           -- 0 to 3 mailbox channels, 4 + e move engines
  nodes  : List Nat                      -- nodes whose Oseno has not yet confirmed
  kind   : Nat                           -- 0 mapping or region, 1 drain, 2 quarantine, 3 a page's marks, 4 its release
  deriving DecidableEq, Repr

structure Xlat where
  cache    : Table (List CacheEntry) := []   -- by A-cluster × 1,024 + set, least recently used first (R68)
  misses   : Table (List Miss) := []         -- by A-cluster, oldest first
  rgnCache : Table (List (Nat × Nat × Nat)) := []  -- cached descriptors: endpoint, index, tenant; by A-cluster, 9 for MEM
  rgnMiss  : Table (List Frame) := []        -- frames waiting for a descriptor read, by home point
  epoch    : Table Bool := []                -- translation epoch by A-cluster
  changes  : List PendChange := []
  deriving DecidableEq, Repr

/-! ### Transport (R125 to R147) -/

inductive SendState where
  | opening | opened | closing
  deriving DecidableEq, Repr

/-- A frame the source holds a copy of (R132). -/
structure Sent where
  psn   : BitVec 32
  frame : Frame
  req   : Nat                            -- fabric request it belongs to; 0 for a skip frame
  deriving DecidableEq, Repr

structure SendCtx where
  num     : Nat                          -- model's own number
  sid     : StreamId
  starved : Bool := false                -- waits for a send context to free (R140)
  state   : SendState := .opening
  ipsn    : BitVec 32 := 0
  next    : BitVec 32 := 0
  rev     : BitVec 8 := 0x20
  feat    : BitVec 8 := 0
  path    : BitVec 4 := 0
  cwnd    : Nat := 128
  alpha   : Rat := 0
  acked   : Nat := 0
  marked  : Nat := 0
  unacked : List Sent := []              -- copies, oldest first
  waiting : List (Frame × Nat) := []     -- frames not yet sent, with their request
  rspDue  : List (BitVec 32) := []       -- PSNs of RSP frames awaiting the reverse ACK (R130)
  succ    : Bool := false                -- a successor session (R140)
  prevEnd : BitVec 32 := 0
  host    : Bool := false                -- held by HOST: opened for a request HOST originates (R140)
  lastUse : Nat := 0                     -- model's own use stamp, for least recently used
  deriving DecidableEq, Repr

structure RecvCtx where
  sid     : StreamId
  ipsn    : BitVec 32                    -- initial PSN: the session's PSNs lie within 65,536 of it (R140)
  e       : BitVec 32
  seen    : List Nat := []               -- offsets from e already seen, rising
  feat    : BitVec 8 := 0
  rev     : BitVec 8 := 0x20
  held    : List Frame := []
  refused : List Frame := []             -- frames refused by a NAK that ends their request, payloads aside: the request's other frames are discarded (R131)
  starts  : List (BitVec 32) := []       -- PSNs from e on at which a request is known to begin (R131)
  ceSeen  : List (BitVec 32) := []       -- PSNs answered by an RSP that arrived with CE and that no ACK has covered (R130)
  host    : Bool := false                -- held by HOST: opened for requests of SPACE 3 (R142)
  results : List (BitVec 32 × Frame) := []  -- result records (R132)
  ackDue  : List (BitVec 32 × Bool) := []   -- acknowledgeable PSNs not yet acknowledged, with CE
  cum     : BitVec 32 := 0               -- every PSN below it is acknowledged
  acked   : List (BitVec 32) := []       -- acknowledged PSNs from cum on
  bad     : List (BitVec 32) := []       -- PSNs of held frames whose cells do not read (R262)
  succ    : Bool := false
  prevEnd : BitVec 32 := 0
  lastTick : Nat := 0                    -- Fabric Time of its last application or RSP (R142)
  lastUse : Nat := 0
  deriving DecidableEq, Repr

/-- An Almanac MULTICAST towards one A-port: what started it, and its image descriptor (R196). -/
structure McastPort where
  tenant : BitVec 12
  job    : BitVec 32
  iter   : Nat
  idx    : Nat                           -- the descriptor's number in the image
  desc   : Bytes
  port   : Nat
  deriving DecidableEq, Repr

/-- Who a fabric request serves. -/
inductive Origin where
  | attach (p : Nat) (id : Nat)
  | engine (e : Nat) (line : Nat)        -- a move engine's read or write
  | coll (ctx : Nat) (chunk : Nat)       -- a tree edge or result frame
  | multicast (x : McastPort)            -- an Almanac MULTICAST's bytes for one receiver (R196)
  | treeList (p id run : Nat)            -- a page run of the member list of the tree open of request `id` of port `p` (R189)
  | record                               -- shift record, done word, mirror record, gather counter
  | forward (held : Nat) (host : Bool)   -- a held store forwarded to its new home (R254), from HOST or from MEM
  deriving DecidableEq, Repr

/-- A request the transport carries (R133). -/
structure FabReq where
  id      : Nat
  origin  : Origin
  sid     : StreamId
  opc     : BitVec 8
  left    : Nat                          -- frames not yet acknowledged or answered
  attempt : Nat := 0
  lastAt  : Nat := 0                     -- Fabric Time of the latest attempt
  lastPsn : Option (BitVec 32) := none   -- the PSN of the NAK that caused it; none for a timer (R133)
  status  : Status := .done              -- the failing status of the earliest check (R6)
  data    : List (Nat × Bytes) := []     -- answers by offset of their frame
  need    : Nat := 0                     -- session features it needs (R141)
  ended    : Bool := false                -- ended; its unacknowledged PSNs are skipped (R138)
  old      : Bool := false                -- translated here before the latest completed change (R78)
  deriving DecidableEq, Repr

structure Transport where
  send     : List SendCtx := []
  recv     : List RecvCtx := []
  reqs     : List FabReq := []
  nextReq  : Nat := 1
  ipsn     : BitVec 32                   -- IPSN counter (R140)
  quar     : List Nat := []              -- quarantined endpoints (TRN_QUAR_n), rising
  stamp    : Nat := 0                    -- use stamp
  ended    : List FabReq := []           -- requests that ended in this step and are not yet reported
  openAt   : List Nat := []              -- Fabric Times of the OPEN frames of the last microsecond (R140)
  formatCnt : Nat := 0                   -- frames discarded for a reserved value (R128; no register shows it)
  deriving DecidableEq, Repr

/-! ### Home points (R104 to R122) -/

/-- What a home access does. -/
inductive HomeOp where
  | read | write | atomic | commit
  deriving DecidableEq, Repr

/-- A frame being served at a home point. -/
structure Access where
  id     : Nat
  home   : Nat                           -- 0 to 71 End-point Block, 72 MEM, 73 HOST
  frame  : Frame
  op     : HomeOp
  left   : Nat                           -- parts not yet finished
  data   : List (Nat × Bytes) := []      -- read data by FPA
  status : Status := .done
  combine : Option Nat := none           -- serves this combining entry
  cxl    : Bool := false                 -- a CXL.mem access of the host
  own    : Nat := 0                      -- 0 a frame's access; 1 + n a record of mirror session n; 9 + e move engine e's
  reply  : Option Frame := none          -- a held store's frame as its source sent it, which is answered (R250)
  old    : Bool := false                 -- translated here before the latest completed change (R78)
  deriving DecidableEq, Repr

/-- One line part of an access (R111). -/
structure Part where
  access : Nat
  src    : BitVec 16
  ord    : Bool
  off    : Nat                           -- (SPACE << 44) | OFFSET of its first byte
  len    : Nat
  since  : Nat := 0                      -- Fabric Time at which it took its slot
  deriving DecidableEq, Repr

/-- A hot line of a serialiser (R110). -/
structure HotLine where
  home    : Nat
  line    : Nat                          -- (SPACE << 44) | line-aligned OFFSET
  lastSrc : BitVec 16
  locked  : Bool := false
  busy    : List Part := []              -- executing, oldest first
  wait    : List Part := []              -- arrival order
  deriving DecidableEq, Repr

/-- A combining entry (R113). -/
structure CombEntry where
  num     : Nat
  home    : Nat
  tenant  : BitVec 12
  fadd    : Bool
  addr    : Nat                          -- line or word FPA
  atop    : BitVec 8
  access  : Nat                          -- the access that serves the entry
  members : List (Nat × BitVec 16 × Bytes × Nat × Nat)  -- access, source, operand, FPA, length, in join order
  issued  : Bool := false
  ripe    : Bool := false                -- its hold has run out
  deriving DecidableEq, Repr

/-- An access of the host tier in flight over CXL.io DMA (R24, R404). -/
structure HostAcc where
  part    : Part
  locked  : Bool                         -- a locked read-modify-write (R109)
  isWrite : Bool
  deriving DecidableEq, Repr

structure Home where
  accesses : List Access := []
  nextAcc  : Nat := 1
  hot      : List HotLine := []
  queue    : List (Nat × Part) := []     -- parts with no slot or hot line, by home, arrival order
  comb     : List CombEntry := []
  nextComb : Nat := 0
  host     : List HostAcc := []          -- oldest first
  stk      : Table Byte := []            -- Stacks bytes by offset, the system partition from 142 GiB on
  anx      : Table Byte := []            -- Annex bytes by offset
  poison   : List Nat := []              -- poisoned lines: (SPACE << 44) | line offset, rising
  pcUe     : Table Nat := []             -- uncorrectable lines found per pseudo-channel; 128 + k package k
  pcOut    : List Nat := []              -- pseudo-channels and packages out of service
  failed   : List ScrubUnit := []        -- units marked failed (R315)
  deriving DecidableEq, Repr

/-! ### Move engines (R245 to R256) -/

/-- Who asked for a MOVE; channel 4 stands for a mailbox command that no longer waits (R337), and `peer` for the host of
another plane's device (R246). -/
inductive MoveOrigin where
  | attach (p : Nat) (id : Nat) | chan (c : Nat) | almanac (job : BitVec 32) (iter desc : Nat)
  | peer (node : BitVec 11) (c : Chan)
  deriving DecidableEq, Repr

/-- Where a MOVE stands: waiting for an engine or for its next page, parked on a fault record, a RELOCATE's page holding
while earlier stores to it drain (R250), reading or writing a page, and for a RELOCATE copied, flipping its slot, and
releasing its held stores. -/
inductive MovePhase where
  | start | parked (rec : Nat) | draining | reading | writing | copied | flipping | releasing
  deriving DecidableEq, Repr

/-- A MOVE in the engines' custody; `pos` to `pos + n` is the part under way. -/
structure Move where
  id      : Nat
  origin  : MoveOrigin
  tenant  : BitVec 12
  desc    : Bytes
  engine  : Option Nat := none
  phase   : MovePhase := .start
  pos     : Nat := 0                     -- bytes of the range already finished
  n       : Nat := 0
  src     : Nat := 0                     -- FPA (R59) the part is read from
  dst     : Nat := 0                     -- FPA it is written to
  slot    : BitVec 64 × BitVec 64 := (0, 0)   -- RELOCATE: the page's slot before the flip
  buf     : Bytes := []                  -- bytes read
  data    : List (Nat × Bytes) := []     -- answers by offset
  left    : Nat := 0                     -- requests not yet ended
  status  : Status := .done
  old     : Bool := false                -- the part was translated before the latest change (R78)
  late    : Bool := false                -- fired from a LATE guard (R168)
  deriving DecidableEq, Repr

structure FaultRec where
  num   : Nat
  key   : PageKey
  since : Nat                            -- Fabric Time of opening (AGE_US)
  deriving DecidableEq, Repr

/-- A page under move or just moved: FPA (endpoint left out), size, and its new FPA (R59). -/
structure PageMove where
  page : Nat
  size : Nat
  new  : Nat
  runner : Nat := 0                      -- fabric-memory endpoint of the device that runs the move
  deriving DecidableEq, Repr

/-- A store held while its page moves (R250); `waits` where it found the hold buffer full (R251). -/
structure HeldStore where
  id    : Nat                            -- the number of its access, drawn as it was taken
  frame : Frame
  home  : Nat
  waits : Bool := false
  sent  : Bool := false                  -- forwarded to the new home
  own   : Nat := 0                       -- 0 a frame's store; 1 + n a record of mirror session n; 9 + e a COPY write of move engine e (R253)
  deriving DecidableEq, Repr

structure Measured where
  num    : Nat
  keyidx : BitVec 16
  space  : BitVec 4
  base   : Nat
  length : Nat
  ptr    : Nat := 0                      -- bytes written so far
  fed    : Bytes := []                   -- plaintext fed to the digest so far
  ahead  : List (Nat × Bytes) := []      -- lines of a COPY from another node written beyond the pointer, by offset
  run    : Option (StreamId × BitVec 32 × Nat) := none  -- the COPY from another node last admitted at the pointer: stream, PSN and offset of its first frame
  sealed : Bool := false
  digest : Bytes := []
  tenant : BitVec 12 := 0
  deriving DecidableEq, Repr

structure Movs where
  moves    : List Move := []             -- waiting (no engine) and running, acceptance order
  nextMove : Nat := 1
  lastTen  : BitVec 12 := 0              -- tenant an engine of shared tenancy served last (R247)
  faults   : List FaultRec := []
  holding  : List PageMove := []         -- pages holding at their old home here
  arriving : List PageMove := []         -- pages arriving here; `page` is the new FPA
  oldPages : List PageMove := []         -- old copies awaiting release (R252)
  held     : List HeldStore := []
  arrWait  : List (Nat × Nat × Frame) := []  -- requests waiting at an arriving page: the number of their access, whose they are (as `own`), and the frame
  measWait : List Frame := []            -- frames of a COPY into a measured region that came before its first one (R256)
  owed     : List (BitVec 11 × Bool × PageMove) := []  -- confirmations owed to a running device: that a page's earlier stores have drained, or (true) that its held stores have gone
  drains   : List (BitVec 11 × BitVec 12) := []  -- drains that other nodes run and that this device has not confirmed, with their tenant (R78)
  measured : List Measured := []
  hostDone : List (Nat × Nat × Status × Bytes) := []  -- engine, offset, status and data of ended host-tier accesses
  doneDesc : List (BitVec 32 × Nat × Nat × Status) := []  -- job, iteration, descriptor, status of ended Almanac MOVEs
  deriving DecidableEq, Repr

/-! ### Switching core (R262 to R278, R437) -/

/-- The queues of one egress (R267). -/
structure EgressQ where
  lane    : List Frame := []
  control : List Frame := []
  queues  : Table (List Frame) := []     -- unscheduled 0 to 31
  peak    : Table Nat := []              -- highest occupancy since the last read, 64-byte units
  drr     : Nat := 0                     -- queue served last by deficit round robin
  deficit : Table Nat := []              -- deficit per queue
  tokens  : Nat := 1638400               -- control token bucket, in units of 1/400 byte (4,096 bytes)
  tokenAt : Nat := 0                     -- tick of its latest filling
  busyTo  : Nat := 0                     -- tick at which the frame that left last ends
  ctrTx   : Nat := 0                     -- frame counter of the transmit direction of an encrypted link (R304)
  rekeyDue : Bool := false               -- a rekey waits (R298)
  rekeying : Bool := false               -- the exchange of a rekey is under way (R305)
  deriving DecidableEq, Repr

/-- A scheduled window open on a port's egress, or waiting for one to close (R163). -/
structure OpenWin where
  port   : Nat
  tenant : BitVec 12
  job    : BitVec 32
  close  : Nat                           -- tick
  isOpen : Bool := true
  deriving DecidableEq, Repr

structure Switch where
  eg      : Table EgressQ := []
  wins    : List OpenWin := []
  mirCnt  : Table Nat := []              -- matching frames per mirror session
  mirUse  : Table Nat := []              -- bytes of the session's reserve in use
  mirRec  : Table Nat := []              -- records written, for RECNO
  mirNext : Table Nat := []              -- where the next record goes, bytes from the region's base
  mirVis  : Table Nat := []              -- WPTR: end of the latest visible record, in units of 128 bytes
  mirOpen : List (Nat × Nat × Bool) := []  -- records under way in their order: session, where WPTR stands after it, visible
  mirWait : List (Nat × Nat × Frame) := []  -- copies for analysis ports: session, port, frame
  residue : List (Frame × List (Nat × Frame)) := []  -- multicast frames stored once, with the copies still to send and their egresses
  parked  : List (Nat × Frame) := []     -- frames internal originators hold until room frees (R265), with their egress
  lag     : List McastPort := []         -- lagging ports of MULTICASTs, for which the Stacks are read again (R196)
  deriving DecidableEq, Repr

/-! ### Almanacs (R157 to R172) -/

inductive GuardSt where
  | pending | armed | late | failed (st : Status)
  deriving DecidableEq, Repr

inductive JobState where
  | loaded | running | done
  deriving DecidableEq, Repr

/-- One Almanac entry (R158). -/
structure AlmEntry where
  type   : BitVec 8
  guard  : BitVec 8
  offset : Nat
  arg    : BitVec 64
  deriving DecidableEq, Repr

structure Almanac where
  slot     : Nat
  job      : BitVec 32
  tenant   : BitVec 12
  format   : Nat
  start    : Nat
  period   : Nat
  iters    : Nat
  slipQ    : Nat
  slipLead : Nat
  slipLimit : Nat
  shiftFva : BitVec 64
  shiftKeyidx : BitVec 16
  shiftKeytag : BitVec 32
  members  : List (BitVec 11)
  descs    : List Bytes
  entries  : List AlmEntry
  digest   : Bytes
  first    : Nat                         -- index of its first entry in the ALM block
  state    : JobState := .loaded
  iter     : Nat := 0
  shift    : Nat := 0
  quanta   : List (Nat × Nat) := []      -- slips not yet effective, by T_EFF: T_EFF and what it adds to the shift
  slipKeys : List (Nat × Nat × Nat) := []  -- iteration, guard, attempt already applied
  guards   : List (Nat × Nat × GuardSt) := []  -- iteration, guard, state
  attempts : List (Nat × Nat × Nat × Nat) := []  -- iteration, entry, next attempt of a CHECK_READY and its time
  fired    : List Nat := []              -- entries that have had their turn in the current iteration
  held     : List (Nat × Nat) := []      -- iteration and entry held on a LATE guard
  deriving DecidableEq, Repr

/-! ### Collectives and the array (R176 to R233) -/

inductive CtxState where
  | free | idle | active | mismatch | aborted
  deriving DecidableEq, Repr

inductive Role where
  | leaf | internal | root | leafRoot
  deriving DecidableEq, Repr

/-- A local member of a leaf context. -/
structure MemberSt where
  port  : Nat                            -- local A-port
  index : Nat                            -- member index
  req   : Option Nat := none             -- number of its descriptor chunk's request, while in custody
  desc  : Bytes := []                    -- its descriptor; empty: none of this instance has arrived
  bad   : Bool := false                  -- its descriptor failed R211 (R212)
  fate  : Option Status := none          -- a result write refused at its own region (R198)
  got   : Nat := 0                       -- results of this instance visible or refused
  handed : Nat := 0                      -- moved chunks handed to its inbound writes (R191)
  deriving DecidableEq, Repr

/-- A child of a node: the node ID of its device and the member indexes it covers. -/
structure Kid where
  node   : Nat
  lo     : Nat
  hi     : Nat
  agreed : Bool := false
  deriving DecidableEq, Repr

/-- One chunk's state in the window (R191). -/
structure Slot where
  chunk  : Nat
  landed : List (Nat × Bytes) := []      -- leaf: member index and contribution in the landing store
  taken  : Nat := 0                      -- leaf: contributions combined (ORDER 1)
  sum    : Option (List (BitVec 32)) := none   -- leaf, ORDER 1: the sum of the batches combined
  part   : Option Bytes := none          -- internal node: the first partial, in PART_TYPE (R214)
  out    : Option Bytes := none          -- output formed, not yet handed on
  held   : Bool := false                 -- it waits in the slot for a credit or a step, and is read again (R191, R232)
  deriving DecidableEq, Repr

/-- One tree node's state on this device. -/
structure Ctx where
  state   : CtxState := .free
  tenant  : BitVec 12 := 0
  plane   : BitVec 3 := 0
  role    : Role := .leaf
  alm     : Option (BitVec 32) := none   -- the Almanac job that took it
  handle  : BitVec 32 := 0
  win64k  : Nat := 0
  celSet  : Option Nat := none           -- Cellar set of its window; none for a packet-buffer window
  members : List MemberSt := []
  kids    : List Kid := []
  parent  : Option Nat := none           -- node ID of the parent's device
  lo      : Nat := 0                     -- first and last member index covered
  hi      : Nat := 0
  ids     : List (BitVec 16) := []       -- endpoints of all members, ascending
  descr   : Bytes := []                  -- the descriptor it was opened with
  ref     : Bytes := []                  -- common bytes of the reference descriptor, from a local member
  digest  : Option (BitVec 64) := none   -- the reference digest
  agreed  : Bool := false                -- every member and child has agreed; COLL_DESC sent
  doneDown : Bool := false               -- COLL_DONE received, or generated at the root
  seq     : BitVec 32 := 0
  freed   : Nat := 0
  limit   : Nat := 0                     -- L granted by a remote parent; 0 stands for the window itself
  outs    : Nat := 0                     -- outputs handed on, or results passed on at an internal node
  slots   : List Slot := []
  late    : Bool := false                -- a step fired from a LATE guard: its members complete with LATE (R168)
  steps   : List (Nat × Nat) := []       -- iteration and step of the COLL_STEP entries that have fallen due
  ran     : Bool := false                -- an instance has run since it was taken: SEQ is its number
  waitKid : List (Nat × BitVec 64 × BitVec 32) := []  -- COLL_DESC of a later SEQ: child LO, digest, SEQ
  status  : Status := .done              -- why it aborted
  waitDesc : List (Nat × Nat) := []      -- port and request of descriptor chunks of a later SEQ, and of the data behind them
  waitData : List (Nat × Nat × Nat × Bool) := []  -- member index, request, chunk, counted as waiting for landing room
  due     : List (Nat × Nat × Nat) := [] -- receiver, chunk key and accesses left of result writes under way
  seen    : List (Nat × Nat) := []       -- member index and chunk accepted
  grants  : List (Nat × Nat) := []       -- receiver index and its L (R193)
  given   : List (Nat × Nat) := []       -- local receiver index and the L last granted
  early   : List (Nat × Nat × BitVec 32) := []  -- COLL_CREDIT of an instance not started here: LO, L, SEQ
  parts   : List (Nat × Nat) := []       -- ORDER 1 GATHER: receiver and source of each chunk visible; PERMUTE: of each receiver
  pieces  : List (Nat × Nat) := []       -- ORDER 1 GATHER: receiver and source of complete pieces, in order
  kept    : List (Nat × Nat × Nat × Bytes) := []  -- receiver, chunk, source and bytes of results before this leaf's step (R200)
  aborts  : List (BitVec 32 × Status) := []  -- SEQ and status of the COLL_ABORTs that went on from here (R199)
  deriving DecidableEq, Repr

/-- A tree open under way (R189). -/
structure TreeOpenSt where
  tenant  : BitVec 12
  handle  : BitVec 32
  port    : Nat
  reqId   : Nat
  desc    : Bytes
  ids     : List (BitVec 16) := []
  wait    : List Nat := []               -- hosting nodes that have not replied
  yes     : List Nat := []               -- nodes that replied yes
  refused : Option Status := none        -- a refusal received
  left    : Nat := 0                     -- reads of the member list not yet answered
  status  : Status := .done              -- the failing status of those answered
  parts   : List (Nat × Nat × Bytes) := []  -- page run, offset and bytes of the member list read so far
  listed  : Bool := false                -- the member list has been read
  deriving DecidableEq, Repr

structure Coll where
  ctxs   : Table Ctx := []
  opens  : List TreeOpenSt := []
  frames : List Frame := []              -- frames of chunks and results still incomplete (R129)
  writes : List (Nat × Nat × Nat × Status) := []  -- context, receiver index, chunk key, status of ended result writes
  deriving DecidableEq, Repr

/-- A loaded transform program (R224 to R226). -/
structure Program where
  tenant   : BitVec 12
  steps    : List (Nat × Nat × BitVec 32 × BitVec 32)  -- OP, MAT, A, B
  matrices : List (List (BitVec 32))
  celSet   : Option Nat
  digest   : Bytes
  deriving DecidableEq, Repr

/-- A chunk set's place in a landing store, granted or waiting (R206). -/
structure Landing where
  group   : Nat
  ctx     : Nat
  chunk   : Nat
  bytes   : Nat
  granted : Bool
  deriving DecidableEq, Repr

structure RdaSt where
  programs : Table (Option Program) := []   -- by index 1 to 255
  landing  : List Landing := []             -- reservation order
  landPeak : Table Nat := []                -- peak KiB per group
  bankUe   : Table Nat := []                -- uncorrectable errors per Cellar bank
  bankOut  : List Nat := []                 -- Cellar banks offline
  inputs   : Nat := 0                       -- element-inputs not yet counted in units of 2^20
  projs    : Nat := 0
  deriving DecidableEq, Repr

/-! ### Tenancy (R309 to R333) -/

inductive SlotState where
  | free | admitting | active | fenced | scrubbing
  deriving DecidableEq, Repr

structure TenSlot where
  state   : SlotState := .free
  tenant  : BitVec 12 := 0
  fifo    : Bool := false
  fpRel   : Bool := false
  stk     : BitVec 16 := 0
  anx     : BitVec 16 := 0
  grp     : BitVec 32 := 0
  cel     : Option (BitVec 4) := none
  eng     : BitVec 16 := 0
  ports   : BitVec 72 := 0
  dirty   : List ScrubUnit := []           -- still to be scrubbed
  failedUnits : BitVec 32 := 0             -- units that failed during the scrub (R329 RELEASED)
  areas   : List (Nat × Nat × Nat) := []   -- shared tenancy: space, offset and length of the regions under scrub (R322)
  relChan : Option Nat := none             -- channel whose TEN_RELEASE ends when the slot is FREE
  deriving DecidableEq, Repr

/-- A RELEASED evidence item (R329). -/
structure Released where
  tenant : BitVec 12
  stk    : BitVec 16
  anx    : BitVec 16
  failed : BitVec 32
  tick   : Tick
  deriving DecidableEq, Repr

structure Tenancy where
  shared   : Bool := false
  slots    : Nat := 0                      -- tenant slots of the Catalogue
  ten      : Table TenSlot := []
  bind     : Table (Option (BitVec 12)) := []  -- endpoint binding by accelerator slot
  clean    : List ScrubUnit := []          -- units clean and held by no slot
  released : Table (Option Released) := []
  keyGen   : Table Nat := []               -- key generation: 0 to 15 groups, 16 to 31 packages, 32 + slot shared key sets
  sysKey   : Nat := 0                      -- system partition key set; 0 destroyed
  idReady  : Bool := false
  debug    : Bool := false
  scopes   : BitVec 32 := 0                -- JTAG scopes open
  challenge : Option Bytes := none
  secretOpen : Bool := true                -- the device secret's read path: open from a device reset until derivation (R319, R368)
  tdmOn    : Bool := false                 -- slot tables written
  deriving DecidableEq, Repr

/-! ### Firmware (R334 to R354) -/

inductive CoreSt where
  | running | inReset | held | switching
  deriving DecidableEq, Repr

/-- A firmware bundle in a flash slot (R340). -/
structure Bundle where
  bytes   : Bytes
  deriving DecidableEq, Repr

/-- One copy of the slot directory (R339). -/
structure Directory where
  seq    : BitVec 32
  active : Bool                            -- false A, true B
  validA : Bool
  validB : Bool
  deriving DecidableEq, Repr

/-- One Ledger entry (R353). -/
structure LedgerEntry where
  tick  : Tick
  cycles : BitVec 64                       -- management-clock cycles since reset, shown while LOCAL
  seq   : BitVec 32
  tp    : BitVec 8
  src   : BitVec 8
  isLocal : Bool
  sev   : BitVec 2
  unit  : BitVec 32
  arg   : BitVec 32
  deriving DecidableEq, Repr

structure Flash where
  readable : Bool := true
  dir0     : Option Directory := none      -- none: bad CRC
  dir1     : Option Directory := none
  slotA    : Option Bytes := none
  slotB    : Option Bytes := none
  cat0     : Option Bytes := none
  cat1     : Option Bytes := none
  object   : Bytes := []                   -- the recovery area: the object received (R344)
  dump     : List LedgerEntry := []        -- and at its end the Ledger ring as last copied (R353)
  deriving DecidableEq, Repr

/-- A recovery session (R344); its object lies in the recovery area. -/
structure Recovery where
  host   : Nat
  kind   : Nat
  total  : Nat
  deriving DecidableEq, Repr

structure Firmware where
  flash    : Flash := {}
  booted   : Bool := false                 -- the ROM has passed a slot
  slotB    : Bool := false                 -- slot that roles 1 to 4 run from
  secB     : Bool := false                 -- slot the security image runs from
  running  : Bytes := []                   -- manifest of the bundle that roles 1 to 4 run from
  secRun   : Bytes := []                   -- manifest of the bundle the security image runs from
  recovery : Bool := false                 -- the ROM is in recovery
  reason   : Nat := 0                      -- 1 both slots failed, 2 flash unreadable
  session  : Option Recovery := none
  recSeq   : BitVec 32 := 0                -- number of the next recovery message sent (R345)
  cores    : Table CoreSt := []
  expiries : Table (List Nat) := []        -- per core the ticks until which its watchdog's expiries count: 10 minutes after each (R337)
  stage    : Nat := 0                      -- MGT_FW_STATUS.STAGE
  actChan  : Option Chan := none           -- channel of the activation under way
  actDone  : Bool := false                 -- FW_ACTIVATE has already ended (deferred stage 4)
  back     : Bool := false                 -- a failed activation's stages are being switched back (R350)
  resetPending : Bool := false
  staging  : Bool := false
  agreed   : Option (BitVec 64) := none    -- agreed feature set; none before NEGOTIATE
  ledger   : List LedgerEntry := []        -- the ring, oldest first
  head     : BitVec 32 := 0
  exported : Nat := 0                      -- entries already sent to the collector
  cycles   : BitVec 64 := 0                -- management-clock cycles at the latest entry (R353)
  tpSec    : Nat := 0                      -- the second whose entries `tpCnt` counts, per trace point (R353)
  tpCnt    : Table Nat := []
  deriving DecidableEq, Repr

/-! ### Power (R357 to R367) -/

structure Power where
  level    : BitVec 2 := 0
  last     : Option Nat := none            -- tick of the latest change of level
  avgW     : BitVec 11 := 0
  tj       : BitVec 10 := 0
  sensor   : BitVec 5 := 0
  capUnmet : Bool := false
  episode  : Bool := false                 -- the present CAP_UNMET is counted (R363)
  belowFloor : Bool := false
  undervolt : Bool := false
  tmLost   : Bool := false
  orphan   : Bool := false                 -- the orphan cap is in force
  orphaned : Bool := false                 -- it has been applied in the present loss of the tray manager (R365)
  boundary : Option Nat := none            -- tick of the latest 1 ms boundary, whose averages PWR_DOM shows (R367)
  capWritten : Bool := false               -- PWR_CAP written since reset (R376)
  coreBrake : Bool := false                -- hardware brake while the power core is out (R337)
  deriving DecidableEq, Repr

/-! ### Bring-up and discovery (R368 to R386) -/

inductive Ready where
  | reset | sprout | config | init | discover | standby | ready | faulted | recovery
  deriving DecidableEq, Repr

/-- What the device holds of another node's advert (R380). -/
structure NodeAdv where
  adv : Advert
  deriving DecidableEq, Repr

structure Fabric where
  state    : Ready := .reset
  joined   : Bool := false                 -- READY has been entered since reset (R384)
  cause    : BitVec 4 := 0
  degraded : Bool := false
  mismatch : Bool := false
  transit  : Bool := false
  domain   : BitVec 32 := 0
  rack     : BitVec 8 := 0
  plane    : BitVec 3 := 0
  nodeV    : Bool := false
  modes    : List (BitVec 2) := [0, 0, 0, 0, 0, 0, 0, 0, 0, 2, 2]   -- cluster modes (R13)
  ordFifo  : Bool := false                 -- ORDERING defaults and entries
  ordFp    : Bool := false
  ordTen   : List (BitVec 12 × Bool × Bool) := []
  cabling  : List (BitVec 64) := []        -- 80 UNIT_IDs, or empty
  collector : Bool := false                -- the MGMT record names a collector
  catDigest : Bytes := []
  catalogue : Bool := false                -- a Catalogue is applied
  stkTrained : Bool := false
  anxTrained : Bool := false
  db       : List Advert := []             -- accepted adverts of other devices, by NODE and UNIT_ID
  advSeq   : BitVec 32 := 0
  settled  : Bool := false
  firstUp  : Bool := false                 -- no device of the plane advertised READY when the plane settled (R384)
  routed   : Bool := false                 -- routes have been computed since the plane settled (R382)
  routes   : List (BitVec 11 × List (List Nat)) := []  -- destination, routes as egress sequences
  deadLinks : List (BitVec 11 × Nat) := []  -- links flooded as failed and not yet recomputed
  deriving DecidableEq, Repr

/-! ### Host interface (R400 to R424) -/

structure Chanl where
  inDma   : Bool := false
  outDma  : Bool := false
  opcode  : BitVec 16 := 0
  inLen   : BitVec 26 := 0
  inAddr  : BitVec 64 := 0
  outAddr : BitVec 64 := 0
  outCap  : BitVec 26 := 0
  outLen  : BitVec 26 := 0
  busy    : Bool := false
  done    : Bool := false
  status  : BitVec 8 := 0
  inBuf   : Table Byte := []
  outBuf  : Table Byte := []
  started : Bool := false                  -- the command has passed its checks and runs
  lost    : Bool := false                  -- its result is lost (R418)
  named   : Bytes := []                    -- first bytes of the running command's input: what it names (R417)
  deriving DecidableEq, Repr

/-- A commit slot (R411). -/
structure CmtSlot where
  pending : Bool := false
  tick    : BitVec 64 := 0
  order   : Nat := 0
  values  : List (Nat × Word) := []
  deriving DecidableEq, Repr

structure IrqVec where
  masked  : Bool := true
  pba     : Bool := false
  holdoff : Bool := false
  rose    : Bool := false
  deriving DecidableEq, Repr

structure Cxl where
  up      : Bool := false
  width   : BitVec 4 := 0
  speed   : BitVec 2 := 0
  ideIo   : Bool := false
  ideMem  : Bool := false
  bme     : Bool := false
  trained : Bool := false                  -- the link has trained since the device reset
  wait    : List Frame := []               -- CXL.mem accesses on their way to MEM over the switching core (R24)
  arrived : List Frame := []               -- those that have come to MEM (R24)
  deriving DecidableEq, Repr

structure HostIf where
  staging  : List (Nat × Word) := []       -- offset and staged word, in staging order
  slots    : Table CmtSlot := []
  handed   : List (Nat × Nat × Nat × Nat) := []  -- committed fields whose block has not reached its boundary: offset, low bit, width, value (R173, R412)
  orders   : Nat := 0
  lastSlot : BitVec 3 := 0
  lastStat : BitVec 8 := 0
  chans    : Table Chanl := []
  vecs     : Table IrqVec := []
  rcAt     : Table Nat := []               -- tick plus 1 of the latest read of a lane's counters, by offset (R3)
  latches  : Table Word := []              -- latched high halves, by offset of the high half
  cxl      : Cxl := {}
  werrOff  : BitVec 26 := 0
  werrSt   : BitVec 8 := 0
  notices  : Nat := 0                      -- notices written since reset
  noticeLog : List (Nat × Nat × Nat × Nat) := []  -- kind, endpoint, plane and tick of the notices sent (R394)
  deriving DecidableEq, Repr

/-! ### Health (R396 to R398) -/

structure Health where
  score : Table Nat := []                  -- by entity, units of 1/256
  level : Table Nat := []                  -- 0 OK, 1 WARN, 2 PREDICT
  tjPeak : Nat := 0                        -- highest junction of the second under way, quarter degrees (R397)
  acc   : Table Nat := []                  -- weighted events of the second under way, units of 1/1,024
  deriving DecidableEq, Repr

/-! ### The whole -/

/-- The state of the block. -/
structure State where
  pending : List Instr := []               -- commands waiting, first in, first out
  out     : List Emit := []                -- what the device has put out, oldest first (the model's record)
  fresh   : Nat := 0                       -- the model's counter of free values drawn
  regs    : Table Word := []               -- stored register words that differ from their reset value, by BAR0 offset
  fuses   : Fuses
  chip    : Chip := {}
  time    : TimeSt := {}
  ports   : Table PortSt := []
  lasers  : Table Laser := []
  att     : Table Session := []
  xlat    : Xlat := {}
  trn     : Transport
  home    : Home := {}
  mov     : Movs := {}
  sw      : Switch := {}
  alm     : List Almanac := []             -- loaded Almanacs, by slot
  coll    : Coll := {}
  arr     : RdaSt := {}
  ten     : Tenancy := {}
  fw      : Firmware := {}
  pwr     : Power := {}
  fab     : Fabric := {}
  hif     : HostIf := {}
  hlth    : Health := {}
  deriving DecidableEq, Repr

/-- The device right after reset: POR_N and SYS_RST_N are low, the clocks stand and the readiness state
is RESET (R368, R383). The IPSN counter is loaded from the TRNG (R140); the serial number is fused. -/
def State.reset : State :=
  { fuses := { serial := Config.serial }
    trn := { ipsn := BitVec.ofNat 32 ((Config.trng 0).toNat / 65536 * 65536) }
    fresh := 1 }

end Sys2Proof.Machine
end

