-- ==== Sys2Proof/Machine/RegMap.lean ====
section
/-!
DEFINITION. The register map of BAR0 (R406): where each block lies, and for every field of the register
tables of spec/ (R56, R80, R103, R124, R147, R175, R204, R235, R236, R259 to R261, R278, R307, R308,
R316, R333, R356, R367, R399, R422 to R424) its bits, access code, reset value, writer and range.
-/

namespace Sys2Proof.Machine
open Sys2Proof

/-- The access codes of R3. -/
inductive Acc where
  | ro | rw | rws | rwl | w1c | wo | rc
  deriving DecidableEq, Repr

/-- Who may write a field (R409): the host, or only the security core or the power core. -/
inductive Who where
  | host | sec | pwr
  deriving DecidableEq, Repr

/-- One field of the register tables: offset in its block, stride and count of its array, lowest bit,
width, access code, reset value, writer, and the range of values a write may give. -/
structure RegField where
  off    : Nat
  stride : Nat
  count  : Nat
  lo     : Nat
  w      : Nat
  acc    : Acc
  rst    : Nat
  who    : Who
  rmin   : Nat
  rmax   : Nat
  deriving DecidableEq, Repr

/-- A field of no array. -/
def fld (off lo w : Nat) (acc : Acc) (rst : Nat := 0) (who : Who := .host) (rmin : Nat := 0)
    (rmax : Nat := 0xFFFFFFFF) : RegField := ⟨off, 0, 1, lo, w, acc, rst, who, rmin, rmax⟩

/-- A field of an array of registers. -/
def fldA (off stride count lo w : Nat) (acc : Acc) (rst : Nat := 0) (who : Who := .host) (rmin : Nat := 0)
    (rmax : Nat := 0xFFFFFFFF) : RegField := ⟨off, stride, count, lo, w, acc, rst, who, rmin, rmax⟩

/-- The field lies in the register at offset `o` of its block. -/
def RegField.at (f : RegField) (o : Nat) : Bool :=
  if f.stride = 0 then o == f.off
  else f.off ≤ o && (o - f.off) % f.stride == 0 && decide ((o - f.off) / f.stride < f.count)

/-- A counter or other read-to-clear field: BAR0 offset, lowest bit, width. -/
structure Cnt where
  off : Nat
  lo  : Nat
  w   : Nat
  deriving DecidableEq, Repr

/-- The blocks of R406. -/
inductive Blk where
  | glb | mbx (c : Nat) | cxl | sec | pwr | ftm | alm | xlt (c : Nat) | epb (p : Nat) | prt (p : Nat)
  | lnk (p k : Nat) | els (c : Nat) | swc | cmb | trn | col | rda | cel | stk | anx | mov | mgt
  | inBuf (c : Nat) | outBuf (c : Nat)
  deriving DecidableEq, Repr

/-- The per-port EPB base of R56. -/
def epbBase (p : Nat) : Nat := 0x01000000 + p / 8 * 0x100000 + 0x80000 + p % 8 * 0x1000
/-- The base of the XLT block of cluster `c` (R406). -/
def xltBase (c : Nat) : Nat := 0x01000000 + c * 0x100000
/-- The base of the PRT registers of port `p` (R307). -/
def prtBase (p : Nat) : Nat := 0x02000000 + p / 8 * 0x100000 + p % 8 * 0x1000
/-- The base of the LNK registers of lane `k` of port `p` (R308). -/
def lnkBase (p k : Nat) : Nat := 0x02000000 + p / 8 * 0x100000 + 0x80000 + p % 8 * 0x1000 + k * 0x40
/-- The base of mailbox channel `c` (R423). -/
def mbxBase (c : Nat) : Nat := 0x10000 + c * 0x3000

/-- The registers of a cluster's laser source modules (R307). -/
def elsBase (c : Nat) : Nat := 0x02000000 + c * 0x100000 + 0x90000
/-- Base of the CXL block (R406). -/
abbrev cxlBase : Nat := 0x0001C000
/-- Base of the SEC block (R406). -/
abbrev secBase : Nat := 0x00020000
/-- Base of the PWR block (R406). -/
abbrev pwrBase : Nat := 0x00030000
/-- Base of the FTM block (R406). -/
abbrev ftmBase : Nat := 0x00040000
/-- Base of the SWC block (R406). -/
abbrev swcBase : Nat := 0x03000000
/-- Base of the CMB block (R406). -/
abbrev cmbBase : Nat := 0x03080000
/-- Base of the TRN block (R406). -/
abbrev trnBase : Nat := 0x03100000
/-- Base of the COL block (R406). -/
abbrev colBase : Nat := 0x03200000
/-- Base of the RDA block (R406). -/
abbrev rdaBase : Nat := 0x03300000
/-- Base of the CEL block (R406). -/
abbrev celBase : Nat := 0x03400000
/-- Base of the STK block (R406). -/
abbrev stkBase : Nat := 0x03500000
/-- Base of the ANX block (R406). -/
abbrev anxBase : Nat := 0x03600000
/-- Base of the MOV block (R406). -/
abbrev movBase : Nat := 0x03700000
/-- Base of the MGT block (R406). -/
abbrev mgtBase : Nat := 0x03800000

/-- The fields of the EPB registers. -/
def epbFields : List RegField := [
  fld 0x0 0 1 .rw 0x1,  -- EPB_ATT_CTRL.EN
  fld 0x0 4 1 .rws 0x1,  -- EPB_ATT_CTRL.ALLOW_1_0
  fld 0x0 5 1 .rws 0x1,  -- EPB_ATT_CTRL.USE_DELEG
  fld 0x0 6 1 .rws 0x1,  -- EPB_ATT_CTRL.USE_ACQ
  fld 0x0 16 5 .rwl 0x4 .host 0 32,  -- EPB_ATT_CTRL.RESEND_US
  fld 0x4 0 3 .ro,  -- EPB_ATT_STATUS.STATE
  fld 0x4 3 1 .ro,  -- EPB_ATT_STATUS.REV
  fld 0x4 4 1 .ro,  -- EPB_ATT_STATUS.DELEG
  fld 0x4 5 1 .ro,  -- EPB_ATT_STATUS.ACQ
  fld 0x4 6 1 .ro,  -- EPB_ATT_STATUS.ATOM128
  fld 0x8 0 16 .ro,  -- EPB_ATT_PEER.CAPS
  fld 0x8 16 8 .ro,  -- EPB_ATT_PEER.MINOR
  fld 0x8 24 8 .ro,  -- EPB_ATT_PEER.MAJOR
  fld 0xC 0 16 .rws 0x1000 .host 256 4096,  -- EPB_ATT_GRANT.REQ
  fld 0xC 16 16 .rws 0x400 .host 256 4096,  -- EPB_ATT_GRANT.INR
  fld 0x10 0 16 .ro,  -- EPB_ATT_PEERCRD.RSP
  fld 0x10 16 16 .ro,  -- EPB_ATT_PEERCRD.INB
  fld 0x14 0 1 .w1c,  -- EPB_ATT_EVENTS.NAK_RX
  fld 0x14 1 1 .w1c,  -- EPB_ATT_EVENTS.NAK_TX
  fld 0x14 2 1 .w1c,  -- EPB_ATT_EVENTS.TIMEOUT
  fld 0x14 3 1 .w1c,  -- EPB_ATT_EVENTS.VERSION_FAIL
  fld 0x14 4 1 .w1c,  -- EPB_ATT_EVENTS.CREDIT_VIOL
  fld 0x14 5 1 .w1c,  -- EPB_ATT_EVENTS.MALFORMED_RX
  fld 0x14 6 1 .w1c,  -- EPB_ATT_EVENTS.STRAY_DONE
  fld 0x18 0 32 .rc,  -- EPB.NAK_TX_CNT
  fld 0x1C 0 32 .rc,  -- EPB.NAK_RX_CNT
  fld 0x20 0 32 .rc,  -- EPB.RESEND_CNT
  fld 0x24 0 14 .ro,  -- EPB.OUT_REQ
  fld 0x24 16 14 .ro,  -- EPB.OUT_INB
  fld 0x40 0 12 .rwl 0x0 .sec,  -- EPB_XLT_PORT.TENANT
  fld 0x40 12 1 .rwl 0x0 .sec,  -- EPB_XLT_PORT.FIFO
  fld 0x40 13 1 .rwl 0x0 .sec,  -- EPB_XLT_PORT.BOUND
  fld 0x44 0 16 .rc,  -- EPB_XLT_DENY.PLANE_CNT
  fld 0x44 16 16 .rc,  -- EPB_XLT_DENY.KEY_CNT
  fld 0x60 0 14 .ro,  -- EPB_ORD_STATUS.MARKS_OPEN
  fld 0x60 16 14 .ro,  -- EPB_ORD_STATUS.FLAGS_HELD
  fld 0x60 30 1 .ro,  -- EPB_ORD_STATUS.FIFO_MODE
  fld 0x64 0 16 .rc,  -- EPB_ORD_COUNT.FLAG_ABORT_CNT
  fld 0x64 16 16 .rc,  -- EPB_ORD_COUNT.DUP_CNT
  fld 0x68 0 24 .rc,  -- EPB_ORD_MAXWAIT.MARK_NS
  fld 0x80 0 9 .ro,  -- EPB_SER_STATUS.HOT
  fld 0x80 16 12 .ro,  -- EPB_SER_STATUS.SLOTS
  fld 0x84 0 16 .rc,  -- EPB_SER_COUNT.LOCKED_CNT
  fld 0x84 16 16 .rc,  -- EPB_SER_COUNT.DELEG_CNT
  fld 0x88 0 24 .rc,  -- EPB_SER_MAXWAIT.WAIT
  fld 0x8C 0 12 .rc,  -- EPB_HOME_COUNT.COMMIT_LOST_CNT
  fld 0x8C 12 12 .rc]  -- EPB_HOME_COUNT.DERR_CNT

/-- The fields of the XLT registers. -/
def xltFields : List RegField := [
  fld 0x0 0 1 .rws 0x1,  -- XLT_CTRL.EN
  fld 0x10 0 8 .rwl,  -- XLT_PLANE_OOS.OOS
  fldA 0x100 0x8 64 0 1 .rwl,  -- XLT_TBL_n.V
  fldA 0x100 0x8 64 4 12 .rwl,  -- XLT_TBL_n.TENANT
  fldA 0x100 0x8 64 16 5 .rwl 0xA .host 10 23,  -- XLT_TBL_n.LOG2_BKT
  fldA 0x104 0x8 64 0 32 .rwl,  -- XLT_TBL_n.BASE
  fld 0x40 0 32 .rc,  -- XLT.HIT_CNT
  fld 0x44 0 32 .rc,  -- XLT.MISS_CNT
  fld 0x48 0 32 .rc,  -- XLT.UNMAPPED_CNT
  fld 0x4C 0 1 .ro]  -- XLT.EPOCH

/-- The fields of the CMB registers. -/
def cmbFields : List RegField := [
  fld 0x0 0 1 .rws 0x1,  -- SWC_CMB_CTRL.RD_EN
  fld 0x0 1 1 .rws 0x1,  -- SWC_CMB_CTRL.FADD_EN
  fld 0x0 8 8 .rwl,  -- SWC_CMB_CTRL.WAIT
  fld 0x4 0 14 .ro,  -- SWC_CMB_STATUS.IN_USE
  fld 0x4 16 14 .rc,  -- SWC_CMB_STATUS.PEAK
  fld 0x10 0 32 .rc,  -- CMB.RD_MERGED_CNT
  fld 0x14 0 32 .rc,  -- CMB.FADD_MERGED_CNT
  fld 0x18 0 32 .rc,  -- CMB.BYPASS_CNT
  fld 0x1C 0 32 .rc,  -- CMB.FANIN_FULL_CNT
  fld 0x20 0 9 .ro,  -- CMB.MEM_HOT
  fld 0x20 16 14 .ro,  -- CMB.MEM_SLOTS
  fldA 0x100 0x4 64 0 1 .rwl 0x0 .sec,  -- SWC_CMB_TEN_n.V
  fldA 0x100 0x4 64 1 1 .rwl 0x0 .sec,  -- SWC_CMB_TEN_n.FP_RELAXED
  fldA 0x100 0x4 64 4 12 .rwl 0x0 .sec,  -- SWC_CMB_TEN_n.TENANT
  fldA 0x100 0x4 64 16 14 .rwl 0x0 .sec]  -- SWC_CMB_TEN_n.QUOTA

/-- The fields of the TRN registers. -/
def trnFields : List RegField := [
  fld 0x0 0 10 .rwl 0x10 .host 2 1000,  -- TRN_CTRL.RTO_US
  fld 0x0 16 6 .rws 0x10 .host 4 63,  -- TRN_CTRL.TTL
  fld 0x0 24 7 .rws 0x64 .host 10 100,  -- TRN_CTRL.RESID_US
  fld 0x4 0 11 .rwl 0x80 .host 1 1024,  -- TRN_CC.CW_INIT
  fld 0x4 16 11 .rwl 0x400 .host 1 1024,  -- TRN_CC.CW_MAX
  fld 0x4 28 4 .rwl 0x4 .host 1 8,  -- TRN_CC.G_SHIFT
  fld 0x8 0 4 .rws 0x4 .host 1 14,  -- TRN_RPL_CFG.PORT_CAP
  fld 0xC 0 19 .ro,  -- TRN_STATUS.SEND_OPEN
  fld 0x30 0 19 .ro,  -- TRN_RSTATUS.RECV_OPEN
  fld 0x10 0 32 .rc,  -- TRN.TRN_HCRC_DROP_CNT
  fld 0x14 0 32 .rc,  -- TRN.TRN_CRC_NAK_CNT
  fld 0x18 0 32 .rc,  -- TRN.TRN_RETX_CNT
  fld 0x1C 0 32 .rc,  -- TRN.TRN_ALT_CNT
  fld 0x20 0 32 .rc,  -- TRN.TRN_DUP_CNT
  fld 0x24 0 32 .rc,  -- TRN.TRN_UNREACH_CNT
  fld 0x28 0 32 .rc,  -- TRN.TRN_LIFE_DROP_CNT
  fld 0x2C 0 32 .rc,  -- TRN.TRN_CE_CNT
  fldA 0x100 0x4 640 0 32 .ro,  -- TRN_QUAR_n.Q
  fldA 0x1000 0x4 9 0 15 .ro,  -- TRN_RPL_c.USED_KIB
  fldA 0x1000 0x4 9 16 15 .rc]  -- TRN_RPL_c.PEAK_KIB

/-- The fields of the FTM registers. -/
def ftmFields : List RegField := [
  fld 0x0 0 1 .rws 0x1,  -- FTM_CTRL.EN
  fld 0x0 1 1 .rws,  -- FTM_CTRL.PPS_IN_EN
  fld 0x0 2 1 .rws 0x1,  -- FTM_CTRL.PPS_OUT_EN
  fld 0x8 0 32 .ro,  -- FTM_TIME_LO.TIME_LO
  fld 0xC 0 32 .ro,  -- FTM_TIME_LO.TIME_HI
  fld 0x10 0 3 .ro,  -- FTM_STATUS.STATE
  fld 0x10 3 1 .ro,  -- FTM_STATUS.GM
  fld 0x10 4 7 .ro 0x7E,  -- FTM_STATUS.PARENT
  fld 0x10 11 5 .ro,  -- FTM_STATUS.DEPTH
  fld 0x10 16 11 .ro,  -- FTM_STATUS.GM_NODE
  fld 0x14 0 16 .ro 0xFFFF,  -- FTM_ERR.ERR_EST
  fld 0x14 16 16 .ro,  -- FTM_ERR.OFFSET
  fld 0x18 0 20 .ro,  -- FTM_CHAIN.LOOP_PS
  fld 0x18 20 1 .ro,  -- FTM_CHAIN.BROKEN
  fldA 0x20 0x4 8 0 16 .rws,  -- FTM_SEG_n.SEG_PS
  fld 0x40 0 11 .rws,  -- FTM_GM_LIST.GM0
  fld 0x40 16 11 .rws 0x7FF,  -- FTM_GM_LIST.GM1
  fld 0x44 0 11 .rws 0x7FF,  -- FTM_GM_LIST.GM2
  fld 0x44 16 11 .rws 0x7FF,  -- FTM_GM_LIST.GM3
  fld 0x50 0 1 .w1c,  -- FTM_EVENTS.LOCK_LOST
  fld 0x50 1 1 .w1c,  -- FTM_EVENTS.GM_CHANGE
  fld 0x50 2 1 .w1c,  -- FTM_EVENTS.STEP_REFUSED
  fld 0x50 3 1 .w1c,  -- FTM_EVENTS.PPS_MISS
  fld 0x50 4 1 .w1c,  -- FTM_EVENTS.CHAIN_BREAK
  fld 0x50 5 1 .w1c,  -- FTM_EVENTS.SLIP
  fld 0x50 6 1 .w1c,  -- FTM_EVENTS.LATE
  fld 0x50 7 1 .w1c,  -- FTM_EVENTS.DESYNC
  fld 0x60 0 32 .rc,  -- FTM.SLIP_TX_CNT
  fld 0x64 0 32 .rc,  -- FTM.SLIP_RX_CNT
  fld 0x68 0 32 .rc,  -- FTM.LATE_CNT
  fld 0x6C 0 32 .rc,  -- FTM.FTM_DEMOTE_CNT
  fld 0x70 0 17 .ro,  -- FTM_ALM_USE.ENT_USED
  fld 0x70 17 13 .ro,  -- FTM_ALM_USE.DESC_USED
  fldA 0x400 0x20 64 0 32 .ro,  -- FTM_JOB_n.JOB_ID
  fldA 0x404 0x20 64 0 12 .ro,  -- FTM_JOB_n.TENANT
  fldA 0x404 0x20 64 12 3 .ro,  -- FTM_JOB_n.STATE
  fldA 0x408 0x20 64 0 32 .ro,  -- FTM_JOB_n.ITER
  fldA 0x40C 0x20 64 0 32 .ro,  -- FTM_JOB_n.SHIFT_LO
  fldA 0x410 0x20 64 0 32 .ro,  -- FTM_JOB_n.SHIFT_HI
  fldA 0x414 0x20 64 0 16 .rc,  -- FTM_JOB_n.SLIPS
  fldA 0x414 0x20 64 16 16 .rc,  -- FTM_JOB_n.LATES
  fldA 0x418 0x20 64 0 17 .ro,  -- FTM_JOB_n.FIRST
  fldA 0x41C 0x20 64 0 17 .ro]  -- FTM_JOB_n.COUNT

/-- The fields of the COL registers. -/
def colFields : List RegField := [
  fld 0x0 0 1 .rws 0x1,  -- COL_CTRL.EN
  fld 0x0 8 16 .rwl 0x3E8 .host 1 60000,  -- COL_CTRL.IDLE_MS
  fld 0x4 0 13 .ro,  -- COL_STATUS.CTX_USED
  fld 0x4 16 13 .ro,  -- COL_STATUS.CELLAR_USED
  fld 0x8 0 1 .w1c,  -- COL_EVENTS.MISMATCH
  fld 0x8 1 1 .w1c,  -- COL_EVENTS.ABORT
  fld 0x8 2 1 .w1c,  -- COL_EVENTS.OPEN_FAIL
  fld 0x8 3 1 .w1c,  -- COL_EVENTS.IDLE_ABORT
  fld 0x10 0 32 .rc,  -- COL.COL_OPEN_CNT
  fld 0x14 0 32 .rc,  -- COL.COL_NOCTX_CNT
  fld 0x18 0 32 .rc,  -- COL.COL_NOCELLAR_CNT
  fld 0x1C 0 32 .rc,  -- COL.COL_MISMATCH_CNT
  fld 0x20 0 32 .rc,  -- COL.COL_ABORT_CNT
  fld 0x24 0 32 .rc,  -- COL.COL_INST_CNT
  fld 0x28 0 32 .rc,  -- COL.COL_SKIP_CNT
  fld 0x40 0 12 .rw,  -- COL_CTX_SEL.CTX
  fld 0x44 0 3 .ro,  -- COL_CTX_INFO0.STATE
  fld 0x44 4 12 .ro,  -- COL_CTX_INFO0.TENANT
  fld 0x44 16 3 .ro,  -- COL_CTX_INFO0.PLANE
  fld 0x44 19 2 .ro,  -- COL_CTX_INFO0.ROLE
  fld 0x44 21 1 .ro,  -- COL_CTX_INFO0.ALM
  fld 0x48 0 32 .ro,  -- COL_CTX_INFO1.HANDLE
  fld 0x4C 0 9 .ro,  -- COL_CTX_INFO1.WIN_64K
  fld 0x4C 16 7 .ro,  -- COL_CTX_INFO1.LOCAL
  fld 0x50 0 32 .ro,  -- COL_CTX_INFO1.SEQ
  fld 0x54 0 32 .ro,  -- COL_CTX_INFO1.FREED
  fldA 0x100 0x4 64 0 1 .rwl 0x0 .sec,  -- COL_TEN_n.V
  fldA 0x100 0x4 64 4 12 .rwl 0x0 .sec,  -- COL_TEN_n.TENANT
  fldA 0x100 0x4 64 16 13 .rwl 0x0 .sec]  -- COL_TEN_n.QUOTA

/-- The fields of the RDA registers. -/
def rdaFields : List RegField := [
  fld 0x0 0 1 .rws 0x1,  -- RDA_CTRL.EN
  fld 0x4 0 2 .ro,  -- RDA_STATUS.CLK
  fld 0x8 0 32 .ro 0xFFFFFFFF,  -- RDA_GRP_OK.OK
  fld 0xC 0 1 .w1c,  -- RDA_EVENTS.DERR
  fld 0xC 1 1 .w1c,  -- RDA_EVENTS.LAND_WAIT
  fld 0xC 2 1 .w1c,  -- RDA_EVENTS.CLK_CHANGE
  fld 0x10 0 32 .rc,  -- RDA.RDA_INPUT_CNT
  fld 0x14 0 32 .rc,  -- RDA.RDA_PROJ_CNT
  fld 0x18 0 32 .rc,  -- RDA.RDA_LAND_WAIT_CNT
  fld 0x1C 0 32 .rc,  -- RDA.RDA_SAT_CNT
  fld 0x20 0 32 .rc,  -- RDA.RDA_NAN_CNT
  fld 0x24 0 32 .rc,  -- RDA.RDA_DERR_CNT
  fld 0x40 0 8 .rw 0x1,  -- RDA_PROG_SEL.INDEX
  fld 0x44 0 1 .ro,  -- RDA_PROG_INFO.V
  fld 0x44 4 12 .ro,  -- RDA_PROG_INFO.TENANT
  fld 0x44 16 5 .ro,  -- RDA_PROG_INFO.STEPS
  fld 0x44 21 3 .ro,  -- RDA_PROG_INFO.MATRICES
  fld 0x44 24 6 .ro,  -- RDA_PROG_INFO.CELSET
  fld 0x48 0 13 .ro,  -- RDA_PROG_REFS.REFS
  fldA 0x50 0x4 12 0 32 .ro,  -- RDA_PROG_DIG_k.DIGEST
  fldA 0x100 0x4 32 0 1 .rwl 0x0 .sec,  -- RDA_GRP_n.V
  fldA 0x100 0x4 32 4 12 .rwl 0x0 .sec,  -- RDA_GRP_n.TENANT
  fldA 0x200 0x4 32 0 10 .ro,  -- RDA_LAND_n.USED_KIB
  fldA 0x200 0x4 32 16 10 .rc]  -- RDA_LAND_n.PEAK_KIB

/-- The fields of the CEL registers. -/
def celFields : List RegField := [
  fld 0x0 0 1 .rws 0x1,  -- CEL_CTRL.EN
  fld 0x0 1 1 .rws 0x1,  -- CEL_CTRL.PATROL
  fld 0x4 0 13 .ro 0x1000,  -- CEL_STATUS.FREE_64K
  fld 0x4 16 7 .ro,  -- CEL_STATUS.OFFLINE
  fld 0x8 0 1 .w1c,  -- CEL_EVENTS.UE
  fld 0x8 1 1 .w1c,  -- CEL_EVENTS.BANK_OFFLINE
  fldA 0x100 0x4 16 0 1 .rwl 0x0 .sec,  -- CEL_SET_n.V
  fldA 0x100 0x4 16 4 12 .rwl 0x0 .sec,  -- CEL_SET_n.TENANT
  fldA 0x100 0x4 16 16 9 .ro 0x100,  -- CEL_SET_n.FREE_64K
  fldA 0x200 0x4 64 0 16 .rc,  -- CEL_BANK_n.CE_CNT
  fldA 0x200 0x4 64 16 8 .rc,  -- CEL_BANK_n.UE_CNT
  fldA 0x200 0x4 64 24 1 .ro]  -- CEL_BANK_n.OFFLINE

/-- The fields of the STK registers. -/
def stkFields : List RegField := [
  fld 0x0 0 1 .rws 0x1,  -- STK_CTRL.EN
  fld 0x0 1 1 .rws 0x1,  -- STK_CTRL.PATROL
  fldA 0x100 0x4 16 0 1 .rwl 0x0 .sec,  -- STK_GRP_n.V
  fldA 0x100 0x4 16 4 12 .rwl 0x0 .sec,  -- STK_GRP_n.TENANT
  fldA 0x100 0x4 16 16 4 .rws 0x0 .sec,  -- STK_GRP_n.SET_BASE
  fldA 0x100 0x4 16 20 3 .rws 0x0 .sec 0 4,  -- STK_GRP_n.SET_LOG2
  fldA 0x200 0x4 128 0 16 .rc,  -- STK_PC_n.CE_CNT
  fldA 0x200 0x4 128 16 8 .rc,  -- STK_PC_n.UE_CNT
  fldA 0x200 0x4 128 24 1 .ro,  -- STK_PC_n.OFFLINE
  fldA 0x400 0x10 16 0 1 .rwl 0x0 .sec,  -- STK_WIN_n.V
  fldA 0x400 0x10 16 1 1 .rwl 0x0 .sec,  -- STK_WIN_n.SPACE
  fldA 0x400 0x10 16 4 12 .rwl 0x0 .sec,  -- STK_WIN_n.TENANT
  fldA 0x400 0x10 16 16 16 .rwl 0x0 .sec,  -- STK_WIN_n.KEYIDX
  fldA 0x404 0x10 16 0 32 .rwl 0x0 .sec,  -- STK_WIN_n.DPA_2M
  fldA 0x408 0x10 16 0 32 .rwl 0x0 .sec,  -- STK_WIN_n.OFF_2M
  fldA 0x40C 0x10 16 0 32 .rwl 0x0 .sec,  -- STK_WIN_n.SIZE_2M
  fld 0x10 0 32 .rc]  -- STK_WIN_DENY_CNT.DENY_CNT

/-- The fields of the ANX registers. -/
def anxFields : List RegField := [
  fld 0x0 0 1 .rws 0x1,  -- ANX_CTRL.EN
  fld 0x0 1 1 .rws 0x1,  -- ANX_CTRL.PATROL
  fldA 0x100 0x4 16 0 1 .rwl 0x0 .sec,  -- ANX_PKG_n.V
  fldA 0x100 0x4 16 4 12 .rwl 0x0 .sec,  -- ANX_PKG_n.TENANT
  fldA 0x100 0x4 16 16 4 .rws 0x0 .sec,  -- ANX_PKG_n.SET_BASE
  fldA 0x100 0x4 16 20 3 .rws 0x0 .sec 0 4,  -- ANX_PKG_n.SET_LOG2
  fldA 0x200 0x4 16 0 16 .rc,  -- ANX_CH_n.CE_CNT
  fldA 0x200 0x4 16 16 8 .rc,  -- ANX_CH_n.UE_CNT
  fldA 0x200 0x4 16 24 1 .ro]  -- ANX_CH_n.OFFLINE

/-- The fields of the MOV registers. -/
def movFields : List RegField := [
  fld 0x0 0 1 .rws 0x1,  -- MOV_CTRL.EN
  fld 0x4 0 16 .ro,  -- MOV_STATUS.BUSY
  fld 0x4 16 7 .ro,  -- MOV_STATUS.FAULTS
  fld 0x8 0 1 .w1c,  -- MOV_EVENTS.FAULT
  fld 0x8 1 1 .w1c,  -- MOV_EVENTS.FAULT_EXPIRED
  fld 0x8 2 1 .w1c,  -- MOV_EVENTS.SEALED
  fld 0x10 0 32 .rc,  -- MOV.MOV_DONE_CNT
  fld 0x14 0 32 .rc,  -- MOV.MOV_FAIL_CNT
  fld 0x18 0 32 .rc,  -- MOV.MOV_HELD_CNT
  fld 0x1C 0 32 .rc,  -- MOV.MOV_FAULT_FULL_CNT
  fldA 0x100 0x4 16 0 1 .rwl 0x0 .sec,  -- MOV_ENG_n.V
  fldA 0x100 0x4 16 4 12 .rwl 0x0 .sec,  -- MOV_ENG_n.TENANT
  fldA 0x200 0x10 64 0 1 .ro,  -- MOV_FAULT_n.V
  fldA 0x200 0x10 64 1 1 .ro,  -- MOV_FAULT_n.F
  fldA 0x200 0x10 64 4 12 .ro,  -- MOV_FAULT_n.TENANT
  fldA 0x200 0x10 64 16 15 .ro,  -- MOV_FAULT_n.SEL
  fldA 0x204 0x10 64 0 27 .ro,  -- MOV_FAULT_n.VPN
  fldA 0x208 0x10 64 0 5 .ro,  -- MOV_FAULT_n.PARKED
  fldA 0x20C 0x10 64 0 32 .ro,  -- MOV_FAULT_n.AGE_US
  fldA 0x800 0x40 64 0 2 .ro,  -- MOV_MEAS_n.STATE
  fldA 0x800 0x40 64 16 16 .ro,  -- MOV_MEAS_n.KEYIDX
  fldA 0x804 0x40 64 0 32 .ro,  -- MOV_MEAS_n.PTR_4K
  fldA 0x808 0x40 64 0 32 .ro,  -- MOV_MEAS_n.DIGEST
  fldA 0x80C 0x40 64 0 32 .ro,  -- MOV_MEAS_n.DIGEST
  fldA 0x810 0x40 64 0 32 .ro,  -- MOV_MEAS_n.DIGEST
  fldA 0x814 0x40 64 0 32 .ro,  -- MOV_MEAS_n.DIGEST
  fldA 0x818 0x40 64 0 32 .ro,  -- MOV_MEAS_n.DIGEST
  fldA 0x81C 0x40 64 0 32 .ro,  -- MOV_MEAS_n.DIGEST
  fldA 0x820 0x40 64 0 32 .ro,  -- MOV_MEAS_n.DIGEST
  fldA 0x824 0x40 64 0 32 .ro,  -- MOV_MEAS_n.DIGEST
  fldA 0x828 0x40 64 0 32 .ro,  -- MOV_MEAS_n.DIGEST
  fldA 0x82C 0x40 64 0 32 .ro,  -- MOV_MEAS_n.DIGEST
  fldA 0x830 0x40 64 0 32 .ro,  -- MOV_MEAS_n.DIGEST
  fldA 0x834 0x40 64 0 32 .ro]  -- MOV_MEAS_n.DIGEST

/-- The fields of the SWC registers. -/
def swcFields : List RegField := [
  fld 0x0 0 1 .rws 0x1,  -- SWC_CTRL.EN
  fld 0x0 1 1 .rws 0x1,  -- SWC_CTRL.CUT
  fld 0x4 0 16 .rws 0x400 .host 0 16384,  -- SWC_BUF_CFG.MIN
  fld 0x4 16 3 .rws 0x1 .host 0 4,  -- SWC_BUF_CFG.ALPHA_SHIFT
  fld 0x4 19 5 .rws 0x1F,  -- SWC_BUF_CFG.TRANSIT_Q
  fld 0x4 24 4 .rws 0x4 .host 1 15,  -- SWC_BUF_CFG.TRANSIT_W
  fld 0x8 0 20 .ro,  -- SWC_STATUS.USED
  fld 0xC 0 1 .w1c,  -- SWC_EVENTS.ECC_DROP
  fld 0xC 1 1 .w1c,  -- SWC_EVENTS.FULL_DROP
  fld 0xC 2 1 .w1c,  -- SWC_EVENTS.MIR_DROP
  fld 0xC 3 1 .w1c,  -- SWC_EVENTS.NOSLOT_DROP
  fld 0x10 0 32 .rc,  -- SWC.SWC_FULL_DROP_CNT
  fld 0x14 0 32 .rc,  -- SWC.SWC_ECC_DROP_CNT
  fld 0x18 0 32 .rc,  -- SWC.SWC_MARK_CNT
  fld 0x1C 0 32 .rc,  -- SWC.SWC_MIR_DROP_CNT
  fld 0x20 0 32 .rc,  -- SWC.SWC_REPL_CNT
  fld 0x24 0 32 .rc,  -- SWC.SWC_NOSLOT_DROP_CNT
  fld 0x40 0 7 .rw 0x0 .host 0 89,  -- SWC_Q_SEL.PORT
  fld 0x40 8 5 .rw,  -- SWC_Q_SEL.QUEUE
  fld 0x44 0 22 .ro,  -- SWC_Q_SEL.OCC
  fld 0x48 0 22 .rc,  -- SWC_Q_SEL.PEAK
  fldA 0x100 0x4 64 0 1 .rwl 0x0 .sec,  -- SWC_TEN_n.V
  fldA 0x100 0x4 64 4 12 .rwl 0x0 .sec,  -- SWC_TEN_n.TENANT
  fldA 0x100 0x4 64 16 5 .rwl 0x0 .sec,  -- SWC_TEN_n.QUEUE
  fldA 0x100 0x4 64 21 4 .rwl 0x4 .sec,  -- SWC_TEN_n.WEIGHT
  fldA 0x400 0x8 90 0 10 .rwl 0x40 .host 1 1023,  -- SWC_PORT_n.QTH
  fldA 0x400 0x8 90 16 1 .ro,  -- SWC_PORT_n.TDM
  fldA 0x400 0x8 90 17 1 .ro,  -- SWC_PORT_n.ANALYSIS
  fldA 0x404 0x8 90 0 16 .rc,  -- SWC_PORT_n.MARK_CNT
  fldA 0x404 0x8 90 16 16 .rc,  -- SWC_PORT_n.DROP_CNT
  fldA 0x1000 0x4 176 0 8 .rwl 0x40 .sec,  -- SWC_TDM_c.SLOT
  fldA 0x1000 0x4 176 8 8 .rwl 0x40 .sec,  -- SWC_TDM_c.SLOT
  fldA 0x1000 0x4 176 16 8 .rwl 0x40 .sec,  -- SWC_TDM_c.SLOT
  fldA 0x1000 0x4 176 24 8 .rwl 0x40 .sec,  -- SWC_TDM_c.SLOT
  fldA 0x2000 0x20 8 0 1 .rwl 0x0 .sec,  -- SWC_MIR_n.V
  fldA 0x2000 0x20 8 1 1 .rwl 0x0 .sec,  -- SWC_MIR_n.DEST
  fldA 0x2000 0x20 8 2 2 .rwl 0x1 .sec,  -- SWC_MIR_n.DIR
  fldA 0x2000 0x20 8 4 3 .rwl 0x4 .sec,  -- SWC_MIR_n.CLASS
  fldA 0x2000 0x20 8 7 1 .rwl 0x0 .sec,  -- SWC_MIR_n.ALL_TEN
  fldA 0x2000 0x20 8 8 12 .rwl 0x0 .sec,  -- SWC_MIR_n.TENANT
  fldA 0x2000 0x20 8 20 7 .rwl 0x0 .sec,  -- SWC_MIR_n.PORT
  fldA 0x2000 0x20 8 27 1 .rwl 0x0 .sec,  -- SWC_MIR_n.CLUSTER
  fldA 0x2000 0x20 8 28 2 .rwl 0x0 .sec,  -- SWC_MIR_n.SNAP
  fldA 0x2004 0x20 8 0 16 .rwl 0x0 .sec,  -- SWC_MIR_n.RATE
  fldA 0x2004 0x20 8 16 16 .rwl 0x0 .sec,  -- SWC_MIR_n.KEYIDX
  fldA 0x2008 0x20 8 0 7 .rwl 0x0 .sec,  -- SWC_MIR_n.APORT
  fldA 0x200C 0x20 8 0 32 .ro,  -- SWC_MIR_n.WPTR
  fldA 0x2010 0x20 8 0 32 .rc]  -- SWC_MIR_n.REC_CNT

/-- The fields of the PRT registers. -/
def prtFields : List RegField := [
  fld 0x0 0 1 .rw 0x1,  -- PRT_CTRL.EN
  fld 0x0 1 1 .rws 0x1,  -- PRT_CTRL.RATE_MAX
  fld 0x0 2 1 .rws 0x1,  -- PRT_CTRL.ALLOW_FALLBACK
  fld 0x0 3 1 .rws,  -- PRT_CTRL.RETIMER
  fld 0x0 4 2 .rws 0x0 .host 0 2,  -- PRT_CTRL.ENC_POL
  fld 0x0 6 2 .rws 0x1 .host 1 3,  -- PRT_CTRL.MIN_WIDTH
  fld 0x0 8 1 .rwl 0x1,  -- PRT_CTRL.AUTO_WIDEN
  fld 0x0 9 2 .rwl 0x0 .pwr 0 2,  -- PRT_CTRL.WIDTH_CAP
  fld 0x4 0 4 .ro,  -- PRT_STATUS.STATE
  fld 0x4 4 2 .ro 0x3,  -- PRT_STATUS.WIDTH
  fld 0x4 6 1 .ro,  -- PRT_STATUS.RATE
  fld 0x4 7 1 .ro,  -- PRT_STATUS.TREV
  fld 0x4 8 1 .ro,  -- PRT_STATUS.ENC
  fld 0x4 9 1 .ro,  -- PRT_STATUS.SPARE_USED
  fld 0x8 0 11 .ro,  -- PRT_PEER.NODE
  fld 0x8 11 1 .ro,  -- PRT_PEER.NODE_V
  fld 0x8 16 7 .ro,  -- PRT_PEER.PORT
  fld 0x8 24 3 .ro,  -- PRT_PEER.ROLE
  fld 0x8 27 2 .ro,  -- PRT_PEER.MODE
  fld 0xC 0 32 .ro,  -- PRT_PEER.UNIT_LO
  fld 0x10 0 32 .ro,  -- PRT_PEER.UNIT_HI
  fld 0x14 0 9 .ro,  -- PRT_LANES.ACTIVE
  fld 0x14 16 9 .ro,  -- PRT_LANES.LOCKED
  fld 0x18 0 1 .w1c,  -- PRT_EVENTS.LINK_DOWN
  fld 0x18 1 1 .w1c,  -- PRT_EVENTS.RECOVER
  fld 0x18 2 1 .w1c,  -- PRT_EVENTS.SPARE
  fld 0x18 3 1 .w1c,  -- PRT_EVENTS.WIDTH
  fld 0x18 4 1 .w1c,  -- PRT_EVENTS.FALLBACK
  fld 0x18 5 1 .w1c,  -- PRT_EVENTS.ROLE_FAIL
  fld 0x18 6 1 .w1c,  -- PRT_EVENTS.ENC_FAIL
  fld 0x18 7 1 .w1c,  -- PRT_EVENTS.PEER_CHANGE
  fld 0x18 8 1 .w1c,  -- PRT_EVENTS.SAFETY
  fld 0x18 9 1 .w1c,  -- PRT_EVENTS.PEER_DOWN
  fld 0x20 0 32 .rc,  -- PRT.PRT_RETRAIN_CNT
  fld 0x24 0 32 .rc,  -- PRT.PRT_RECOVER_CNT
  fld 0x28 0 32 .rc,  -- PRT.PRT_RESYNC_CNT
  fld 0x2C 0 32 .rc,  -- PRT.PRT_ENC_AUTH_CNT
  fld 0x40 0 8 .rwl 0x4 .host 1 255,  -- PRT_HLTH.UE_THR
  fld 0x44 0 11 .rws 0x3C .host 1 1440,  -- PRT_ENC.REKEY_MIN
  fld 0x44 16 1 .ro,  -- PRT_ENC.EPOCH_TX
  fld 0x44 17 1 .ro,  -- PRT_ENC.EPOCH_RX
  fld 0x48 0 1 .ro,  -- PRT_RTM.PRESENT
  fld 0x48 1 1 .ro,  -- PRT_RTM.LOCK
  fld 0x48 8 7 .ro,  -- PRT_RTM.ADDR
  fld 0x48 16 8 .ro,  -- PRT_RTM.TEMP
  fld 0x48 24 8 .rc]  -- PRT_RTM.RESET_CNT

/-- The fields of the ELS registers. -/
def elsFields : List RegField := [
  fldA 0x0 0x4 4 0 1 .ro,  -- PRT_ELS_m.PRESENT
  fldA 0x0 0x4 4 1 1 .ro,  -- PRT_ELS_m.ENABLED
  fldA 0x0 0x4 4 2 1 .ro,  -- PRT_ELS_m.INTERLOCK
  fldA 0x0 0x4 4 3 1 .ro,  -- PRT_ELS_m.FAULT
  fldA 0x0 0x4 4 16 8 .ro]  -- PRT_ELS_m.TEMP

/-- The fields of the LNK registers. -/
def lnkFields : List RegField := [
  fld 0x0 0 8 .ro,  -- LNK_TXEQ.PRE2
  fld 0x0 8 8 .ro,  -- LNK_TXEQ.PRE1
  fld 0x0 16 8 .ro 0x40,  -- LNK_TXEQ.MAIN
  fld 0x0 24 8 .ro,  -- LNK_TXEQ.POST1
  fld 0x4 0 1 .ro,  -- LNK_STATUS.SIG
  fld 0x4 1 1 .ro,  -- LNK_STATUS.LOCK
  fld 0x4 2 1 .ro,  -- LNK_STATUS.ALIGNED
  fld 0x4 3 4 .ro 0xF,  -- LNK_STATUS.LOGICAL
  fld 0x4 7 1 .ro,  -- LNK_STATUS.POL_INV
  fld 0x4 8 8 .ro,  -- LNK_STATUS.SKEW_NS
  fld 0x4 16 8 .ro,  -- LNK_STATUS.SNR
  fld 0x8 0 32 .rc,  -- LNK.CE_SYM_CNT
  fld 0xC 0 32 .rc,  -- LNK.UE_CW_CNT
  fld 0x10 0 16 .rc,  -- LNK.HIST1
  fld 0x10 16 16 .rc,  -- LNK.HIST2
  fld 0x14 0 16 .rc,  -- LNK.HIST3
  fld 0x14 16 16 .rc,  -- LNK.HIST4
  fld 0x18 0 16 .rc,  -- LNK.HIST5
  fld 0x18 16 16 .rc,  -- LNK.HIST6
  fld 0x1C 0 16 .rc,  -- LNK.HIST7
  fld 0x20 0 16 .ro,  -- LNK_OPT.RX_UW
  fld 0x20 16 1 .ro]  -- LNK_OPT.LOL

/-- The fields of the SEC registers. -/
def secFields : List RegField := [
  fldA 0x800 0x4 72 0 12 .ro,  -- SEC_BIND_s.TENANT
  fldA 0x800 0x4 72 12 1 .ro,  -- SEC_BIND_s.V
  fld 0x0 0 1 .ro,  -- SEC_STATUS.ID_READY
  fld 0x0 1 1 .ro,  -- SEC_STATUS.DEBUG
  fld 0x0 2 1 .ro,  -- SEC_STATUS.TENANCY
  fld 0x0 8 7 .ro,  -- SEC_STATUS.SLOTS
  fld 0x0 16 7 .ro,  -- SEC_STATUS.ADMITTED
  fld 0x0 24 2 .ro,  -- SEC_STATUS.LEVEL
  fld 0x8 0 32 .ro,  -- SEC_ARB_LO.ARB_LO
  fld 0xC 0 32 .ro,  -- SEC_ARB_LO.ARB_HI
  fld 0x10 0 7 .ro,  -- SEC_UNLOCKS.COUNT
  fld 0x10 7 1 .ro,  -- SEC_UNLOCKS.AXWICK_OFF
  fld 0x18 0 1 .w1c,  -- SEC_EVENTS.ADMIT_DONE
  fld 0x18 1 1 .w1c,  -- SEC_EVENTS.RELEASE_DONE
  fld 0x18 2 1 .w1c,  -- SEC_EVENTS.UNIT_FAILED
  fld 0x18 3 1 .w1c,  -- SEC_EVENTS.SIG_FAIL
  fld 0x18 4 1 .w1c,  -- SEC_EVENTS.UNLOCK
  fld 0x18 5 1 .w1c,  -- SEC_EVENTS.KEY_FAULT
  fld 0x18 6 1 .w1c,  -- SEC_EVENTS.LEVEL
  fld 0x20 0 32 .rc,  -- SEC.SEC_SIG_FAIL_CNT
  fld 0x24 0 32 .rc,  -- SEC.SEC_DBG_FAIL_CNT
  fld 0x40 0 6 .ro,  -- SEC_SCRUB.UNITS_LEFT
  fldA 0x100 0x10 64 0 3 .ro,  -- SEC_TEN_n.STATE
  fldA 0x100 0x10 64 4 12 .ro,  -- SEC_TEN_n.TENANT
  fldA 0x100 0x10 64 16 1 .ro,  -- SEC_TEN_n.FIFO
  fldA 0x100 0x10 64 17 1 .ro,  -- SEC_TEN_n.FP_RELAXED
  fldA 0x104 0x10 64 0 16 .ro,  -- SEC_TEN_n.STK_MASK
  fldA 0x104 0x10 64 16 16 .ro,  -- SEC_TEN_n.ANX_MASK
  fldA 0x108 0x10 64 0 32 .ro,  -- SEC_TEN_n.GRP_MASK
  fldA 0x10C 0x10 64 0 4 .ro,  -- SEC_TEN_n.CEL_SET
  fldA 0x10C 0x10 64 4 1 .ro,  -- SEC_TEN_n.CEL_V
  fldA 0x10C 0x10 64 16 16 .ro]  -- SEC_TEN_n.ENG_MASK

/-- The fields of the MGT registers. -/
def mgtFields : List RegField := [
  fld 0x0 0 1 .ro,  -- MGT_FW_STATUS.ACTIVE
  fld 0x0 1 1 .ro,  -- MGT_FW_STATUS.RESET_PENDING
  fld 0x0 2 3 .ro,  -- MGT_FW_STATUS.STAGE
  fld 0x0 5 1 .ro,  -- MGT_FW_STATUS.VALID_A
  fld 0x0 6 1 .ro,  -- MGT_FW_STATUS.VALID_B
  fld 0x0 8 8 .ro,  -- MGT_FW_STATUS.SVN
  fld 0x4 0 1 .ro,  -- MGT_EMERG.BRAKE
  fld 0x4 1 1 .ro,  -- MGT_EMERG.SHED
  fld 0x4 2 1 .ro,  -- MGT_EMERG.CAP_UNMET
  fld 0x4 3 1 .ro,  -- MGT_EMERG.UNDERVOLT
  fld 0x4 4 1 .ro,  -- MGT_EMERG.THERMAL
  fld 0x8 0 1 .w1c,  -- MGT_EVENTS.WDOG
  fld 0x8 1 1 .w1c,  -- MGT_EVENTS.CORE_HELD
  fld 0x8 2 1 .w1c,  -- MGT_EVENTS.ACT_DONE
  fld 0x8 3 1 .w1c,  -- MGT_EVENTS.ACT_FAIL
  fld 0x8 4 1 .w1c,  -- MGT_EVENTS.POWER_DEFERRED
  fld 0x8 5 1 .w1c,  -- MGT_EVENTS.BOOT_FALLBACK
  fld 0x8 6 1 .w1c,  -- MGT_EVENTS.LEDGER_LOST
  fldA 0x100 0x4 18 0 2 .ro,  -- MGT_CORE_n.STATE
  fldA 0x100 0x4 18 8 8 .rc,  -- MGT_CORE_n.WDOG_CNT
  fldA 0x200 0x10 5 0 32 .ro,  -- MGT_VER_r.VER_LO
  fldA 0x204 0x10 5 0 32 .ro,  -- MGT_VER_r.VER_HI
  fldA 0x208 0x10 5 0 1 .ro,  -- MGT_VER_r.SLOT
  fld 0x300 0 32 .ro,  -- MGT.HEAD
  fld 0x304 0 32 .rwl,  -- MGT.HOST_LO
  fld 0x308 0 32 .rwl,  -- MGT.HOST_HI
  fld 0x30C 0 1 .rwl,  -- MGT.MIRROR_EN
  fld 0x310 0 32 .rc,  -- MGT.MGT_LEDGER_LOST_CNT
  fld 0x314 0 32 .rc,  -- MGT.MGT_TP_DROP_CNT
  fldA 0x340 0x4 8 0 32 .rwl 0xFFFFFFFF,  -- MGT_TP_EN_k.EN
  fld 0x380 0 32 .ro,  -- MGT_FEAT.AGREED_LO
  fld 0x384 0 32 .ro,  -- MGT_FEAT.AGREED_HI
  fld 0x400 0 1 .rws 0x1,  -- MGT_HLTH_CTRL.EN
  fld 0x400 1 1 .rwl 0x1,  -- MGT_HLTH_CTRL.EXPORT_EN
  fld 0x404 0 11 .rw,  -- MGT_HLTH_SEL.ENTITY
  fld 0x408 0 24 .ro,  -- MGT_HLTH_VAL.SCORE
  fld 0x408 24 2 .ro,  -- MGT_HLTH_VAL.STATE
  fld 0x40C 0 1 .w1c,  -- MGT_HLTH_EVENTS.WARN
  fld 0x40C 1 1 .w1c,  -- MGT_HLTH_EVENTS.PREDICT
  fld 0x410 0 11 .ro,  -- MGT_HLTH_COUNT.WARN_N
  fld 0x410 16 11 .ro,  -- MGT_HLTH_COUNT.PRED_N
  fldA 0x420 0x4 6 0 16 .rwl 0x100 .host 1 65535,  -- MGT_HLTH_THR_k.WARN
  fldA 0x420 0x4 6 16 16 .rwl 0x1000]  -- MGT_HLTH_THR_k.PREDICT

/-- The fields of the PWR registers. -/
def pwrFields : List RegField := [
  fld 0x0 0 11 .rws 0x44C .host 950 1400,  -- PWR_CTRL.ORPHAN_W
  fld 0x0 11 11 .rws 0x578 .host 950 1400,  -- PWR_CTRL.START_W
  fld 0x4 0 11 .rw 0x578 .pwr 0 1400,  -- PWR_CAP.CAP
  fld 0x8 0 2 .ro,  -- PWR_STATUS.LEVEL
  fld 0x8 2 1 .ro,  -- PWR_STATUS.CAP_UNMET
  fld 0x8 3 1 .ro,  -- PWR_STATUS.BELOW_FLOOR
  fld 0x8 4 1 .ro,  -- PWR_STATUS.BRAKE_PIN
  fld 0x8 5 1 .ro,  -- PWR_STATUS.UNDERVOLT
  fld 0x8 6 1 .ro,  -- PWR_STATUS.TM_LOST
  fld 0x8 7 1 .ro,  -- PWR_STATUS.ORPHAN
  fld 0x8 8 1 .ro,  -- PWR_STATUS.ALERT
  fld 0xC 0 11 .ro,  -- PWR_MEAS.AVG_W
  fld 0xC 16 11 .rc,  -- PWR_MEAS.PEAK_W
  fld 0x10 0 10 .ro,  -- PWR_TEMP.TJ_MAX
  fld 0x10 10 5 .ro,  -- PWR_TEMP.SENSOR
  fld 0x10 16 10 .rc,  -- PWR_TEMP.TJ_PEAK
  fld 0x14 0 32 .wo 0x0 .pwr,  -- PWR_TM_HB.HB
  fld 0x18 0 1 .w1c,  -- PWR_EVENTS.LEVEL_FALL
  fld 0x18 1 1 .w1c,  -- PWR_EVENTS.LEVEL_RISE
  fld 0x18 2 1 .w1c,  -- PWR_EVENTS.CAP_UNMET
  fld 0x18 3 1 .w1c,  -- PWR_EVENTS.CAP_MET
  fld 0x18 4 1 .w1c,  -- PWR_EVENTS.BRAKE_PIN
  fld 0x18 5 1 .w1c,  -- PWR_EVENTS.UNDERVOLT
  fld 0x18 6 1 .w1c,  -- PWR_EVENTS.THROTTLE_T
  fld 0x18 7 1 .w1c,  -- PWR_EVENTS.BRAKE_T
  fld 0x18 8 1 .w1c,  -- PWR_EVENTS.SHED_T
  fld 0x18 9 1 .w1c,  -- PWR_EVENTS.TM_LOST
  fld 0x18 10 1 .w1c,  -- PWR_EVENTS.ORPHAN
  fld 0x18 11 1 .w1c,  -- PWR_EVENTS.PORT_FORCED
  fld 0x18 12 1 .w1c,  -- PWR_EVENTS.CAP_REFUSED
  fld 0x20 0 32 .rc,  -- PWR.PWR_FALL_CNT
  fld 0x24 0 32 .rc,  -- PWR.PWR_UNMET_CNT
  fld 0x28 0 32 .rc,  -- PWR.PWR_FORCED_CNT
  fld 0x2C 0 32 .rc,  -- PWR.PWR_BRAKE_PIN_CNT
  fldA 0x100 0x4 7 0 11 .ro]  -- PWR_DOM_d.W

/-- The fields of the GLB registers. -/
def glbFields : List RegField := [
  fld 0x0 0 16 .ro 0x8872,  -- GLB_ID.PART
  fld 0x0 16 8 .ro 0x1,  -- GLB_ID.STEP
  fld 0x8 0 32 .ro,  -- GLB.SERIAL_LO
  fld 0xC 0 32 .ro,  -- GLB.SERIAL_HI
  fld 0x10 0 11 .ro,  -- GLB_NODE.NODE
  fld 0x10 11 1 .ro,  -- GLB_NODE.NODE_V
  fld 0x14 0 32 .ro,  -- GLB_NODE.DOMAIN
  fld 0x20 0 4 .ro,  -- GLB_READY.STATE
  fld 0x20 4 1 .ro,  -- GLB_READY.UNLOCKED
  fld 0x20 5 1 .ro,  -- GLB_READY.DEGRADED
  fld 0x20 6 1 .ro,  -- GLB_READY.MISMATCH
  fld 0x20 7 1 .ro,  -- GLB_READY.TRANSIT
  fld 0x20 8 4 .ro,  -- GLB_READY.CAUSE
  fld 0x24 0 1 .w1c,  -- GLB_EVENTS.READY_CHANGE
  fld 0x24 1 1 .w1c,  -- GLB_EVENTS.NOTICE
  fld 0x24 2 1 .w1c,  -- GLB_EVENTS.WERR
  fld 0x24 3 1 .w1c,  -- GLB_EVENTS.CMT_FIRED
  fld 0x24 4 1 .w1c,  -- GLB_EVENTS.CMT_REFUSED
  fld 0x24 5 1 .w1c,  -- GLB_EVENTS.NOTICE_LOST
  fld 0x40 0 26 .ro,  -- GLB_WERR.OFFSET
  fld 0x44 0 8 .ro,  -- GLB_WERR.STATUS
  fld 0x48 0 32 .rc,  -- GLB_WERR.WERR_CNT
  fld 0x50 0 8 .rw 0x2,  -- GLB_IRQ_CFG.HOLDOFF_US
  fld 0x60 0 32 .rw,  -- GLB_CMT_TIME_LO.TIME_LO
  fld 0x64 0 32 .rw,  -- GLB_CMT_TIME_LO.TIME_HI
  fld 0x68 0 1 .wo,  -- GLB_CMT_CTRL.ARM
  fld 0x68 1 1 .wo,  -- GLB_CMT_CTRL.DISCARD
  fld 0x68 2 1 .wo,  -- GLB_CMT_CTRL.CANCEL
  fld 0x68 3 3 .rw,  -- GLB_CMT_CTRL.SLOT
  fld 0x6C 0 8 .ro,  -- GLB_CMT_STATUS.PENDING
  fld 0x6C 8 3 .ro,  -- GLB_CMT_STATUS.LAST_SLOT
  fld 0x6C 12 9 .ro,  -- GLB_CMT_STATUS.STAGED_N
  fld 0x6C 24 8 .ro,  -- GLB_CMT_STATUS.LAST_STATUS
  fldA 0x80 0x8 8 0 32 .ro,  -- GLB_CMT_T_n.T_LO
  fldA 0x84 0x8 8 0 32 .ro,  -- GLB_CMT_T_n.T_HI
  fld 0xC0 0 32 .rw,  -- GLB.BASE_LO
  fld 0xC4 0 32 .rw,  -- GLB.BASE_HI
  fld 0xC8 0 1 .rw,  -- GLB.EN
  fld 0xCC 0 32 .ro,  -- GLB.HEAD
  fld 0xD0 0 32 .rc]  -- GLB.GLB_NOTICE_LOST_CNT

/-- The fields of the MBX registers. -/
def mbxFields : List RegField := [
  fld 0x0 0 1 .wo,  -- MBX.GO
  fld 0x0 1 1 .rw,  -- MBX.IN_DMA
  fld 0x0 2 1 .rw,  -- MBX.OUT_DMA
  fld 0x4 0 16 .rw,  -- MBX.OPCODE
  fld 0x8 0 26 .rw,  -- MBX.IN_LEN
  fld 0x10 0 32 .rw,  -- MBX.IN_ADDR_LO
  fld 0x14 0 32 .rw,  -- MBX.IN_ADDR_HI
  fld 0x18 0 32 .rw,  -- MBX.OUT_ADDR_LO
  fld 0x1C 0 32 .rw,  -- MBX.OUT_ADDR_HI
  fld 0x20 0 26 .rw,  -- MBX.OUT_CAP
  fld 0x24 0 26 .ro,  -- MBX.OUT_LEN
  fld 0x28 0 1 .ro,  -- MBX.BUSY
  fld 0x28 1 1 .w1c,  -- MBX.DONE
  fld 0x28 8 8 .ro]  -- MBX.STATUS

/-- The fields of the CXL registers. -/
def cxlFields : List RegField := [
  fld 0x0 0 4 .ro,  -- CXL_STATUS.WIDTH
  fld 0x0 4 2 .ro,  -- CXL_STATUS.SPEED
  fld 0x0 6 1 .ro,  -- CXL_STATUS.UP
  fld 0x0 7 1 .ro,  -- CXL_STATUS.IDE_IO
  fld 0x0 8 1 .ro,  -- CXL_STATUS.IDE_MEM
  fld 0x0 9 1 .ro,  -- CXL_STATUS.BME
  fld 0x4 0 1 .rwl,  -- CXL_HT_CTRL.EN
  fld 0x10 0 32 .rc,  -- CXL.CXL_RETRAIN_CNT
  fld 0x14 0 32 .rc,  -- CXL.CXL_POISON_CNT
  fld 0x18 0 32 .rc,  -- CXL.CXL_DMA_ERR_CNT
  fldA 0x100 0x20 8 0 1 .rwl,  -- CXL_HT_n.V
  fldA 0x104 0x20 8 0 23 .rwl,  -- CXL_HT_n.OFF_2M
  fldA 0x108 0x20 8 0 23 .rwl,  -- CXL_HT_n.SIZE_2M
  fldA 0x10C 0x20 8 0 32 .rwl,  -- CXL_HT_n.HPA_LO
  fldA 0x110 0x20 8 0 32 .rwl]  -- CXL_HT_n.HPA_HI

/-- The fields of a block (R406). The buffers of the mailbox and the ALM block have no fields. -/
def Blk.fields : Blk → List RegField
  | .glb => glbFields | .mbx _ => mbxFields | .cxl => cxlFields | .sec => secFields | .pwr => pwrFields
  | .ftm => ftmFields | .alm => [] | .xlt _ => xltFields | .epb _ => epbFields | .prt _ => prtFields
  | .lnk _ _ => lnkFields | .els _ => elsFields | .swc => swcFields | .cmb => cmbFields
  | .trn => trnFields | .col => colFields | .rda => rdaFields | .cel => celFields | .stk => stkFields
  | .anx => anxFields | .mov => movFields | .mgt => mgtFields | .inBuf _ => [] | .outBuf _ => []

/-- The block and block offset of a BAR0 offset (R406); none where no block lies. -/
def locate (o : Nat) : Option (Blk × Nat) :=
  if o < 0x10000 then some (.glb, o)
  else if o < 0x1C000 then
    let c := (o - 0x10000) / 0x3000
    let r := (o - 0x10000) % 0x3000
    if r < 0x1000 then some (.mbx c, r)
    else if r < 0x2000 then some (.inBuf c, r - 0x1000) else some (.outBuf c, r - 0x2000)
  else if o < 0x20000 then some (.cxl, o - 0x1C000)
  else if o < 0x30000 then some (.sec, o - 0x20000)
  else if o < 0x40000 then some (.pwr, o - 0x30000)
  else if o < 0x50000 then some (.ftm, o - 0x40000)
  else if o < 0x100000 then none
  else if o < 0x200000 then some (.alm, o - 0x100000)
  else if o < 0x1000000 then none
  else if o < 0x1900000 then
    let c := (o - 0x1000000) / 0x100000
    let r := (o - 0x1000000) % 0x100000
    if r < 0x80000 then some (.xlt c, r)
    else if r < 0x88000 then some (.epb (c * 8 + (r - 0x80000) / 0x1000), (r - 0x80000) % 0x1000)
    else none
  else if o < 0x2000000 then none
  else if o < 0x2B00000 then
    let c := (o - 0x2000000) / 0x100000
    let r := (o - 0x2000000) % 0x100000
    if r < 0x8000 then some (.prt (c * 8 + r / 0x1000), r % 0x1000)
    else if r < 0x80000 then none
    else if r < 0x88000 then
      let p := c * 8 + (r - 0x80000) / 0x1000
      let k := (r - 0x80000) % 0x1000 / 0x40
      if k < 8 || (k = 8 && p ≥ 72) then some (.lnk p k, r % 0x40) else none
    else if 0x90000 ≤ r && r < 0x90010 && c ≥ 9 then some (.els c, r - 0x90000)
    else none
  else if o < 0x3000000 then none
  else if o < 0x3080000 then some (.swc, o - 0x3000000)
  else if o < 0x3100000 then some (.cmb, o - 0x3080000)
  else if o < 0x3200000 then some (.trn, o - 0x3100000)
  else if o < 0x3300000 then some (.col, o - 0x3200000)
  else if o < 0x3400000 then some (.rda, o - 0x3300000)
  else if o < 0x3500000 then some (.cel, o - 0x3400000)
  else if o < 0x3600000 then some (.stk, o - 0x3500000)
  else if o < 0x3700000 then some (.anx, o - 0x3600000)
  else if o < 0x3800000 then some (.mov, o - 0x3700000)
  else if o < 0x3900000 then some (.mgt, o - 0x3800000)
  else none

/-- The fields of the register at a BAR0 offset. -/
def fieldsAt (o : Nat) : List RegField :=
  match locate o with
  | none => []
  | some (b, l) => b.fields.filter (fun f => f.at l)

/-- The reset value of the register at a BAR0 offset. -/
def resetWord (o : Nat) : Word :=
  BitVec.ofNat 32 ((fieldsAt o).foldl (fun acc f => acc + f.rst * 2 ^ f.lo) 0)

/-! ### Event bits -/

abbrev evEpbAttNakRx : Nat := 0  -- EPB_ATT_EVENTS.NAK_RX
abbrev evEpbAttNakTx : Nat := 1  -- EPB_ATT_EVENTS.NAK_TX
abbrev evEpbAttTimeout : Nat := 2  -- EPB_ATT_EVENTS.TIMEOUT
abbrev evEpbAttVersionFail : Nat := 3  -- EPB_ATT_EVENTS.VERSION_FAIL
abbrev evEpbAttCreditViol : Nat := 4  -- EPB_ATT_EVENTS.CREDIT_VIOL
abbrev evEpbAttMalformedRx : Nat := 5  -- EPB_ATT_EVENTS.MALFORMED_RX
abbrev evEpbAttStrayDone : Nat := 6  -- EPB_ATT_EVENTS.STRAY_DONE
abbrev evFtmLockLost : Nat := 0  -- FTM_EVENTS.LOCK_LOST
abbrev evFtmGmChange : Nat := 1  -- FTM_EVENTS.GM_CHANGE
abbrev evFtmStepRefused : Nat := 2  -- FTM_EVENTS.STEP_REFUSED
abbrev evFtmPpsMiss : Nat := 3  -- FTM_EVENTS.PPS_MISS
abbrev evFtmChainBreak : Nat := 4  -- FTM_EVENTS.CHAIN_BREAK
abbrev evFtmSlip : Nat := 5  -- FTM_EVENTS.SLIP
abbrev evFtmLate : Nat := 6  -- FTM_EVENTS.LATE
abbrev evFtmDesync : Nat := 7  -- FTM_EVENTS.DESYNC
abbrev evColMismatch : Nat := 0  -- COL_EVENTS.MISMATCH
abbrev evColAbort : Nat := 1  -- COL_EVENTS.ABORT
abbrev evColOpenFail : Nat := 2  -- COL_EVENTS.OPEN_FAIL
abbrev evColIdleAbort : Nat := 3  -- COL_EVENTS.IDLE_ABORT
abbrev evRdaDerr : Nat := 0  -- RDA_EVENTS.DERR
abbrev evRdaLandWait : Nat := 1  -- RDA_EVENTS.LAND_WAIT
abbrev evRdaClkChange : Nat := 2  -- RDA_EVENTS.CLK_CHANGE
abbrev evCelUe : Nat := 0  -- CEL_EVENTS.UE
abbrev evCelBankOffline : Nat := 1  -- CEL_EVENTS.BANK_OFFLINE
abbrev evMovFault : Nat := 0  -- MOV_EVENTS.FAULT
abbrev evMovFaultExpired : Nat := 1  -- MOV_EVENTS.FAULT_EXPIRED
abbrev evMovSealed : Nat := 2  -- MOV_EVENTS.SEALED
abbrev evSwcEccDrop : Nat := 0  -- SWC_EVENTS.ECC_DROP
abbrev evSwcFullDrop : Nat := 1  -- SWC_EVENTS.FULL_DROP
abbrev evSwcMirDrop : Nat := 2  -- SWC_EVENTS.MIR_DROP
abbrev evSwcNoslotDrop : Nat := 3  -- SWC_EVENTS.NOSLOT_DROP
abbrev evPrtLinkDown : Nat := 0  -- PRT_EVENTS.LINK_DOWN
abbrev evPrtRecover : Nat := 1  -- PRT_EVENTS.RECOVER
abbrev evPrtSpare : Nat := 2  -- PRT_EVENTS.SPARE
abbrev evPrtWidth : Nat := 3  -- PRT_EVENTS.WIDTH
abbrev evPrtFallback : Nat := 4  -- PRT_EVENTS.FALLBACK
abbrev evPrtRoleFail : Nat := 5  -- PRT_EVENTS.ROLE_FAIL
abbrev evPrtEncFail : Nat := 6  -- PRT_EVENTS.ENC_FAIL
abbrev evPrtPeerChange : Nat := 7  -- PRT_EVENTS.PEER_CHANGE
abbrev evPrtSafety : Nat := 8  -- PRT_EVENTS.SAFETY
abbrev evPrtPeerDown : Nat := 9  -- PRT_EVENTS.PEER_DOWN
abbrev evSecAdmitDone : Nat := 0  -- SEC_EVENTS.ADMIT_DONE
abbrev evSecReleaseDone : Nat := 1  -- SEC_EVENTS.RELEASE_DONE
abbrev evSecUnitFailed : Nat := 2  -- SEC_EVENTS.UNIT_FAILED
abbrev evSecSigFail : Nat := 3  -- SEC_EVENTS.SIG_FAIL
abbrev evSecUnlock : Nat := 4  -- SEC_EVENTS.UNLOCK
abbrev evSecKeyFault : Nat := 5  -- SEC_EVENTS.KEY_FAULT
abbrev evSecLevel : Nat := 6  -- SEC_EVENTS.LEVEL
abbrev evMgtWdog : Nat := 0  -- MGT_EVENTS.WDOG
abbrev evMgtCoreHeld : Nat := 1  -- MGT_EVENTS.CORE_HELD
abbrev evMgtActDone : Nat := 2  -- MGT_EVENTS.ACT_DONE
abbrev evMgtActFail : Nat := 3  -- MGT_EVENTS.ACT_FAIL
abbrev evMgtPowerDeferred : Nat := 4  -- MGT_EVENTS.POWER_DEFERRED
abbrev evMgtBootFallback : Nat := 5  -- MGT_EVENTS.BOOT_FALLBACK
abbrev evMgtLedgerLost : Nat := 6  -- MGT_EVENTS.LEDGER_LOST
abbrev evPwrLevelFall : Nat := 0  -- PWR_EVENTS.LEVEL_FALL
abbrev evPwrLevelRise : Nat := 1  -- PWR_EVENTS.LEVEL_RISE
abbrev evPwrCapUnmet : Nat := 2  -- PWR_EVENTS.CAP_UNMET
abbrev evPwrCapMet : Nat := 3  -- PWR_EVENTS.CAP_MET
abbrev evPwrBrakePin : Nat := 4  -- PWR_EVENTS.BRAKE_PIN
abbrev evPwrUndervolt : Nat := 5  -- PWR_EVENTS.UNDERVOLT
abbrev evPwrThrottleT : Nat := 6  -- PWR_EVENTS.THROTTLE_T
abbrev evPwrBrakeT : Nat := 7  -- PWR_EVENTS.BRAKE_T
abbrev evPwrShedT : Nat := 8  -- PWR_EVENTS.SHED_T
abbrev evPwrTmLost : Nat := 9  -- PWR_EVENTS.TM_LOST
abbrev evPwrOrphan : Nat := 10  -- PWR_EVENTS.ORPHAN
abbrev evPwrPortForced : Nat := 11  -- PWR_EVENTS.PORT_FORCED
abbrev evPwrCapRefused : Nat := 12  -- PWR_EVENTS.CAP_REFUSED
abbrev evMgtHlthWarn : Nat := 0  -- MGT_HLTH_EVENTS.WARN
abbrev evMgtHlthPredict : Nat := 1  -- MGT_HLTH_EVENTS.PREDICT
abbrev evGlbReadyChange : Nat := 0  -- GLB_EVENTS.READY_CHANGE
abbrev evGlbNotice : Nat := 1  -- GLB_EVENTS.NOTICE
abbrev evGlbWerr : Nat := 2  -- GLB_EVENTS.WERR
abbrev evGlbCmtFired : Nat := 3  -- GLB_EVENTS.CMT_FIRED
abbrev evGlbCmtRefused : Nat := 4  -- GLB_EVENTS.CMT_REFUSED
abbrev evGlbNoticeLost : Nat := 5  -- GLB_EVENTS.NOTICE_LOST

/-! ### Counters and other read-to-clear fields -/

abbrev cntEpbNakTxCnt (p : Nat) : Cnt := ⟨epbBase p + 0x18, 0, 32⟩
abbrev cntEpbNakRxCnt (p : Nat) : Cnt := ⟨epbBase p + 0x1C, 0, 32⟩
abbrev cntEpbResendCnt (p : Nat) : Cnt := ⟨epbBase p + 0x20, 0, 32⟩
abbrev cntXltHitCnt (c : Nat) : Cnt := ⟨xltBase c + 0x40, 0, 32⟩
abbrev cntXltMissCnt (c : Nat) : Cnt := ⟨xltBase c + 0x44, 0, 32⟩
abbrev cntXltUnmappedCnt (c : Nat) : Cnt := ⟨xltBase c + 0x48, 0, 32⟩
abbrev cntEpbPlaneCnt (p : Nat) : Cnt := ⟨epbBase p + 0x44, 0, 16⟩
abbrev cntEpbKeyCnt (p : Nat) : Cnt := ⟨epbBase p + 0x44, 16, 16⟩
abbrev cntEpbFlagAbortCnt (p : Nat) : Cnt := ⟨epbBase p + 0x64, 0, 16⟩
abbrev cntEpbDupCnt (p : Nat) : Cnt := ⟨epbBase p + 0x64, 16, 16⟩
abbrev cntEpbMarkNs (p : Nat) : Cnt := ⟨epbBase p + 0x68, 0, 24⟩
abbrev cntCmbPeak : Cnt := ⟨cmbBase + 0x4, 16, 14⟩
abbrev cntCmbRdMergedCnt : Cnt := ⟨cmbBase + 0x10, 0, 32⟩
abbrev cntCmbFaddMergedCnt : Cnt := ⟨cmbBase + 0x14, 0, 32⟩
abbrev cntCmbBypassCnt : Cnt := ⟨cmbBase + 0x18, 0, 32⟩
abbrev cntCmbFaninFullCnt : Cnt := ⟨cmbBase + 0x1C, 0, 32⟩
abbrev cntEpbLockedCnt (p : Nat) : Cnt := ⟨epbBase p + 0x84, 0, 16⟩
abbrev cntEpbDelegCnt (p : Nat) : Cnt := ⟨epbBase p + 0x84, 16, 16⟩
abbrev cntEpbWait (p : Nat) : Cnt := ⟨epbBase p + 0x88, 0, 24⟩
abbrev cntEpbCommitLostCnt (p : Nat) : Cnt := ⟨epbBase p + 0x8C, 0, 12⟩
abbrev cntEpbDerrCnt (p : Nat) : Cnt := ⟨epbBase p + 0x8C, 12, 12⟩
abbrev cntTrnHcrcDropCnt : Cnt := ⟨trnBase + 0x10, 0, 32⟩
abbrev cntTrnCrcNakCnt : Cnt := ⟨trnBase + 0x14, 0, 32⟩
abbrev cntTrnRetxCnt : Cnt := ⟨trnBase + 0x18, 0, 32⟩
abbrev cntTrnAltCnt : Cnt := ⟨trnBase + 0x1C, 0, 32⟩
abbrev cntTrnDupCnt : Cnt := ⟨trnBase + 0x20, 0, 32⟩
abbrev cntTrnUnreachCnt : Cnt := ⟨trnBase + 0x24, 0, 32⟩
abbrev cntTrnLifeDropCnt : Cnt := ⟨trnBase + 0x28, 0, 32⟩
abbrev cntTrnCeCnt : Cnt := ⟨trnBase + 0x2C, 0, 32⟩
abbrev cntTrnPeakKib (n : Nat) : Cnt := ⟨trnBase + 0x1000 + n * 0x4, 16, 15⟩
abbrev cntFtmSlipTxCnt : Cnt := ⟨ftmBase + 0x60, 0, 32⟩
abbrev cntFtmSlipRxCnt : Cnt := ⟨ftmBase + 0x64, 0, 32⟩
abbrev cntFtmLateCnt : Cnt := ⟨ftmBase + 0x68, 0, 32⟩
abbrev cntFtmDemoteCnt : Cnt := ⟨ftmBase + 0x6C, 0, 32⟩
abbrev cntFtmSlips (n : Nat) : Cnt := ⟨ftmBase + 0x414 + n * 0x20, 0, 16⟩
abbrev cntFtmLates (n : Nat) : Cnt := ⟨ftmBase + 0x414 + n * 0x20, 16, 16⟩
abbrev cntColOpenCnt : Cnt := ⟨colBase + 0x10, 0, 32⟩
abbrev cntColNoctxCnt : Cnt := ⟨colBase + 0x14, 0, 32⟩
abbrev cntColNocellarCnt : Cnt := ⟨colBase + 0x18, 0, 32⟩
abbrev cntColMismatchCnt : Cnt := ⟨colBase + 0x1C, 0, 32⟩
abbrev cntColAbortCnt : Cnt := ⟨colBase + 0x20, 0, 32⟩
abbrev cntColInstCnt : Cnt := ⟨colBase + 0x24, 0, 32⟩
abbrev cntColSkipCnt : Cnt := ⟨colBase + 0x28, 0, 32⟩
abbrev cntRdaInputCnt : Cnt := ⟨rdaBase + 0x10, 0, 32⟩
abbrev cntRdaProjCnt : Cnt := ⟨rdaBase + 0x14, 0, 32⟩
abbrev cntRdaLandWaitCnt : Cnt := ⟨rdaBase + 0x18, 0, 32⟩
abbrev cntRdaSatCnt : Cnt := ⟨rdaBase + 0x1C, 0, 32⟩
abbrev cntRdaNanCnt : Cnt := ⟨rdaBase + 0x20, 0, 32⟩
abbrev cntRdaDerrCnt : Cnt := ⟨rdaBase + 0x24, 0, 32⟩
abbrev cntRdaPeakKib (n : Nat) : Cnt := ⟨rdaBase + 0x200 + n * 0x4, 16, 10⟩
abbrev cntCelCeCnt (n : Nat) : Cnt := ⟨celBase + 0x200 + n * 0x4, 0, 16⟩
abbrev cntCelUeCnt (n : Nat) : Cnt := ⟨celBase + 0x200 + n * 0x4, 16, 8⟩
abbrev cntStkCeCnt (n : Nat) : Cnt := ⟨stkBase + 0x200 + n * 0x4, 0, 16⟩
abbrev cntStkUeCnt (n : Nat) : Cnt := ⟨stkBase + 0x200 + n * 0x4, 16, 8⟩
abbrev cntStkDenyCnt : Cnt := ⟨stkBase + 0x10, 0, 32⟩
abbrev cntAnxCeCnt (n : Nat) : Cnt := ⟨anxBase + 0x200 + n * 0x4, 0, 16⟩
abbrev cntAnxUeCnt (n : Nat) : Cnt := ⟨anxBase + 0x200 + n * 0x4, 16, 8⟩
abbrev cntMovDoneCnt : Cnt := ⟨movBase + 0x10, 0, 32⟩
abbrev cntMovFailCnt : Cnt := ⟨movBase + 0x14, 0, 32⟩
abbrev cntMovHeldCnt : Cnt := ⟨movBase + 0x18, 0, 32⟩
abbrev cntMovFaultFullCnt : Cnt := ⟨movBase + 0x1C, 0, 32⟩
abbrev cntSwcFullDropCnt : Cnt := ⟨swcBase + 0x10, 0, 32⟩
abbrev cntSwcEccDropCnt : Cnt := ⟨swcBase + 0x14, 0, 32⟩
abbrev cntSwcMarkCnt : Cnt := ⟨swcBase + 0x18, 0, 32⟩
abbrev cntSwcMirDropCnt : Cnt := ⟨swcBase + 0x1C, 0, 32⟩
abbrev cntSwcReplCnt : Cnt := ⟨swcBase + 0x20, 0, 32⟩
abbrev cntSwcNoslotDropCnt : Cnt := ⟨swcBase + 0x24, 0, 32⟩
abbrev cntSwcQPeak : Cnt := ⟨swcBase + 0x48, 0, 22⟩
abbrev cntSwcPortMarkCnt (n : Nat) : Cnt := ⟨swcBase + 0x404 + n * 0x8, 0, 16⟩
abbrev cntSwcPortDropCnt (n : Nat) : Cnt := ⟨swcBase + 0x404 + n * 0x8, 16, 16⟩
abbrev cntSwcMirRecCnt (n : Nat) : Cnt := ⟨swcBase + 0x2010 + n * 0x20, 0, 32⟩
abbrev cntPrtRetrainCnt (p : Nat) : Cnt := ⟨prtBase p + 0x20, 0, 32⟩
abbrev cntPrtRecoverCnt (p : Nat) : Cnt := ⟨prtBase p + 0x24, 0, 32⟩
abbrev cntPrtResyncCnt (p : Nat) : Cnt := ⟨prtBase p + 0x28, 0, 32⟩
abbrev cntPrtEncAuthCnt (p : Nat) : Cnt := ⟨prtBase p + 0x2C, 0, 32⟩
abbrev cntPrtRtmResetCnt (p : Nat) : Cnt := ⟨prtBase p + 0x48, 24, 8⟩
abbrev cntLnkCeSymCnt (p k : Nat) : Cnt := ⟨lnkBase p k + 0x8, 0, 32⟩
abbrev cntLnkUeCwCnt (p k : Nat) : Cnt := ⟨lnkBase p k + 0xC, 0, 32⟩
abbrev cntLnkHist1 (p k : Nat) : Cnt := ⟨lnkBase p k + 0x10, 0, 16⟩
abbrev cntLnkHist2 (p k : Nat) : Cnt := ⟨lnkBase p k + 0x10, 16, 16⟩
abbrev cntLnkHist3 (p k : Nat) : Cnt := ⟨lnkBase p k + 0x14, 0, 16⟩
abbrev cntLnkHist4 (p k : Nat) : Cnt := ⟨lnkBase p k + 0x14, 16, 16⟩
abbrev cntLnkHist5 (p k : Nat) : Cnt := ⟨lnkBase p k + 0x18, 0, 16⟩
abbrev cntLnkHist6 (p k : Nat) : Cnt := ⟨lnkBase p k + 0x18, 16, 16⟩
abbrev cntLnkHist7 (p k : Nat) : Cnt := ⟨lnkBase p k + 0x1C, 0, 16⟩
abbrev cntSecSigFailCnt : Cnt := ⟨secBase + 0x20, 0, 32⟩
abbrev cntSecDbgFailCnt : Cnt := ⟨secBase + 0x24, 0, 32⟩
abbrev cntMgtWdogCnt (n : Nat) : Cnt := ⟨mgtBase + 0x100 + n * 0x4, 8, 8⟩
abbrev cntMgtLedgerLostCnt : Cnt := ⟨mgtBase + 0x310, 0, 32⟩
abbrev cntMgtTpDropCnt : Cnt := ⟨mgtBase + 0x314, 0, 32⟩
abbrev cntPwrPeakW : Cnt := ⟨pwrBase + 0xC, 16, 11⟩
abbrev cntPwrTjPeak : Cnt := ⟨pwrBase + 0x10, 16, 10⟩
abbrev cntPwrFallCnt : Cnt := ⟨pwrBase + 0x20, 0, 32⟩
abbrev cntPwrUnmetCnt : Cnt := ⟨pwrBase + 0x24, 0, 32⟩
abbrev cntPwrForcedCnt : Cnt := ⟨pwrBase + 0x28, 0, 32⟩
abbrev cntPwrBrakePinCnt : Cnt := ⟨pwrBase + 0x2C, 0, 32⟩
abbrev cntGlbWerrCnt : Cnt := ⟨0 + 0x48, 0, 32⟩
abbrev cntGlbNoticeLostCnt : Cnt := ⟨0 + 0xD0, 0, 32⟩
abbrev cntCxlRetrainCnt : Cnt := ⟨cxlBase + 0x10, 0, 32⟩
abbrev cntCxlPoisonCnt : Cnt := ⟨cxlBase + 0x14, 0, 32⟩
abbrev cntCxlDmaErrCnt : Cnt := ⟨cxlBase + 0x18, 0, 32⟩

end Sys2Proof.Machine
end

