-- ==== Sys2Proof/Machine/Ops.lean ====
section
/-!
DEFINITION. The operations every meaning is built from: sparse tables in canonical form, stored register
words and their fields, what the device puts out, Fabric Time, and the frame of a command: `live` runs a
command's effect while the clocks run and leaves the queue of waiting commands and the fuses alone.
-/

namespace Sys2Proof.Machine
open Sys2Proof

/-! ### Tables -/

/-- The value a table holds for `k`; `d` for an unlisted key. -/
def tget {α : Type} (d : α) : Table α → Nat → α
  | [], _ => d
  | (j, v) :: t, k => if k = j then v else tget d t k

/-- Put an entry before the first larger key. -/
def tins {α : Type} (k : Nat) (v : α) : Table α → Table α
  | [] => [(k, v)]
  | (j, w) :: t => if k < j then (k, v) :: (j, w) :: t else (j, w) :: tins k v t

/-- Write `v` at `k`, keeping the keys rising and listing no value equal to `d`. -/
def tput {α : Type} [DecidableEq α] (d : α) (t : Table α) (k : Nat) (v : α) : Table α :=
  if v = d then t.filter (fun x => x.1 != k) else tins k v (t.filter (fun x => x.1 != k))

/-- Change the value at `k`. -/
def tmod {α : Type} [DecidableEq α] (d : α) (t : Table α) (k : Nat) (f : α → α) : Table α :=
  tput d t k (f (tget d t k))

/-- The canonical form of a table: keys strictly rising, no value equal to the default. -/
def Table.wf {α : Type} [DecidableEq α] (d : α) : Table α → Bool
  | [] => true
  | [(_, v)] => decide (v ≠ d)
  | (j, v) :: (k, w) :: t => decide (j < k) && decide (v ≠ d) && Table.wf d ((k, w) :: t)

/-- Bytes of a byte table from address `a` on; unlisted bytes read as 0 (R244, scrubbed memory). -/
def memRead (m : Table Byte) (a n : Nat) : Bytes := (List.range n).map (fun i => tget 0 m (a + i))

/-- Write bytes into a byte table from address `a` on. -/
def memWrite (m : Table Byte) : Nat → Bytes → Table Byte
  | _, [] => m
  | a, b :: bs => memWrite (tput 0 m a b) (a + 1) bs

/-- The form of a memory (MEMORY of the row's instructions): canonical with default byte 0. -/
def Memory.wf (m : Table Byte) : Bool := Table.wf 0 m

/-! ### The frame of a command -/

/-- What no command's effect reaches: the queue of waiting commands, and the fuses. -/
def keep (s t : State) : State := { t with pending := s.pending, fuses := s.fuses }

/-- Run an effect while the clocks run; a device whose clocks stand ignores the command (R365, R368). -/
def live (s : State) (f : State → State) : Host.Outcome State Fault Refusal :=
  .next (if s.chip.running then keep s (f s) else s)

/-- As `live` for the commands that may blow fuses (R332, R343): the fuses stay as the effect leaves them. -/
def liveFuses (s : State) (f : State → State) : Host.Outcome State Fault Refusal :=
  .next (if s.chip.running then { f s with pending := s.pending } else s)

/-- The host interface's state changes. -/
def modHif (f : HostIf → HostIf) (s : State) : State := { s with hif := f s.hif }

/-- The device puts something out. -/
def emit (e : Emit) (s : State) : State := { s with out := s.out ++ [e] }

/-- Put several things out, in order. -/
def emits (es : List Emit) (s : State) : State := { s with out := s.out ++ es }

/-- Apply one state change per element, in order. -/
def each {α : Type} (xs : List α) (f : α → State → State) (s : State) : State :=
  xs.foldl (fun s x => f x s) s

/-- Apply a change where a condition holds. -/
def whenS (c : Bool) (f : State → State) (s : State) : State := if c then f s else s

/-- Draw the number of a fresh free value. -/
def draw (s : State) : State := { s with fresh := s.fresh + 1 }

/-! ### Fabric Time -/

/-- The Fabric Time counter as a number of 0.25 ns ticks (R148). -/
def now (s : State) : Nat := s.time.count.toNat

/-- The clock domains that act on Fabric Time (R15 to R17). -/
inductive Domain where
  | core | memory | array | host
  deriving DecidableEq, Repr

/-- The replica of the master counter that a domain holds, against which its timed actions are taken (R17). DESIGN CHOICE,
unsafe (log 79): every replica stands exactly at the master, where R17 lets it stand within one tick. -/
def replica (_ : Domain) (s : State) : Nat := now s

/-- The counter has reached a command's tick: it never goes back, and stands at 0 until it is started (R148, R370). -/
def advance (t : Tick) (s : State) : State :=
  if s.time.started && decide (s.time.count < t) then { s with time := { s.time with count := t } } else s

/-- The code this device presents on FTX_OUT (R151). -/
def ownCode (s : State) : ChainCode :=
  { time := s.time.count, depth := s.time.depth, gmNode := s.time.gmNode
    broken := if s.time.broken then some s.fab.plane
      else if s.time.chainBrk = some s.fab.plane then none else s.time.chainBrk }

/-- Ticks in a microsecond, a millisecond and a second (R148). -/
abbrev tickUs : Nat := 4000
abbrev tickMs : Nat := 4000000
abbrev tickS : Nat := 4000000000

/-! ### Stored registers -/

/-- The stored word of the register at a BAR0 offset. -/
def word (s : State) (off : Nat) : Word := tget (resetWord off) s.regs off

/-- Store a word. -/
def setWord (off : Nat) (v : Word) (s : State) : State :=
  { s with regs := tput (resetWord off) s.regs off v }

/-- A stored field. -/
def fieldOf (s : State) (off lo w : Nat) : Nat := bitsOf (word s off).toNat lo w

/-- One stored bit. -/
def bitAt (s : State) (off lo : Nat) : Bool := (word s off).toNat.testBit lo

/-- A word with one field replaced. -/
def putBits (v : Word) (lo w x : Nat) : Word :=
  BitVec.ofNat 32 (v.toNat - bitsOf v.toNat lo w * 2 ^ lo + (x % 2 ^ w) * 2 ^ lo)

/-- Store a field. -/
def setField (off lo w x : Nat) (s : State) : State := setWord off (putBits (word s off) lo w x) s

/-- Blocks that `here` names reach their boundary: the committed fields they have been handed take effect (R173, R412). -/
def takeHanded (here : Nat → Bool) (s : State) : State :=
  let s1 := (s.hif.handed.filter (fun x => here x.1)).foldl (fun s x => setField x.1 x.2.1 x.2.2.1 x.2.2.2 s) s
  { s1 with hif := { s1.hif with handed := s.hif.handed.filter (fun x => !here x.1) } }

/-- Registers whose commits take effect at an instance boundary (R204, R235). -/
def atInstance (off : Nat) : Bool := decide (colBase ≤ off ∧ off < colBase + 0x300000)

/-- Registers whose commits take effect at a scoring boundary (R399). -/
def atScoring (off : Nat) : Bool := decide (mgtBase + 0x400 ≤ off ∧ off < mgtBase + 0x10000)

/-! ### Counters and the health accumulators they feed (R396, R397) -/

/-- Count weighted health events of an entity, in units of 1/1,024. -/
def hlth (entity weight : Nat) (s : State) : State :=
  { s with hlth := { s.hlth with acc := tput 0 s.hlth.acc entity (tget 0 s.hlth.acc entity + weight) } }

/-- The health entity a counter feeds and the weight of one count in units of 1/1,024 (R397). -/
def hlthOf (c : Cnt) : Option (Nat × Nat) :=
  match locate c.off with
  | some (.lnk p k, _) =>
    if c = cntLnkCeSymCnt p k then some (9 * p + k, 1)
    else if c = cntLnkHist5 p k ∨ c = cntLnkHist6 p k ∨ c = cntLnkHist7 p k then some (9 * p + k, 4096)
    else if c = cntLnkUeCwCnt p k then some (9 * p + k, 262144) else none
  | some (.prt p, _) =>
    if c = cntPrtRecoverCnt p then some (792 + p, 16384)
    else if c = cntPrtRetrainCnt p then some (792 + p, 65536)
    else if c = cntPrtResyncCnt p then some (792 + p, 1024)
    else if c = cntPrtEncAuthCnt p then some (792 + p, 4096) else none
  | some (.epb p, _) =>
    if c = cntEpbNakTxCnt p ∨ c = cntEpbNakRxCnt p ∨ c = cntEpbResendCnt p then some (792 + p, 64)
    else if c = cntEpbDerrCnt p then some (792 + p, 1024) else none
  | some (.swc, _) =>
    if c = cntSwcEccDropCnt then some (1088, 262144)
    else ((List.range 88).find? (fun n => c = cntSwcPortDropCnt n)).map (fun n => (792 + n, 64))
  | some (.stk, _) =>
    ((List.range 128).find? (fun n => c.off = (cntStkCeCnt n).off)).map
      (fun n => (880 + n, if c = cntStkCeCnt n then 64 else 65536))
  | some (.anx, _) =>
    ((List.range 16).find? (fun n => c.off = (cntAnxCeCnt n).off)).map
      (fun n => (1008 + n, if c = cntAnxCeCnt n then 64 else 65536))
  | some (.cel, _) =>
    ((List.range 64).find? (fun n => c.off = (cntCelCeCnt n).off)).map
      (fun n => (1024 + n, if c = cntCelCeCnt n then 64 else 65536))
  | some (.trn, _) =>
    if c = cntTrnRetxCnt ∨ c = cntTrnHcrcDropCnt then some (1089, 64)
    else if c = cntTrnAltCnt then some (1089, 4096)
    else if c = cntTrnUnreachCnt then some (1089, 65536) else none
  | some (.pwr, _) => if c = cntPwrFallCnt then some (1088, 16384) else none
  | _ => none

/-- A saturating count (R3, RC counters). -/
def bumpBy (c : Cnt) (n : Nat) (s : State) : State :=
  let s := setField c.off c.lo c.w (Nat.min (2 ^ c.w - 1) (fieldOf s c.off c.lo c.w + n)) s
  match hlthOf c with
  | some h => hlth h.1 (h.2 * n) s
  | none => s

/-- Count one. -/
def bump (c : Cnt) (s : State) : State := bumpBy c 1 s

/-- Keep the highest value seen. -/
def peakTo (c : Cnt) (v : Nat) (s : State) : State :=
  let x := Nat.min (2 ^ c.w - 1) v
  if fieldOf s c.off c.lo c.w < x then setField c.off c.lo c.w x s else s

/-! ### Parts of the state by number -/

def sess (s : State) (p : Nat) : Session := tget {} s.att p
def setSess (p : Nat) (x : Session) (s : State) : State := { s with att := tput {} s.att p x }
def modSess (p : Nat) (f : Session → Session) (s : State) : State := setSess p (f (sess s p)) s

def portSt (s : State) (p : Nat) : PortSt := tget {} s.ports p
def setPort (p : Nat) (x : PortSt) (s : State) : State := { s with ports := tput {} s.ports p x }
def modPort (p : Nat) (f : PortSt → PortSt) (s : State) : State := setPort p (f (portSt s p)) s

def chan (s : State) (c : Nat) : Chanl := tget {} s.hif.chans c
def setChan (c : Nat) (x : Chanl) (s : State) : State :=
  { s with hif := { s.hif with chans := tput {} s.hif.chans c x } }
def modChan (c : Nat) (f : Chanl → Chanl) (s : State) : State := setChan c (f (chan s c)) s

def vecOf (s : State) (v : Nat) : IrqVec := tget {} s.hif.vecs v
def setVec (v : Nat) (x : IrqVec) (s : State) : State :=
  { s with hif := { s.hif with vecs := tput {} s.hif.vecs v x } }

def ctxOf (s : State) (c : Nat) : Ctx := tget {} s.coll.ctxs c
def setCtx (c : Nat) (x : Ctx) (s : State) : State :=
  { s with coll := { s.coll with ctxs := tput {} s.coll.ctxs c x } }
def modCtx (c : Nat) (f : Ctx → Ctx) (s : State) : State := setCtx c (f (ctxOf s c)) s

def tenSlot (s : State) (n : Nat) : TenSlot := tget {} s.ten.ten n
def setTen (n : Nat) (x : TenSlot) (s : State) : State :=
  { s with ten := { s.ten with ten := tput {} s.ten.ten n x } }
def modTen (n : Nat) (f : TenSlot → TenSlot) (s : State) : State := setTen n (f (tenSlot s n)) s

def egOf (s : State) (e : Nat) : EgressQ := tget {} s.sw.eg e
def setEg (e : Nat) (x : EgressQ) (s : State) : State :=
  { s with sw := { s.sw with eg := tput {} s.sw.eg e x } }
def modEg (e : Nat) (f : EgressQ → EgressQ) (s : State) : State := setEg e (f (egOf s e)) s

def coreSt (s : State) (n : Nat) : CoreSt := tget .running s.fw.cores n
def setCore (n : Nat) (x : CoreSt) (s : State) : State :=
  { s with fw := { s.fw with cores := tput .running s.fw.cores n x } }

/-! ### Small readings of lists -/

/-- Replace the first element that satisfies `f`. -/
def modFirst {α : Type} (f : α → Bool) (g : α → α) : List α → List α
  | [] => []
  | x :: xs => if f x then g x :: xs else x :: modFirst f g xs

/-- Replace every element that satisfies `f`. -/
def modAll {α : Type} (f : α → Bool) (g : α → α) (xs : List α) : List α :=
  xs.map (fun x => if f x then g x else x)

/-- Insert a number into a rising list without repeats. -/
def insertNat (n : Nat) : List Nat → List Nat
  | [] => [n]
  | m :: ms => if n < m then n :: m :: ms else if n = m then m :: ms else m :: insertNat n ms

/-- The numbers of the bits set in a mask, rising. -/
def bitsSet (w m : Nat) : List Nat := (List.range w).filter (fun i => m.testBit i)

/-- How many bits of a mask are set. -/
def popCount (w m : Nat) : Nat := (bitsSet w m).length

/-- A 32-bit number from bits and fields. -/
def packBits (fs : List (Nat × Nat)) : Word :=
  BitVec.ofNat 32 (fs.foldl (fun acc f => acc + f.2 * 2 ^ f.1) 0)

/-- 1 for true, 0 for false. -/
def b2n (b : Bool) : Nat := if b then 1 else 0

end Sys2Proof.Machine
end

