-- ==== Sys2Proof/Machine/Flags.lean ====
section
/-!
DEFINITION. Event flags, the MSI-X vectors they raise (R419, R420), the Ledger they are recorded in
(R353 to R355), DMA to the host (R404), notices (R394, R421) and the readiness word (R383, R422).
-/

namespace Sys2Proof.Machine
open Sys2Proof

/-! ### DMA to host memory -/

/-- DMA to host memory runs while the link is up, with Bus Master Enable and CXL_HT_CTRL.EN (R24, R404). -/
def dmaOn (s : State) : Bool := s.hif.cxl.up && s.hif.cxl.bme && bitAt s (cxlBase + 4) 0

/-- A DMA write in parts of at most 512 bytes (R404). -/
def dmaParts : Nat → Nat → Bytes → List Emit
  | 0, _, _ => []
  | fuel + 1, a, bs =>
    if bs.isEmpty then []
    else Emit.hostWrite a (bs.take 512) :: dmaParts fuel (a + 512) (bs.drop 512)

/-- A DMA write; dropped while DMA does not run. -/
def dmaWrite (a : Nat) (bs : Bytes) (s : State) : State :=
  if dmaOn s then emits (dmaParts (bs.length / 512 + 1) a bs) s else s

/-! ### MSI-X -/

/-- GLB_IRQ_CFG.HOLDOFF_US (R422). -/
def holdoffUs (s : State) : Nat := fieldOf s 0x50 0 8

/-- Send a vector's message, or set its PBA bit when it is masked (R420). A message starts the holdoff. -/
def sendVec (v : Nat) (s : State) : State :=
  let x := vecOf s v
  if x.masked then setVec v { x with pba := true, rose := false } s
  else emit (.msix v) (setVec v { x with holdoff := decide (0 < holdoffUs s), rose := false } s)

/-- A source of the vector goes from 0 to 1 (R420). -/
def riseVec (v : Nat) (s : State) : State :=
  let x := vecOf s v
  if x.holdoff then setVec v { x with rose := true } s else sendVec v s

/-! ### The Ledger -/

/-- SRC of an entry that hardware records (R353). -/
abbrev srcHw : Nat := 0x20

/-- The 32 bytes of a Ledger entry, little-endian (R353). -/
def LedgerEntry.bytes (e : LedgerEntry) : Bytes :=
  leBytes 8 (if e.isLocal then e.cycles else e.tick).toNat ++ leBytes 4 e.seq.toNat ++
  [e.tp, e.src, BitVec.ofNat 8 (b2n e.isLocal + 2 * e.sev.toNat), 0] ++
  leBytes 4 e.unit.toNat ++ leBytes 4 e.arg.toNat ++ List.replicate 8 0

/-- Trace point `tp` is enabled in MGT_TP_EN (R356). -/
def tpEnabled (s : State) (tp : Nat) : Bool := bitAt s (mgtBase + 0x340 + tp / 32 * 4) (tp % 32)

/-- The trace point has already recorded its 1,000 entries in the present second (R353). -/
def tpFull (s : State) (tp : Nat) : Bool :=
  s.fw.tpSec == now s / tickS && decide (1000 ≤ tget 0 s.fw.tpCnt tp)

/-- An entry of a trace point is counted in the present second. -/
def tpNote (tp : Nat) (s : State) : State :=
  let old := if s.fw.tpSec = now s / tickS then s.fw.tpCnt else []
  { s with fw := { s.fw with tpSec := now s / tickS, tpCnt := tput 0 old tp (tget 0 old tp + 1) } }

/-- The management clock since reset: it never runs backwards; how many of its cycles pass between two entries is free (R353;
log 65). -/
def cyclesNow (s : State) : BitVec 64 :=
  BitVec.ofNat 64 (Nat.min (2 ^ 64 - 1) (s.fw.cycles.toNat + (Config.freeWord s.fresh).toNat % 2 ^ 32))

/-- Mirror one entry to host memory (R354). A failed write is counted and raises LEDGER_LOST. -/
def mirrorEntry (e : LedgerEntry) (s : State) : State :=
  let wanted := (match s.fw.agreed with | some f => f.getLsbD 0 | none => false) &&
    bitAt s (mgtBase + 0x30C) 0
  if wanted then
    let base := (word s (mgtBase + 0x304)).toNat + 2 ^ 32 * (word s (mgtBase + 0x308)).toNat
    if dmaOn s then dmaWrite (base + e.seq.toNat % 32768 * 32) e.bytes s
    else
      let t := bump cntMgtLedgerLostCnt s
      let old := bitAt t (mgtBase + 8) evMgtLedgerLost
      let t := setField (mgtBase + 8) evMgtLedgerLost 1 1 t
      if old then t else riseVec 9 t
  else s

/-- Record a trace point in the Ledger ring of 32,768 entries (R353). -/
def trace (tp unit arg src : Nat) (s : State) : State :=
  let sev := Config.severity tp
  if !tpEnabled s tp && sev != 3 then s
  else if tpFull s tp then bump cntMgtTpDropCnt s
  else
    let e : LedgerEntry := {
      tick := s.time.count, cycles := cyclesNow s, seq := s.fw.head, tp := BitVec.ofNat 8 tp, src := BitVec.ofNat 8 src,
      isLocal := !s.time.everLocked, sev := sev, unit := BitVec.ofNat 32 unit, arg := BitVec.ofNat 32 arg }
    let ring := s.fw.ledger ++ [e]
    let ring := if 32768 < ring.length then ring.drop 1 else ring
    mirrorEntry e (tpNote tp { draw s with fw := { s.fw with ledger := ring, head := s.fw.head + 1, cycles := cyclesNow s } })

/-- A firmware trace point 0x00 to 0x0C (R355), recorded by core `src`. -/
def traceFw (tp src : Nat) (s : State) : State := trace tp 0 0 src s

/-! ### Raising events -/

/-- Raise bit `b` of the events register at `off`: the trace point is recorded each time, the vector
rises when the bit goes from 0 to 1 (R355, R419, R420). -/
def raiseAt (off b vec : Nat) (tp : Option Nat) (unit : Nat) (s : State) : State :=
  let old := bitAt s off b
  let t := setField off b 1 1 s
  let t := match tp with
    | some base => trace (base + b) unit (word t off).toNat srcHw t
    | none => t
  if old then t else riseVec vec t

def raiseGlb (b : Nat) (s : State) : State :=
  raiseAt 0x24 b (if b = evGlbReadyChange ∨ b = evGlbNotice ∨ b = evGlbNoticeLost then 0 else 5) none 0 s
def raisePrt (p b : Nat) (s : State) : State := raiseAt (prtBase p + 0x18) b (16 + p / 8) (some 0x20) p s
def raiseEpb (p b : Nat) (s : State) : State := raiseAt (epbBase p + 0x14) b (16 + p / 8) (some 0x30) p s
def raiseSwc (b unit : Nat) (s : State) : State := raiseAt (swcBase + 0xC) b 11 (some 0x60) unit s
def raiseFtm (b unit : Nat) (s : State) : State := raiseAt (ftmBase + 0x50) b 6 (some 0x80) unit s
def raiseCol (b unit : Nat) (s : State) : State := raiseAt (colBase + 8) b 12 (some 0xA0) unit s
def raiseRda (b unit : Nat) (s : State) : State := raiseAt (rdaBase + 0xC) b 13 (some 0xA8) unit s
def raiseCel (b unit : Nat) (s : State) : State := raiseAt (celBase + 8) b 14 (some 0xB0) unit s
def raiseMov (b unit : Nat) (s : State) : State := raiseAt (movBase + 8) b 15 (some 0xC0) unit s
def raiseSec (b unit : Nat) (s : State) : State := raiseAt (secBase + 0x18) b 8 (some 0xE0) unit s
def raisePwr (b unit : Nat) (s : State) : State := raiseAt (pwrBase + 0x18) b 7 (some 0xF0) unit s
def raiseMgt (b : Nat) (s : State) : State := raiseAt (mgtBase + 8) b 9 none 0 s
def raiseHlth (b : Nat) (s : State) : State := raiseAt (mgtBase + 0x40C) b 10 none 0 s

/-- A host write is refused: counted, GLB_WERR holds its offset and status, and WERR rises (R409). -/
def werr (off : Nat) (st : Status) (s : State) : State :=
  let t := { s with hif := { s.hif with werrOff := BitVec.ofNat 26 off, werrSt := BitVec.ofNat 8 st.code } }
  raiseGlb evGlbWerr (bump cntGlbWerrCnt t)

/-! ### Identity and readiness -/

/-- The device's node ID (R2). -/
def nodeId (s : State) : Nat := s.fab.rack.toNat * 8 + s.fab.plane.toNat
/-- The device's fabric-memory endpoint (R2). -/
def memEp (s : State) : Nat := 0x4800 + nodeId s
/-- The endpoint of accelerator slot `p` of this rack (R2). -/
def slotEp (s : State) (p : Nat) : Nat := s.fab.rack.toNat * 72 + p
/-- The mode of a cluster: 0 accelerator, 1 electrical fabric, 2 optical fabric (R13). -/
def clusterMode (s : State) (c : Nat) : Nat := ((s.fab.modes[c]?).getD 0).toNat

/-- The port serves as a fabric port (R13). -/
def isFabricPort (s : State) (p : Nat) : Bool := clusterMode s (p / 8) != 0

/-- An endpoint ID that names no endpoint: a slot of this rack whose cluster runs in electrical fabric mode holds no
accelerator (R13). -/
def emptySlot (s : State) (e : Nat) : Bool :=
  decide (e < 0x4800 ∧ e / 72 = s.fab.rack.toNat) && isFabricPort s (e % 72)

/-- The node an endpoint is reached through on this device's plane; none beyond 0x4FFF and for an ID that names no
endpoint (R2, R11, R13). -/
def epNode (s : State) (e : Nat) : Option Nat :=
  if emptySlot s e then none
  else if e < 0x4800 then some (e / 72 * 8 + s.fab.plane.toNat)
  else if e < 0x5000 then some (e - 0x4800) else none

/-- The code of a readiness state (R383). -/
def Ready.code : Ready → Nat
  | .reset => 0 | .sprout => 1 | .config => 2 | .init => 3 | .discover => 4 | .standby => 5 | .ready => 6
  | .faulted => 7 | .recovery => 8

/-- A port is held down: given up, refused by a mismatch, or forced (R377, R378, R381, R358). -/
def portHeld (x : PortSt) : Bool := x.heldDown || x.givenUp || x.forced

/-- Some unit, die half or port is held out of service (R377, R383). -/
def degradedNow (s : State) : Bool :=
  s.fab.degraded || s.ports.any (fun x => portHeld x.2) || s.chip.bridges.any (fun x => x.2.down) ||
  !s.home.pcOut.isEmpty || !s.arr.bankOut.isEmpty || !s.home.failed.isEmpty

/-- GLB_READY (R422). -/
def readyWord (s : State) : Word :=
  packBits [(0, s.fab.state.code), (4, b2n (s.fab.state != .reset && s.time.servo != .locked)), (5, b2n (degradedNow s)),
    (6, b2n s.fab.mismatch), (7, b2n s.fab.transit),
    (8, if s.fab.state = .faulted then s.fab.cause.toNat else 0)]

/-- If the readiness word differs from what it was in `s`, READY_CHANGE rises and the change is sent to
the fabric manager over Repex Control (R383). -/
def noteReady (s t : State) : State :=
  if readyWord s = readyWord t then t
  else raiseGlb evGlbReadyChange (emit (.ctlPlane (.readiness (readyWord t))) t)

/-! ### Notices -/

/-- The kinds of notice of R394. -/
inductive NoticeKind where
  | quarantine | planeHealth | deviceDown | bridgeDown | channelOut | health | linkDown
  deriving DecidableEq, Repr

def NoticeKind.code : NoticeKind → Nat
  | .quarantine => 1 | .planeHealth => 2 | .deviceDown => 3 | .bridgeDown => 4 | .channelOut => 5
  | .health => 6 | .linkDown => 7

/-- The 16 bytes of a notice (R394). -/
def noticeBytes (s : State) (k : NoticeKind) (st : Nat) (ep : Nat) (unit : Nat) : Bytes :=
  beBytes 1 k.code ++ beBytes 1 st ++ beBytes 2 (nodeId s) ++ beBytes 2 ep ++
  beBytes 2 (s.fab.plane.toNat * 0x2000 + unit % 0x800) ++ beBytes 8 (now s)

/-- Send a notice to the fabric manager: written to the ring by DMA, or counted as lost and sent to the
plane-0 device's host (R394, R421). At most one of a kind, endpoint and plane in any 10 ms. -/
def notice (k : NoticeKind) (st : Nat) (ep unit : Nat) (s : State) : State :=
  let key := (k.code, ep, s.fab.plane.toNat)
  let t := now s
  if s.hif.noticeLog.any (fun n => n.1 == key.1 && n.2.1 == key.2.1 && n.2.2.1 == key.2.2 &&
      decide (t < n.2.2.2 + 10 * tickMs)) then s
  else
    let bs := noticeBytes s k st ep unit
    let log := (key.1, key.2.1, key.2.2, t) ::
      s.hif.noticeLog.filter (fun n => decide (t < n.2.2.2 + 10 * tickMs))
    let s := { s with hif := { s.hif with noticeLog := log } }
    if bitAt s 0xC8 0 && dmaOn s then
      let base := (word s 0xC0).toNat + 2 ^ 32 * (word s 0xC4).toNat
      let s := dmaWrite (base + s.hif.notices % 4096 * 16) bs s
      raiseGlb evGlbNotice { s with hif := { s.hif with notices := s.hif.notices + 1 } }
    else
      raiseGlb evGlbNoticeLost (emit (.ctlRack (.notice bs)) (bump cntGlbNoticeLostCnt s))

/-- The subject of a notice that has no endpoint (R394). -/
abbrev noEp : Nat := 0xFFFF

end Sys2Proof.Machine
end

