-- ==== Sys2Proof/Machine/Wire.lean ====
section
/-!
DEFINITION. Repex frames as bytes: the header layout of R125, the header check HCRC of R126, the trailer
CRC-64 of R127, the named fields of header bytes 16 to 27, and the frames the part builds.
-/

namespace Sys2Proof.Machine
open Sys2Proof

/-! ### Check sums -/

/-- One bit of an unreflected CRC of width `w`. -/
def crcBit {w : Nat} (poly crc : BitVec w) (b : Bool) : BitVec w :=
  if crc.getLsbD (w - 1) != b then (crc <<< 1) ^^^ poly else crc <<< 1

/-- One byte, most significant bit first. -/
def crcByte {w : Nat} (poly crc : BitVec w) (b : Byte) : BitVec w :=
  [7, 6, 5, 4, 3, 2, 1, 0].foldl (fun c i => crcBit poly c (b.getLsbD i)) crc

/-- HCRC (R126): polynomial 0x1021, initial value 0xFFFF, no final XOR. -/
def crc16 (bs : Bytes) : BitVec 16 := bs.foldl (crcByte 0x1021#16) 0xFFFF#16

/-- CRC-64 (R127): ECMA-182 polynomial, initial value and final XOR all ones. -/
def crc64 (bs : Bytes) : BitVec 64 :=
  bs.foldl (crcByte 0x42F0E1EBA9EA3693#64) 0xFFFFFFFFFFFFFFFF#64 ^^^ 0xFFFFFFFFFFFFFFFF#64

end Sys2Proof.Machine

namespace Sys2Proof
open Sys2Proof.Machine

/-! ### The header -/

/-- Header bytes 0 to 29 (R125). -/
def Frame.head (f : Frame) : Bytes :=
  [BitVec.ofNat 8 (f.ver.toNat * 16 + f.type.toNat),
   BitVec.ofNat 8 (f.cls.toNat * 64 + b2n f.red * 32 + b2n f.ce * 16 + b2n f.retx * 8 + b2n f.first * 4 +
     b2n f.last * 2 + b2n f.ord)] ++
  beBytes 2 f.src.toNat ++ beBytes 2 f.dst.toNat ++
  beBytes 2 (f.plane.toNat * 0x2000 + b2n f.comb * 0x1000 + f.tenant.toNat) ++
  beBytes 4 f.psn.toNat ++ [f.opc, f.atop] ++
  beBytes 2 (f.path.toNat * 0x1000 + f.scope.toNat * 0x400 + f.len.toNat) ++
  beBytes 12 f.mid.toNat ++ [f.status, f.ttl]

/-- The HCRC the header must carry. -/
def Frame.hcrcOf (f : Frame) : BitVec 16 := crc16 f.head

/-- The CRC-64 the trailer must carry: CLASS, CE, DST and TTL are taken as 0 (R127). -/
def Frame.crcOf (f : Frame) : BitVec 64 :=
  crc64 (({ f with cls := 0, ce := false, dst := 0, ttl := 0 } : Frame).head ++ f.payload)

/-- The header passes HCRC (R126). -/
def Frame.hcrcOk (f : Frame) : Bool := f.hcrc == f.hcrcOf

/-- The frame passes its CRC-64 (R127). -/
def Frame.crcOk (f : Frame) : Bool := f.crc == f.crcOf

/-- Recompute HCRC after a hop changed CE, TTL, CLASS or DST (R126). -/
def Frame.reseal (f : Frame) : Frame := { f with hcrc := f.hcrcOf }

/-- Compute both check sums, as a source does for each transmission (R127). -/
def Frame.seal (f : Frame) : Frame :=
  let g := { f with crc := f.crcOf }
  { g with hcrc := g.hcrcOf }

/-- Bytes the frame takes on a link: header, payload and trailer (R125). -/
def Frame.size (f : Frame) : Nat := 40 + f.payload.length

/-- Packet-buffer cells of 256 bytes the frame takes (R262). -/
def Frame.cells (f : Frame) : Nat := ceilDiv f.size 256

/-! ### Header bytes 16 to 27 -/

def Frame.space (f : Frame) : Nat := bitsOf f.mid.toNat 92 4
def Frame.offset (f : Frame) : Nat := bitsOf f.mid.toNat 48 44
def Frame.keyidx (f : Frame) : Nat := bitsOf f.mid.toNat 32 16
def Frame.keytag (f : Frame) : Nat := bitsOf f.mid.toNat 0 32
/-- The 48-bit value (SPACE << 44) | OFFSET. -/
def Frame.fpa (f : Frame) : Nat := bitsOf f.mid.toNat 48 48
/-- The 64-bit bitmap of an ACK, bytes 16 to 23 (R130). -/
def Frame.bitmap (f : Frame) : Nat := bitsOf f.mid.toNat 32 64
/-- HANDLE, CHUNK, LO and HI of a collective frame (R202). -/
def Frame.handle (f : Frame) : Nat := bitsOf f.mid.toNat 64 32
def Frame.chunk (f : Frame) : Nat := bitsOf f.mid.toNat 32 32
def Frame.loIdx (f : Frame) : Nat := bitsOf f.mid.toNat 16 16
def Frame.hiIdx (f : Frame) : Nat := bitsOf f.mid.toNat 0 16

/-- The frame is of the control class types that the 1 % limit does not hold for (R129, R268). -/
def Frame.isTransportCtl (f : Frame) : Bool :=
  f.type == 2 || f.type == 3 || f.type == 4 || f.type == 5 || f.type == 6

end Sys2Proof

namespace Sys2Proof.Machine
open Sys2Proof

/-- Header bytes 16 to 27 of a memory request. -/
def midOf (fpa keyidx keytag : Nat) : BitVec 96 :=
  BitVec.ofNat 96 (fpa % 2 ^ 48 * 2 ^ 48 + keyidx % 2 ^ 16 * 2 ^ 32 + keytag % 2 ^ 32)

/-- Header bytes 16 to 27 of a collective frame. -/
def collMid (handle chunk lo hi : Nat) : BitVec 96 :=
  BitVec.ofNat 96 (handle % 2 ^ 32 * 2 ^ 64 + chunk % 2 ^ 32 * 2 ^ 32 + lo % 2 ^ 16 * 2 ^ 16 + hi % 2 ^ 16)

/-! ### Frame types and operations -/

abbrev tReq : BitVec 4 := 0
abbrev tRsp : BitVec 4 := 1
abbrev tAck : BitVec 4 := 2
abbrev tNak : BitVec 4 := 3
abbrev tOpen : BitVec 4 := 4
abbrev tOpenAck : BitVec 4 := 5
abbrev tClose : BitVec 4 := 6
abbrev tCtl : BitVec 4 := 7

/-- Signed 32-bit difference of two PSNs (R130). -/
def psnDiff (a b : BitVec 32) : Int := (a - b).toInt

/-- The operations of R125 that a REQ frame may carry, and the skip 0x00 in its own use (R138). -/
def opcKnown (o : BitVec 8) : Bool :=
  decide (1 ≤ o.toNat ∧ o.toNat ≤ 5) || decide (0x40 ≤ o.toNat ∧ o.toNat ≤ 0x44) ||
  decide (0x50 ≤ o.toNat ∧ o.toNat ≤ 0x53)

/-- TRN_CTRL.TTL, the initial TTL (R135, R147). -/
def initTtl (s : State) : BitVec 8 := BitVec.ofNat 8 (fieldOf s trnBase 16 6)

/-- COUNTER of an encrypted frame: the key epoch and the direction's frame counter (R304). -/
def encCounter (epoch : Bool) (ctr : Nat) : Bytes := beBytes 8 (b2n epoch * 2 ^ 63 + ctr % 2 ^ 63)

/-- The trailer of a frame forwarded after a late errored block: the target's CRC-64 fails (R285, R127). -/
def invertTrailer (f : Frame) : Frame := { f with crc := ~~~f.crc }

end Sys2Proof.Machine
end

