-- ==== Sys2Proof/Machine/Line.lean ====
section
/-!
DEFINITION. The line coding of a lane, as functions of bits and bytes (R32, R33, R279 to R291, R304): what stands on the
wire for the messages, frames and groups that the rows name. No row carries bits: the block's commands begin where a receiver
has found a unit, a group, or a codeword it cannot correct, and call of these what decides a unit's fate (log entry 41).
-/

namespace Sys2Proof.Machine
open Sys2Proof

/-! ### Attach messages as bytes (R32, R33) -/

/-- One bit of the reflected CRC-32. -/
def crc32Bit (c : BitVec 32) : BitVec 32 := if c.getLsbD 0 then (c >>> 1) ^^^ 0xEDB88320#32 else c >>> 1

/-- CRC-32 (R33): polynomial 0x04C1_1DB7, input and output reflected, initial value and final XOR all ones. -/
def crc32 (bs : Bytes) : BitVec 32 :=
  bs.foldl (fun c b => crc32Bit (crc32Bit (crc32Bit (crc32Bit (crc32Bit (crc32Bit (crc32Bit (crc32Bit
    (c ^^^ b.zeroExtend 32))))))))) 0xFFFFFFFF#32 ^^^ 0xFFFFFFFF#32

/-- The 24 header bytes of a message (R32). -/
def attHead (m : AttMsg) : Bytes :=
  [m.opc, BitVec.ofNat 8 (b2n m.ord * 128 + m.scope.toNat * 32 + b2n m.comb * 16 + b2n m.acq * 8 + m.rsv1.toNat)] ++
  beBytes 2 m.msn.toNat ++ beBytes 2 (m.rsvTag.toNat * 0x2000 + m.tag.toNat) ++
  beBytes 2 (m.rsvLen.toNat * 0x2000 + m.len.toNat) ++ beBytes 8 m.addr.toNat ++ beBytes 2 m.keyidx.toNat ++
  beBytes 4 m.keytag.toNat ++ [m.atop, m.status]

/-- Header, payload and padding to a multiple of 4 bytes (R32). -/
def attBody (m : AttMsg) : Bytes :=
  let b := attHead m ++ m.payload
  b ++ List.replicate ((4 - b.length % 4) % 4) 0

/-- The message as it stands on the link: its CRC-32 goes least significant byte first (R33). -/
def attBytes (m : AttMsg) : Bytes := attBody m ++ leBytes 4 (crc32 (attBody m)).toNat

/-- A received message passes its CRC-32 (R37). -/
def attCrcOk (bs : Bytes) : Bool :=
  decide (4 ≤ bs.length) && leNat (bs.drop (bs.length - 4)) == (crc32 (bs.take (bs.length - 4))).toNat

/-! ### Frames as units (R125, R281, R304) -/

/-- A frame as it stands on an unencrypted link: header, HCRC, payload and CRC-64. -/
def frameBytes (f : Frame) : Bytes := f.head ++ beBytes 2 f.hcrc.toNat ++ f.payload ++ beBytes 8 f.crc.toNat

/-- Bytes of a unit on a fabric port: 24 more where the link is encrypted, for COUNTER and the tag (R281, R304). -/
def frameUnit (f : Frame) (enc : Bool) : Nat := 32 + f.payload.length + 8 + (if enc then 24 else 0)

/-- An encrypted frame as it stands on the link: the header in clear, COUNTER, then the ciphertext of payload and trailer and the
GCM tag, as the engine gives them for the nonce of salt and COUNTER, with the header as authenticated data (R304). -/
def encBytes (key salt : Nat) (epoch : Bool) (ctr : Nat) (f : Frame) : Bytes :=
  let head := f.head ++ beBytes 2 f.hcrc.toNat
  let count := encCounter epoch ctr
  head ++ count ++ slice (Config.gcm key (beBytes 4 salt ++ count) head (f.payload ++ beBytes 8 f.crc.toNat)) 0 (f.payload.length + 24)

/-! ### Symbols and blocks (R279 to R282) -/

/-- The Gray-coded PAM4 level of two bits, the first sent more significant (R279). -/
def pamLevel (hi lo : Bool) : Int :=
  match hi, lo with
  | false, false => -3
  | false, true => -1
  | true, true => 1
  | true, false => 3

/-- A 66-bit block: its sync header and its 8 bytes (R280). -/
structure Block66 where
  sync  : BitVec 2
  bytes : Bytes
  deriving DecidableEq, Repr

/-- What a block is (R280). -/
inductive BlockKind where
  | data | idle | time | link | errored
  deriving DecidableEq, Repr

def Block66.kind (b : Block66) : BlockKind :=
  if b.sync = 1 then .data
  else if b.sync = 2 then
    (match b.bytes with
     | 0x1E :: _ => .idle
     | 0x4B :: _ => .time
     | 0x55 :: _ => .link
     | _ => .errored)
  else .errored

def idleBlock : Block66 := ⟨2, 0x1E :: List.replicate 7 0⟩

/-- The data blocks of a byte string, the last filled with zeros (R281). -/
def dataBlocks : Nat → Bytes → List Block66
  | 0, _ => []
  | n + 1, bs => if bs.isEmpty then [] else ⟨1, slice bs 0 8⟩ :: dataBlocks n (bs.drop 8)

/-- The blocks of a unit: it begins in the first byte of a data block and runs on in consecutive ones (R281). -/
def unitBlocks (bs : Bytes) : List Block66 := dataBlocks (ceilDiv bs.length 8) bs

/-- The blocks of a time or link group: one control block of this type, then three data blocks (R280). -/
def groupBlocks (ty : BitVec 8) (ctl data : Bytes) : List Block66 :=
  ⟨2, ty :: slice ctl 0 7⟩ :: dataBlocks 3 (slice data 0 24)

/-- The logical lane of block `n` on a port of width `w` (R281). -/
def laneOfBlock (w n : Nat) : Nat := n % w

/-- Scramble one payload bit with x^58 + x^39 + 1: the state holds the last 58 bits sent, the latest in bit 0 (R282). -/
def scrambleBit (st : BitVec 58) (b : Bool) : BitVec 58 × Bool :=
  let o := (b != st.getLsbD 38) != st.getLsbD 57
  ((st <<< 1) ||| BitVec.ofNat 58 (b2n o), o)

/-- Descramble one bit: the state holds the last 58 bits received, so 58 bits synchronise it (R282). -/
def descrambleBit (st : BitVec 58) (o : Bool) : BitVec 58 × Bool :=
  ((st <<< 1) ||| BitVec.ofNat 58 (b2n o), (o != st.getLsbD 38) != st.getLsbD 57)

def scramble : BitVec 58 → List Bool → List Bool
  | _, [] => []
  | st, b :: bs => (scrambleBit st b).2 :: scramble (scrambleBit st b).1 bs

def descramble : BitVec 58 → List Bool → List Bool
  | _, [] => []
  | st, b :: bs => (descrambleBit st b).2 :: descramble (descrambleBit st b).1 bs

/-- The bits of a byte string in the order they are sent. DESIGN CHOICE, unsafe (log 133): bit 0 of a byte goes first. -/
def bitsOut (bs : Bytes) : List Bool := bs.flatMap (fun b => (List.range 8).map b.getLsbD)

/-- The scrambler of one lane and direction after it has sent these payload bits. -/
def scrambleState (st : BitVec 58) (bs : List Bool) : BitVec 58 := bs.foldl (fun st b => (scrambleBit st b).1) st

/-- The 66 bits of a block: its sync header as it is, and the 64 payload bits scrambled (R280, R282). -/
def blockOut (st : BitVec 58) (b : Block66) : List Bool :=
  [b.sync.getLsbD 1, b.sync.getLsbD 0] ++ scramble st (bitsOut (slice b.bytes 0 8))

/-- The blocks of one lane in one direction: the scrambler's state runs on from block to block and is never reset. -/
def laneOut : BitVec 58 → List Block66 → List Bool
  | _, [] => []
  | st, b :: bs => blockOut st b ++ laneOut (scrambleState st (bitsOut (slice b.bytes 0 8))) bs

/-! ### Codewords (R283) -/

/-- Times x in GF(2^10) with x^10 + x^3 + 1. -/
def gfTwice (a : BitVec 10) : BitVec 10 := if a.getLsbD 9 then (a <<< 1) ^^^ 9#10 else a <<< 1

/-- The product in GF(2^10), over the bits of the second factor. -/
def gfMul (a b : BitVec 10) : BitVec 10 :=
  ([9, 8, 7, 6, 5, 4, 3, 2, 1, 0] : List Nat).foldl
    (fun acc i => if b.getLsbD i then gfTwice acc ^^^ a else gfTwice acc) 0

/-- α^i for i < 14. -/
def gfPow : Nat → BitVec 10
  | 0 => 1
  | n + 1 => gfTwice (gfPow n)

/-- The coefficients of g(x) below its leading one, highest power first: (x − α^0) … (x − α^13). -/
def rsGen : List (BitVec 10) :=
  ((List.range 14).foldl (fun (g : List (BitVec 10)) i =>
    List.zipWith (· ^^^ ·) (g ++ [0]) (0 :: g.map (fun c => gfMul c (gfPow i)))) [1]).drop 1

/-- One data symbol through the systematic encoder; the register's first symbol has the highest power. -/
def rsShift (reg : List (BitVec 10)) (d : BitVec 10) : List (BitVec 10) :=
  let f := d ^^^ reg.headD 0
  List.zipWith (fun r g => r ^^^ gfMul f g) (reg.drop 1 ++ [0]) rsGen

/-- The codeword of 258 data symbols: they go first, then the 14 parity symbols. -/
def rsEncode (data : List (BitVec 10)) : List (BitVec 10) := data ++ data.foldl rsShift (List.replicate 14 0)

/-- The value of the received polynomial at α^i, the first symbol of the highest power. -/
def rsSyndrome (cw : List (BitVec 10)) (i : Nat) : BitVec 10 := cw.foldl (fun acc c => gfMul acc (gfPow i) ^^^ c) 0

/-- A word of the code. -/
def rsWord (cw : List (BitVec 10)) : Bool := (List.range 14).all (fun i => rsSyndrome cw i == 0)

/-- Symbols in which two words differ. -/
def rsErrors (a b : List (BitVec 10)) : Nat := ((a.zip b).filter (fun x => x.1 != x.2)).length

/-- A received word is corrected to the word sent exactly when at most 7 of its symbols are wrong. -/
def rsCorrects (sent got : List (BitVec 10)) : Bool :=
  rsWord sent && got.length == sent.length && decide (rsErrors sent got ≤ 7)

/-- Ten bits as a symbol, bit 0 first. -/
def symbolOf (bs : List Bool) : BitVec 10 := BitVec.ofNat 10 ((List.range 10).foldl (fun n i => n + b2n (bs.getD i false) * 2 ^ i) 0)

/-- Bits as symbols of ten. -/
def symbols : Nat → List Bool → List (BitVec 10)
  | 0, _ => []
  | n + 1, bs => symbolOf bs :: symbols n (bs.drop 10)

/-- The codeword of 39 blocks of a lane and the 6 marker bits that follow them: 2,574 + 6 bits in 258 symbols, none of the marker
bits scrambled (R282, R283). -/
def laneCodeword (st : BitVec 58) (blocks : List Block66) (marks : Nat) : List (BitVec 10) :=
  rsEncode (symbols 258 (laneOut st blocks ++ (List.range 6).map (fun i => marks.testBit (5 - i))))

/-- The bits of received symbols. -/
def symbolBits (cw : List (BitVec 10)) : List Bool := cw.flatMap (fun c => (List.range 10).map c.getLsbD)

/-- Bytes from their bits. -/
def bytesIn_ : Nat → List Bool → Bytes
  | 0, _ => []
  | n + 1, bs => BitVec.ofNat 8 ((List.range 8).foldl (fun m i => m + b2n (bs.getD i false) * 2 ^ i) 0) :: bytesIn_ n (bs.drop 8)

/-- One received block: its sync header, and its payload descrambled (R282). -/
def blockIn (st : BitVec 58) (bs : List Bool) : Block66 :=
  ⟨BitVec.ofNat 2 (2 * b2n (bs.getD 0 false) + b2n (bs.getD 1 false)), bytesIn_ 8 (descramble st ((bs.drop 2).take 64))⟩

/-- The blocks of received bits of one lane in one direction. -/
def laneIn : Nat → BitVec 58 → List Bool → List Block66
  | 0, _, _ => []
  | n + 1, st, bs =>
    blockIn st bs :: laneIn n (((bs.drop 2).take 64).foldl (fun st b => (descrambleBit st b).1) st) (bs.drop 66)

/-- The 39 blocks and the 6 marker bits of a corrected codeword (R283). -/
def codewordIn (st : BitVec 58) (cw : List (BitVec 10)) : List Block66 × Nat :=
  let bs := symbolBits (cw.take 258)
  (laneIn 39 st bs, ((bs.drop 2574).take 6).foldl (fun m b => 2 * m + b2n b) 0)

/-! ### Lane markers (R284) -/

/-- CRC-8, polynomial 0x07, initial value 0. -/
def crc8 (bs : Bytes) : BitVec 8 := bs.foldl (crcByte 0x07#8) 0

/-- Marker bits 47 to 8. -/
def markerHead (lane port group : Nat) : Nat := lane % 16 * 2 ^ 44 + port % 128 * 2 ^ 37 + group % 2 ^ 21 * 2 ^ 16 + 0xA5 * 2 ^ 8

/-- The 48-bit marker of a lane. -/
def marker (lane port group : Nat) : Nat :=
  markerHead lane port group + (crc8 (beBytes 5 (markerHead lane port group / 256))).toNat

/-- The 6 bits that codeword `i` of the group carries: codeword 0 the highest. -/
def markerPart (m i : Nat) : Nat := bitsOf m (42 - 6 * i) 6

/-- FIXED and CHK are right; otherwise the marker is ignored. -/
def markerOk (m : Nat) : Bool := bitsOf m 8 8 == 0xA5 && bitsOf m 0 8 == (crc8 (beBytes 5 (m / 256))).toNat

/-- The marker of a group from the 6 bits of its 8 codewords. -/
def markerOf (parts : List Nat) : Nat := (parts.take 8).foldl (fun m p => m * 64 + p % 64) 0

/-- The GROUP a marker carries. -/
def markerGroup (m : Nat) : Nat := bitsOf m 16 21

/-- The group after `g`, equally on every lane of a port. -/
def groupAfter (g : Nat) : Nat := (g + 1) % 2 ^ 21

/-- The GROUP a receiver takes for a marker where it predicted `g`: the marker's own, or the predicted one where FIXED or CHK is
wrong and the marker is ignored. -/
def groupHeld (g m : Nat) : Nat := if markerOk m then markerGroup m else g

/-- The marker phase of a locked lane: the first codeword position at which FIXED and CHK pass for 2 consecutive groups (R287);
`parts` are the marker bits of the codewords since LOCK. -/
def markerPhase (parts : List Nat) : Option Nat :=
  (List.range 8).find? (fun k => decide (k + 16 ≤ parts.length) && markerOk (markerOf (parts.drop k)) &&
    markerOk (markerOf (parts.drop (k + 8))))

/-- The logical lane of the physical lane that a marker names, where `order` lists the physical lanes by logical number (R288). -/
def logicalOf (order : List Nat) (m : Nat) : Option Nat := order.findIdx? (fun k => k == bitsOf m 44 4)

/-! ### Errored blocks and delineation (R285, R286) -/

/-- What becomes of a unit with an errored block. -/
inductive UnitFate where
  | whole                                -- no errored block
  | undelineated                         -- discarded as a failed header check; delineation is lost
  | inverted                             -- a frame forwarded with its trailer inverted
  | dropped                              -- a message discarded as a bad CRC-32
  deriving DecidableEq, Repr

/-- The fate of a unit whose blocks are errored where the list says so, on an A-port or a fabric port (R285). -/
def unitFate (attach : Bool) (errored : List Bool) : UnitFate :=
  if !errored.any id then .whole
  else if (errored.take (if attach then 3 else 4)).any id then .undelineated
  else if attach then .dropped else .inverted

/-! ### Codeword lock (R287) and alignment (R288) -/

/-- A lane receiver. -/
inductive Hunt where
  | hunt (o : Nat)                       -- at this candidate bit offset
  | test (o good : Nat)                  -- codewords that have passed
  | locked (o bad : Nat)                 -- consecutive codewords that failed
  deriving DecidableEq, Repr

/-- The offset after `o` of the 2,720 of a codeword. -/
def nextOffset (o : Nat) : Nat := (o + 1) % 2720

/-- One look at the codeword at the offset: how many of its 39 sync headers are invalid (after correction, once locked), and
whether it decodes. -/
def huntStep (h : Hunt) (badHeads : Nat) (decodes : Bool) : Hunt :=
  match h with
  | .hunt o => if badHeads = 0 then .test o 0 else .hunt (nextOffset o)
  | .test o good => if badHeads = 0 ∧ decodes = true then (if good = 3 then .locked o 0 else .test o (good + 1)) else .hunt (nextOffset o)
  | .locked o bad =>
    if decodes = true ∧ badHeads ≤ 8 then .locked o 0 else if bad = 2 then .hunt (nextOffset o) else .locked o (bad + 1)

/-- LNK_STATUS.LOCK. -/
def Hunt.isLocked : Hunt → Bool
  | .locked _ _ => true
  | _ => false

/-- The lanes of a port can be aligned: their arrival times, in units of 0.1 ns, differ by at most 80 ns (R288). -/
def skewOk (arrivals : List Nat) : Bool := arrivals.all (fun a => arrivals.all (fun b => decide (a ≤ b + 800)))

/-- In UP a lane's skew wanders by at most 1 ns from where it was aligned (R288). -/
def wanderOk (was now : Int) : Bool := decide (now - was ≤ 10 ∧ was - now ≤ 10)

/-! ### Time groups and link groups (R289 to R291) -/

/-- A time group on the line (R289); an A-port fills the two echoes with 0. -/
def timeGroupBlocks (g : TimeGroup) : List Block66 :=
  groupBlocks 0x4B
    ([g.seq, BitVec.ofNat 8 (b2n g.isGm * 8 + g.state.toNat), g.depth] ++ beBytes 2 g.gmNode.toNat ++ [0, 0])
    (beBytes 8 g.tx.toNat ++ beBytes 8 g.echoRx.toNat ++ beBytes 8 g.echoTx.toNat)

/-- A link group of this content (R290): 29 bytes, then their CRC-16, the more significant byte first. -/
def linkGroupBlocks (content : Bytes) : List Block66 :=
  let c := slice content 0 29
  groupBlocks 0x55 (c.take 7) (c.drop 7 ++ beBytes 2 (crc16 c).toNat)

/-- The content of received link group bytes, control bytes 1 to 7 and the 24 data bytes, where its CRC passes (R290). -/
def linkContent (bs : Bytes) : Option Bytes :=
  let c := slice bs 0 29
  if beField bs 29 2 = (crc16 c).toNat then some c else none

def statusContent (st : BitVec 8) (ready : Bool) : Bytes := [1, st, BitVec.ofNat 8 (b2n ready)]

/-- CAPS (R291). -/
def capsContent (c : Caps) : Bytes :=
  [2, c.role, c.rates, c.trev, BitVec.ofNat 8 c.enc.toNat] ++ beBytes 2 c.node.toNat ++ [c.port, c.mode] ++
  beBytes 8 c.unitId.toNat ++ beBytes 2 c.lanes.toNat

/-- The CAPS of a content, where its KIND is CAPS (R291). -/
def parseCaps (b : Bytes) : Option Caps :=
  if beField b 0 1 = 2 then
    some { role := BitVec.ofNat 8 (beField b 1 1), rates := BitVec.ofNat 8 (beField b 2 1), trev := BitVec.ofNat 8 (beField b 3 1)
           enc := BitVec.ofNat 2 (beField b 4 1), node := BitVec.ofNat 16 (beField b 5 2), port := BitVec.ofNat 8 (beField b 7 1)
           mode := BitVec.ofNat 8 (beField b 8 1), unitId := BitVec.ofNat 64 (beField b 9 8), lanes := BitVec.ofNat 9 (beField b 17 2) }
  else none

def coeffContent (c : Coeff) : Bytes := [3, BitVec.ofNat 8 c.lane.val, c.req, c.tap, c.preset, c.reply]

def widthContent (w : WidthMsg) : Bytes :=
  [4, w.op] ++ beBytes 2 w.mask.toNat ++ beBytes 3 w.group.toNat ++ [BitVec.ofNat 8 (b2n w.ok)]

def downContent (reason : BitVec 8) : Bytes := [5, reason]

/-- What a link group says (R290). -/
inductive LinkMsg where
  | status (state : BitVec 8) (ready : Bool)
  | caps (c : Caps)
  | coeff (c : Coeff)
  | width (w : WidthMsg)
  | down (reason : BitVec 8)
  deriving DecidableEq, Repr

/-- The content of a link group by its KIND; one of another KIND is ignored as IDLE is, and so are reserved bits. -/
def parseLink (b : Bytes) : Option LinkMsg :=
  let k := beField b 0 1
  let at_ := fun i => BitVec.ofNat 8 (beField b i 1)
  if k = 1 then some (.status (at_ 1) ((at_ 2).getLsbD 0))
  else if k = 2 then (parseCaps b).map .caps
  else if k = 3 then
    if h : beField b 1 1 < 9 then some (.coeff ⟨⟨beField b 1 1, h⟩, at_ 2, at_ 3, at_ 4, at_ 5⟩) else none
  else if k = 4 then some (.width ⟨at_ 1, BitVec.ofNat 9 (beField b 2 2), BitVec.ofNat 24 (beField b 4 3), (at_ 7).getLsbD 0⟩)
  else if k = 5 then some (.down (at_ 1))
  else none

end Sys2Proof.Machine
end

