-- ==== Sys2Proof/Machine/Sys.lean ====
section
/-!
DEFINITION. The 2 GiB system partition of the Stacks (R64, R237): region descriptors (R73) and translation
buckets (R65) as the bytes they are stored in, and the tenant slot a tenant holds (R309, R437).
-/

namespace Sys2Proof.Machine
open Sys2Proof

/-- Stacks offset at which the system partition begins: tenant space is 142 GiB (R237). -/
abbrev sysPart : Nat := 142 * 2 ^ 30

/-- Bytes of the system partition. -/
def sysRead (s : State) (x n : Nat) : Bytes := memRead s.home.stk (sysPart + x) n

/-- Write bytes of the system partition. -/
def sysWrite (x : Nat) (bs : Bytes) (s : State) : State :=
  { s with home := { s.home with stk := memWrite s.home.stk (sysPart + x) bs } }

/-- The management interfaces, on die E3, are reached: management port, flash, I3C and JTAG (R9, R10). -/
def mgmtUp (s : State) : Bool := !(tget {} s.chip.bridges 3).down

/-! ### Channels of the tiers (R237, R238) -/

/-- The pseudo-channel (0 to 127) or package (128 + k) that serves an offset of the Stacks (SPACE 1) or
the Annex (SPACE 2); consecutive 4 KiB units of an interleave set rotate over the set's channels. -/
def channelOf (s : State) (space off : Nat) : Option Nat :=
  if space = 1 then
    if sysPart ≤ off then some ((off - sysPart) / 4096 % 128)
    else
      let o := stkBase + 0x100 + off / (9088 * 2 ^ 20) * 4
      let n := 2 ^ fieldOf s o 20 3
      let base := off / (9088 * 2 ^ 20) / n * n
      some ((base * 8 + (off - base * (9088 * 2 ^ 20)) / 4096 % (8 * n)) % 128)
  else if space = 2 then
    let o := anxBase + 0x100 + off / (96 * 2 ^ 30) * 4
    let n := 2 ^ fieldOf s o 20 3
    let base := off / (96 * 2 ^ 30) / n * n
    some (128 + (base + (off - base * (96 * 2 ^ 30)) / 4096 % n) % 16)
  else none

/-- The partition unit an offset of the Stacks or the Annex lies in (R28, R238). -/
def unitAt (space off : Nat) : Option ScrubUnit :=
  if space = 1 then
    let g := off / (9088 * 2 ^ 20)
    if h : g < 16 then some (.stacksGroup ⟨g, h⟩) else none
  else if space = 2 then
    let k := off / (96 * 2 ^ 30)
    if h : k < 16 then some (.annexPackage ⟨k, h⟩) else none
  else none

/-- A slot holds the unit. -/
def unitHeld (s : State) (u : ScrubUnit) : Bool :=
  s.ten.ten.any (fun x => match u with
    | .stacksGroup g => x.2.stk.getLsbD g.val
    | .annexPackage k => x.2.anx.getLsbD k.val
    | _ => false)

/-- The line holds ciphertext of keys that are gone: its unit, or in shared tenancy the region it lies in,
waits for its scrub, after a release, a reset or a debug unlock (R315, R319, R321, R368). -/
def keysGone (s : State) (space off : Nat) : Bool :=
  (match unitAt space off with | some u => !s.ten.clean.contains u && !unitHeld s u | none => false) ||
  s.ten.ten.any (fun x =>
    (match unitAt space off with | some u => x.2.dirty.contains u | none => false) ||
    (x.2.state == .scrubbing && x.2.areas.any (fun r => r.1 == space && decide (r.2.1 ≤ off ∧ off < r.2.1 + r.2.2))))

/-- The offset lies in a channel that is out of service (R243), or in a tier that is: STK_CTRL.EN or ANX_CTRL.EN is 0
(R259, R260; DEDUCED, log 81: with the effect R243 gives the loss of every channel). -/
def offsetOut (s : State) (space off : Nat) : Bool :=
  (space == 1 && !bitAt s stkBase 0) || (space == 2 && !bitAt s anxBase 0) ||
  match channelOf s space off with
  | some c => s.home.pcOut.contains c
  | none => false

/-- The key of a line in the poison list. -/
def lineKey (space off : Nat) : Nat := space * 2 ^ 44 + off / 128 * 128

/-- The line is marked poisoned in its sideband (R241). -/
def poisoned (s : State) (space off : Nat) : Bool := s.home.poison.contains (lineKey space off)

/-- A read of a line of the system partition fails: its unit is out of service, the line is poisoned, or
the read meets an uncorrectable line (R238), or the partition's keys are gone (R319). -/
def sysReadFails (s : State) (x : Nat) (ecc : Ecc) : Bool :=
  s.ten.sysKey == 0 ||
  offsetOut s 1 (sysPart + x) || poisoned s 1 (sysPart + x) || ecc == .uncorrectable

/-! ### Errors found on a read (R241, R243) -/

def cntTierCe (c : Nat) : Cnt := if c < 128 then cntStkCeCnt c else cntAnxCeCnt (c - 128)
def cntTierUe (c : Nat) : Cnt := if c < 128 then cntStkUeCnt c else cntAnxUeCnt (c - 128)

/-- The unit a pseudo-channel or package is part of (R28, R237). -/
def unitOfChannel (c : Nat) : Option ScrubUnit :=
  if h : c < 128 then some (.stacksGroup ⟨c / 8, by omega⟩)
  else if h : c - 128 < 16 then some (.annexPackage ⟨c - 128, h⟩) else none

/-- A channel of the unit is out of service (R243, R377). -/
def unitOut (s : State) (u : ScrubUnit) : Bool := s.home.pcOut.any (fun c => unitOfChannel c == some u)

/-- The bit of a unit in the failed-unit mask of R329: Stacks groups in the low half, Annex packages above. -/
def unitBit (u : ScrubUnit) : Nat :=
  match u with
  | .stacksGroup g => 2 ^ g.val
  | .annexPackage k => 2 ^ (16 + k.val)
  | _ => 0

/-- A unit failed its scrub: it is held by no slot and offered to no tenant (R315). -/
def unitFailed (u : ScrubUnit) (s : State) : State :=
  if s.home.failed.contains u then s
  else raiseSec evSecUnitFailed (unitBit u) { s with home := { s.home with failed := u :: s.home.failed } }

/-- A unit goes out of service: while a slot has it scrubbed, it is marked failed at once (R315, R324). -/
def unitLost (u : ScrubUnit) (s : State) : State :=
  if s.ten.ten.any (fun x => x.2.state == .scrubbing && x.2.dirty.contains u) then unitFailed u s else s

/-- A pseudo-channel or package goes out of service, with its notice (R243, R394). -/
def channelFail (c : Nat) (s : State) : State :=
  if s.home.pcOut.contains c then s
  else
    let s := match unitOfChannel c with | some u => unitLost u s | none => s
    let s := { s with home := { s.home with pcOut := insertNat c s.home.pcOut } }
    notice .channelOut Status.tierFailed.code (memEp s) (if c < 128 then 880 + c else 1008 + (c - 128)) s

/-- A line is found uncorrectable: it is poisoned and counted; at 256 its channel goes out of service. -/
def foundUe (space off : Nat) (s : State) : State :=
  match channelOf s space off with
  | none => s
  | some c =>
    if poisoned s space off then s
    else
      let n := tget 0 s.home.pcUe c + 1
      let s := { s with home := { s.home with poison := insertNat (lineKey space off) s.home.poison,
                                              pcUe := tput 0 s.home.pcUe c n } }
      let s := bump (cntTierUe c) s
      if 256 ≤ n then channelFail c s else s

/-- A corrected line is rewritten and counted (R241). -/
def foundCe (space off : Nat) (s : State) : State :=
  match channelOf s space off with
  | some c => bump (cntTierCe c) s
  | none => s

/-- What a read of a line finds is counted, and an uncorrectable line poisoned; a line out of service or already poisoned
is not read afresh (R241). -/
def found (space off : Nat) (ecc : Ecc) (s : State) : State :=
  if offsetOut s space off || poisoned s space off then s
  else match ecc with
    | .clean => s
    | .corrected => foundCe space off s
    | .uncorrectable => foundUe space off s

/-- `found` for a line of the system partition that was looked for, if it was anywhere. -/
def sysFound (x : Option Nat) (ecc : Ecc) (s : State) : State :=
  match x with
  | some x => found 1 (sysPart + x) ecc s
  | none => s

/-- Clear a line's poison: a full-line write replaces it (R121, R241). -/
def clearPoison (space off : Nat) (s : State) : State :=
  { s with home := { s.home with poison := s.home.poison.filter (fun x => !(x == lineKey space off)) } }

/-! ### Region descriptors (R73) -/

/-- A region descriptor as a key check reads it. -/
structure Region where
  v      : Bool
  r      : Bool
  w      : Bool
  a      : Bool
  meas   : Bool
  space  : Nat
  tenant : Nat
  keytag : Nat
  base   : Nat
  len    : Nat
  deriving DecidableEq, Repr

/-- The descriptor the four words give; reserved bits or values make it invalid (R73). -/
def parseRegion (bs : Bytes) : Region :=
  let w0 := leField bs 0 8
  let w1 := leField bs 8 8
  let w2 := leField bs 16 8
  let w3 := leField bs 24 8
  let space := bitsOf w0 8 4
  let meas := w0.testBit 4
  let base := bitsOf w1 0 44
  let len := bitsOf w2 0 44
  let ok := bitsOf w0 5 3 == 0 && bitsOf w0 24 8 == 0 && bitsOf w1 44 20 == 0 && bitsOf w2 44 20 == 0 &&
    w3 == 0 && decide (space ≤ 3) && (!meas || space == 1 || space == 2) && base % 4096 == 0 &&
    len % 4096 == 0 && len != 0
  { v := w0.testBit 0 && ok, r := w0.testBit 1, w := w0.testBit 2, a := w0.testBit 3, meas := meas
    space := space, tenant := bitsOf w0 12 12, keytag := bitsOf w0 32 32, base := base, len := len }

/-- Where an endpoint's descriptor `i` lies in the system partition; none for an endpoint this device
holds no copy for and for an ID that names none (R13, R64, R73). -/
def regionAt (s : State) (ep i : Nat) : Option Nat :=
  if ep = memEp s then some (0x09000000 + i * 32)
  else if ep < 0x4800 ∧ ep / 72 = s.fab.rack.toNat ∧ !emptySlot s ep then some (ep % 72 * 0x00200000 + i * 32)
  else none

/-- The valid pairs of SPACE and ENDPOINT (R59). -/
def spaceFits (ep space : Nat) : Bool :=
  if ep < 0x4800 then space == 0 else decide (ep < 0x5000) && decide (1 ≤ space ∧ space ≤ 3)

/-- The descriptor of an endpoint held here; one whose SPACE is reserved for the endpoint acts as V = 0 (R59, R73). -/
def readRegion (s : State) (ep i : Nat) : Option Region :=
  (regionAt s ep i).map (fun x =>
    let d := parseRegion (sysRead s x 32)
    { d with v := d.v && spaceFits ep d.space })

/-- The descriptor of an endpoint held here as a read finds it: one whose line cannot be read acts as V = 0 (R238). -/
def goodRegion (s : State) (ep i : Nat) : Option Region :=
  match regionAt s ep i with
  | some x => if sysReadFails s x .clean then none else readRegion s ep i
  | none => none

/-- The rights an access needs. -/
inductive Need where
  | r | w | a
  deriving DecidableEq, Repr

/-- The key check of R74 over `len` bytes at offset `off`. -/
def Region.admits (d : Region) (tenant keytag space off len : Nat) (n : Need) : Bool :=
  d.v && d.tenant == tenant && d.keytag == keytag && d.space == space && decide (d.base ≤ off) &&
  decide (off + len ≤ d.base + d.len) &&
  (match n with | .r => d.r | .w => d.w | .a => d.a)

/-! ### Translation tables (R65 to R67) -/

/-- The valid XLT_TBL_n of a cluster's translator for a tenant: k and the table's offset (R80). DESIGN CHOICE, unsafe (log 80):
where several name the tenant, which the host must not write, the lowest n counts. -/
def tableOf (s : State) (c tenant : Nat) : Option (Nat × Nat) :=
  (List.range 64).findSome? (fun n =>
    let o := xltBase c + 0x100 + n * 8
    if bitAt s o 0 && fieldOf s o 4 12 == tenant then
      some (fieldOf s o 16 5, (word s (o + 4)).toNat * 128) else none)

/-- The hash of R66. -/
def bucketHash (tenant : Nat) (f : Bool) (sel vpn k : Nat) : Nat :=
  let x := tenant * 2 ^ 43 + b2n f * 2 ^ 42 + sel * 2 ^ 27 + vpn
  (x * 0x9E3779B97F4A7C15) % 2 ^ 64 / 2 ^ (64 - k)

/-- A slot's two words (R65). -/
structure SlotW where
  w0 : Nat
  w1 : Nat
  deriving DecidableEq, Repr

def SlotW.v (x : SlotW) : Bool := x.w0.testBit 0
def SlotW.big (x : SlotW) : Bool := x.w0.testBit 1
def SlotW.f (x : SlotW) : Bool := x.w0.testBit 2
def SlotW.sel (x : SlotW) : Nat := bitsOf x.w0 3 15
def SlotW.vpn (x : SlotW) : Nat := bitsOf x.w0 18 27
def SlotW.tenant (x : SlotW) : Nat := bitsOf x.w0 45 12
def SlotW.pin (x : SlotW) : Bool := x.w1.testBit 0
def SlotW.r (x : SlotW) : Bool := x.w1.testBit 1
def SlotW.w (x : SlotW) : Bool := x.w1.testBit 2
def SlotW.a (x : SlotW) : Bool := x.w1.testBit 3
def SlotW.space (x : SlotW) : Nat := bitsOf x.w1 8 4
def SlotW.endpoint (x : SlotW) : Nat := bitsOf x.w1 12 16
def SlotW.ppn (x : SlotW) : Nat := bitsOf x.w1 28 23

/-- The slot matches a page (R67). -/
def SlotW.covers (x : SlotW) (tenant : Nat) (f : Bool) (sel vpn : Nat) : Bool :=
  x.v && x.tenant == tenant && x.f == f && x.sel == sel &&
  (if x.big then x.vpn / 512 == vpn / 512 else x.vpn == vpn)

/-- The reserved bits of a slot are 0, and so are SEL[17:6] of a slot with F = 1 and the low VPN and PPN bits of a 1 GiB
one (R65). -/
def SlotW.bitsOk (x : SlotW) : Bool :=
  bitsOf x.w0 57 7 == 0 && bitsOf x.w1 4 4 == 0 && bitsOf x.w1 51 13 == 0 && (!x.f || decide (x.sel < 8)) &&
  (!x.big || (x.vpn % 512 == 0 && x.ppn % 512 == 0))

/-- The slot is well formed: SPACE and ENDPOINT agree with R59 and the F bit (R67), and no bit that R65 reserves is set:
a record with a reserved value ends the request with MALFORMED (R5; DEDUCED, log 22). -/
def SlotW.wf (x : SlotW) : Bool :=
  x.bitsOk &&
  if x.f then
    (x.space == 1 || x.space == 2 || x.space == 3) && decide (0x4800 ≤ x.endpoint ∧ x.endpoint < 0x5000) &&
    (x.endpoint - 0x4800) % 8 == x.sel % 8
  else x.space == 0 && decide (x.endpoint < 0x4800) && x.endpoint == x.sel

/-- The eight slots of a bucket. -/
def bucketSlots (bs : Bytes) : List SlotW :=
  (List.range 8).map (fun i => ⟨leField bs (16 * i) 8, leField bs (16 * i + 8) 8⟩)

/-- The pinned slot a translation uses: the lowest-numbered pinned match (R67, R69). -/
def pinnedSlot (bs : Bytes) (tenant : Nat) (f : Bool) (sel vpn : Nat) : Option SlotW :=
  (bucketSlots bs).find? (fun x => x.pin && x.covers tenant f sel vpn)

/-- The bytes of a page's bucket in a cluster's table. -/
def bucketAddr (s : State) (c tenant : Nat) (f : Bool) (sel vpn : Nat) : Option Nat :=
  (tableOf s c tenant).map (fun t => t.2 + bucketHash tenant f sel vpn t.1 * 128)

/-! ### Tenant slots -/

/-- The tenant slot whose SWC_TEN_n names a tenant (R437). -/
def swcSlot (s : State) (tenant : Nat) : Option Nat :=
  (List.range 64).find? (fun n => let o := swcBase + 0x100 + n * 4; bitAt s o 0 && fieldOf s o 4 12 == tenant)

/-- Tenants admitted for the shares of R310: every slot in isolated tenancy. -/
def admittedN (s : State) : Nat :=
  if s.ten.shared then (s.ten.ten.filter (fun x => x.2.state != .free)).length else s.ten.slots

/-- The tenant slot a tenant occupies (R314). -/
def slotOfTenant (s : State) (tenant : Nat) : Option Nat :=
  (s.ten.ten.find? (fun x => x.2.state != .free && x.2.tenant.toNat == tenant)).map (·.1)

end Sys2Proof.Machine
end

