-- ==== Sys2Proof/Machine/Fabric.lean ====
section
/-!
DEFINITION. The switching core's queues: routes and egresses (R134), cells and shares (R262 to R265),
egress queues (R267, R437), congestion marks (R272), windows (R163), the arbiter (R268 to R271) and
mirror sessions (R274 to R276).
-/

namespace Sys2Proof.Machine
open Sys2Proof

abbrev egMem : Nat := 88
abbrev egHost : Nat := 89
abbrev egCtl : Nat := 90
/-- Home point numbers: 0 to 71 the target End-point Blocks, 72 MEM, 73 HOST. -/
abbrev hpMem : Nat := 72
abbrev hpHost : Nat := 73

/-! ### Ports, rates and routes -/

/-- Lanes of a PRT_STATUS.WIDTH code (R307). -/
def lanesOf (w : Nat) : Nat := if w = 0 then 8 else if w = 1 then 4 else if w = 2 then 2 else 0

/-- Data rate of an egress in GB/s: lane rate times active width for a port; the capacity of R19 for an
internal port. -/
def rateOf (s : State) (e : Nat) : Nat :=
  if e < 88 then
    let p := portSt s e
    (if p.fullRate then 390 else 195) * lanesOf p.width.toNat / 8
  else if e = egMem then 6400 else if e = egHost then 64 else 32

/-- Bytes a frame takes on the wire of an egress: on a fabric port the data blocks it fills, with the 24 bytes an encrypted
link adds (R281, R304). -/
def linkBytes (s : State) (e : Nat) (f : Frame) : Nat :=
  if decide (e < 88) && isFabricPort s e then ceilDiv (f.size + if (portSt s e).enc then 24 else 0) 8 * 8 else f.size

/-- Ticks a frame of `n` bytes takes at `r` GB/s, rounded up: r / 4 bytes pass in a tick. -/
def frameTicks (n r : Nat) : Nat := if r = 0 then 0 else ceilDiv (4 * n) r

/-- The routes towards a node: egress sequences (R134). -/
def routesTo (s : State) (node : Nat) : List (List Nat) :=
  ((s.fab.routes.find? (fun x => x.1.toNat == node)).map (·.2)).getD []

/-- The route a PATH value names (R134). -/
def routeOf (s : State) (node path : Nat) : Option (List Nat) :=
  let rs := routesTo s node
  if rs.isEmpty then none else rs[path % rs.length]?

/-- The home path of a stream of frames from `src` to `dst`, as either end reckons it over its routes to the other (R134). -/
def homePath (s : State) (src dst : Nat) : Nat :=
  let far := if epNode s dst = some (nodeId s) then src else dst
  match epNode s far with
  | some n => let k := (routesTo s n).length; if k = 0 then 0 else (src + 7 * dst) % k
  | none => 0

/-- The egress a frame leaves by: an End-point Block, MEM or HOST of this node, CTL for Repex Control to
this node, or the first F-port of its route (R134). -/
def egressFor (s : State) (f : Frame) : Option Nat :=
  let d := f.dst.toNat
  match epNode s d with
  | none => none
  | some n =>
    if n = nodeId s then
      if f.type == tCtl then some egCtl
      else if d < 0x4800 then some (d % 72)
      else if f.type == tReq && f.space == 3 && !(decide (0x40 ≤ f.opc.toNat ∧ f.opc.toNat ≤ 0x44)) then some egHost
      else some egMem
    else match routeOf s n f.path.toNat with
      | some (e :: _) => some e
      | _ => none

/-! ### Windows -/

/-- Time-division mode is on at an egress (R269, SWC_PORT_n.TDM). -/
def tdmAt (s : State) (e : Nat) : Bool := decide (e < 88) && s.ten.tdmOn && isFabricPort s e

/-- The owner code of the present slot of a port's cluster (R269, SWC_TDM_c). -/
def slotOwner (s : State) (p t : Nat) : Nat :=
  let k := t / 256 % 64
  fieldOf s (swcBase + 0x1000 + p / 8 * 0x40 + k / 4 * 4) (8 * (k % 4)) 8

/-- A window of the tenant is open on the egress; in time-division mode only in the tenant's slots
(R163, R271). -/
def windowOpen (s : State) (e tenant : Nat) : Bool :=
  s.sw.wins.any (fun w => w.isOpen && w.port == e && w.tenant.toNat == tenant) &&
  (!tdmAt s e || swcSlot s tenant == some (slotOwner s e (replica .core s)))

/-- The window open on an egress now. -/
def openWindow (s : State) (e : Nat) : Option OpenWin := s.sw.wins.find? (fun w => w.isOpen && w.port == e)

/-- The shift in force at an unshifted time: each slip counts from its effective time on (R162). -/
def shiftAt (a : Almanac) (base : Nat) : Nat :=
  a.quanta.foldl (fun sh q => if q.1 ≤ base + sh then sh + q.2 else sh) a.shift

/-- The job's shift with every slip applied, those still to take effect included. -/
def shiftAll (a : Almanac) : Nat := a.quanta.foldl (fun sh q => sh + q.2) a.shift

/-- When an entry of an iteration falls due (R162). -/
def dueAt (a : Almanac) (iter off : Nat) : Nat :=
  let base := a.start + iter * a.period + off
  base + shiftAt a base

/-- The first due time at or after `t` of an entry of an Almanac, slips still to take effect included (R162). -/
def entryDue (a : Almanac) (off t : Nat) : Option Nat :=
  let b := a.start + off
  -- an iteration before the first tried is due before `t` under every shift, the last tried is not
  let i0 := (t - b - shiftAll a) / Nat.max 1 a.period
  let n := (shiftAll a - a.shift) / Nat.max 1 a.period + 2
  if a.period = 0 then none
  else ((List.range (n + 1)).map (fun k => i0 + k)).findSome? (fun i =>
    if decide (t ≤ dueAt a i off) && (a.iters == 0 || decide (i < a.iters)) then some (dueAt a i off) else none)

/-- When the next window opens on an egress (R163). -/
def nextWindow (s : State) (e t : Nat) : Option Nat :=
  let dues := s.alm.flatMap (fun a => a.entries.filterMap (fun x =>
    if x.type == 1 && bitsOf x.arg.toNat 0 7 == e then entryDue a x.offset t else none))
  dues.foldl (fun m d => match m with | none => some d | some x => some (Nat.min x d)) none

/-! ### Queues and cells -/

/-- The queue a frame of a tenant joins, and whether the tenant has a slot (R267, R437). -/
def queueFor (s : State) (tenant : Nat) : Nat × Bool :=
  match swcSlot s tenant with
  | some n => (fieldOf s (swcBase + 0x100 + n * 4) 16 5, true)
  | none => (fieldOf s (swcBase + 4) 19 5, false)

def cellsIn (fs : List Frame) : Nat := fs.foldl (fun n f => n + f.cells) 0
def bytesIn (fs : List Frame) : Nat := fs.foldl (fun n f => n + f.size) 0

/-- Unscheduled frames of an egress. -/
def EgressQ.unsched (q : EgressQ) : List Frame := q.queues.flatMap (·.2)

/-- Tenant space a tenant uses: its queued frames, residue, frames held for reordering, and stores that wait for a full hold buffer
(R251, R263). -/
def tenantCells (s : State) (tenant : Nat) : Nat :=
  let mine := fun (f : Frame) => f.tenant.toNat == tenant
  cellsIn ((s.sw.eg.flatMap (fun x => x.2.unsched)).filter mine) +
  cellsIn ((s.sw.residue.map (·.1)).filter mine) +
  cellsIn ((s.trn.recv.flatMap (·.held)).filter mine) +
  cellsIn (((s.mov.held.filter (·.waits)).map (·.frame)).filter mine) +
  ((s.coll.ctxs.filter (fun x => x.2.tenant.toNat == tenant && x.2.state != .free && x.2.celSet == none)).foldl
    (fun n x => n + x.2.win64k * 256) 0)

/-- Cells of control-class frames (R264, control reserve). -/
def controlCells (s : State) : Nat := cellsIn (s.sw.eg.flatMap (fun x => x.2.control))

/-- Every tenant with cells in use. -/
def tenantsInBuffer (s : State) : List Nat :=
  ((s.sw.eg.flatMap (fun x => x.2.unsched)).map (fun f => f.tenant.toNat) ++
   s.sw.residue.map (fun x => x.1.tenant.toNat) ++
   s.trn.recv.flatMap (fun r => r.held.map (fun f => f.tenant.toNat)) ++
   (s.mov.held.filter (·.waits)).map (fun x => x.frame.tenant.toNat) ++
   (s.coll.ctxs.filter (fun x => x.2.state != .free && x.2.celSet == none)).map (fun x => x.2.tenant.toNat)).eraseDups

/-- Cells guaranteed to a tenant in shared tenancy: none for a tenant without a slot (R264, R437). -/
def guaranteed (s : State) (tenant : Nat) : Nat :=
  if (swcSlot s tenant).isSome then fieldOf s (swcBase + 4) 0 16 else 0

/-- The slot's tenant is being fenced or scrubbed: its time slots stay idle until a new tenant is admitted (R323). -/
def slotIdle (s : State) (n : Nat) : Bool := (tenSlot s n).state == .fenced || (tenSlot s n).state == .scrubbing

/-- A tenant's frame of `n` cells finds room (R264); in isolated tenancy none does while the tenant is fenced or scrubbed
(R323). -/
def hasRoom (s : State) (tenant n : Nat) : Bool :=
  let used := tenantCells s tenant
  if !s.ten.shared then
    (swcSlot s tenant).any (fun k => !slotIdle s k) && decide (used + n ≤ 638976 / Nat.max 1 (admittedN s))
  else
    let g := guaranteed s tenant
    if used + n ≤ g then true
    else
      let pool := 638976 - (s.ten.ten.filter (fun x => x.2.state != .free)).length * fieldOf s (swcBase + 4) 0 16
      let taken := (tenantsInBuffer s).foldl (fun m t => m + (tenantCells s t - guaranteed s t)) 0
      let free := pool - taken
      decide ((used - g) * 2 ^ fieldOf s (swcBase + 4) 16 3 < free) && decide (used + n - Nat.max used g ≤ free)

/-- The home point an egress serves. -/
def homeOfEgress (e : Nat) : Option Nat :=
  if e < 72 then some e else if e = egMem then some hpMem else if e = egHost then some hpHost else none

/-- Bytes of requests of a queue's tenants waiting at the home point behind an egress, and of the stores held there (R112, R251,
R272). DESIGN CHOICE, unsafe (log 117): a combining entry counts as its first member's frame, and the requests that have joined
it no more. -/
def waitingBytes (s : State) (e q : Nat) : Nat :=
  match homeOfEgress e with
  | none => 0
  | some h =>
    let ids := ((s.home.hot.filter (fun l => l.home == h)).flatMap (fun l => l.wait.map (·.access)) ++
      (s.home.queue.filter (fun x => x.1 == h)).map (fun x => x.2.access)).eraseDups
    let accs := s.home.accesses.filter (fun a => ids.contains a.id && (queueFor s a.frame.tenant.toNat).1 == q)
    let held := s.mov.held.filter (fun x => x.home == h && !x.sent && (queueFor s x.frame.tenant.toNat).1 == q)
    accs.foldl (fun n a => n + a.frame.size) 0 + held.foldl (fun n x => n + x.frame.size) 0

/-- Multicast copies of a queue's tenants that wait for an egress (R273). -/
def copiesAt (s : State) (e q : Nat) : List Frame :=
  s.sw.residue.flatMap (fun x => (x.2.filter (fun y => y.1 == e && (queueFor s y.2.tenant.toNat).1 == q)).map (·.2))

/-- Occupancy of unscheduled queue `q` of egress `e` in bytes, the copies that wait there included (R272, R273). -/
def occupancy (s : State) (e q : Nat) : Nat :=
  bytesIn (tget [] (egOf s e).queues q) + bytesIn ((copiesAt s e q).filter (fun f => f.cls == 2)) + waitingBytes s e q

/-- SWC_PORT_n of an egress: 0 to 89 (R278). CTL keeps the reset threshold. -/
def markThreshold (s : State) (e : Nat) : Nat :=
  if e < 90 then fieldOf s (swcBase + 0x400 + e * 8) 0 10 * 4096 else 0x40 * 4096

/-- A frame joins an unscheduled queue: it is marked when the occupancy exceeds the threshold, and the peak follows (R272,
R278). -/
def markJoin (e : Nat) (f : Frame) (s : State) : Frame × State :=
  let q := (queueFor s f.tenant.toNat).1
  let occ := occupancy s e q + f.size
  let mark := (f.type == tReq || f.type == tRsp) && decide (markThreshold s e < occ)
  let s := if mark then bump cntSwcMarkCnt (if e < 90 then bump (cntSwcPortMarkCnt e) s else s) else s
  (if mark then { f with ce := true }.reseal else f,
   modEg e (fun x => { x with peak := tput 0 x.peak q (Nat.max (tget 0 x.peak q) (ceilDiv occ 64)) }) s)

/-- Join an unscheduled queue. -/
def joinUnsched (e : Nat) (f : Frame) (s : State) : State :=
  let q := (queueFor s f.tenant.toNat).1
  let r := markJoin e f s
  modEg e (fun x => { x with queues := tput [] x.queues q (tget [] x.queues q ++ [r.1]) }) r.2

/-- Rewrite a scheduled frame as unscheduled and count it (R164). -/
def demoteFrame (f : Frame) : Frame := { f with cls := 2 }.reseal

/-- Demote a frame and put it into its tenant's unscheduled queue (R164). -/
def demote (e : Nat) (f : Frame) (s : State) : State :=
  joinUnsched e (demoteFrame f) (bump cntFtmDemoteCnt s)

/-- A scheduled frame enters the lane of an egress: a window of its tenant is open there, and the lane has room (R164, R267). -/
def toLane (s : State) (e : Nat) (f : Frame) : Bool :=
  f.cls == 1 && decide (e < 88) && windowOpen s e f.tenant.toNat && (swcSlot s f.tenant.toNat).isSome &&
  decide (bytesIn (egOf s e).lane + f.size ≤ 8192)

/-- A frame reaches an egress: control frames join the control queue, scheduled frames the lane while a
window of their tenant is open and the lane has room, all others the tenant's unscheduled queue. None
when it finds no room (R265, R267). -/
def join (e : Nat) (f : Frame) (s : State) : Option State :=
  if f.cls == 0 then
    if controlCells s + f.cells ≤ 8192 then
      some (modEg e (fun x => { x with control := x.control ++ [f] }) s)
    else none
  else if toLane s e f then
    some (modEg e (fun x => { x with lane := x.lane ++ [f] }) s)
  else if hasRoom s f.tenant.toNat f.cells then
    some (if f.cls == 1 then demote e f s else joinUnsched e f s)
  else none

/-- The frame is one copy of a multicast of the collective engine (R195, R273): a result of MCAST, of the
downward leg of ALL_REDUCE, or of a GATHER to every member, sent for the first time. -/
def isCopy (s : State) (f : Frame) : Bool :=
  f.type == tReq && f.opc == 0x41 && !f.retx && f.src.toNat == memEp s &&
  (f.atop == 3 || f.atop == 6 ||
   (f.atop == 7 && s.coll.ctxs.any (fun x => x.2.tenant == f.tenant && x.2.handle.toNat == f.handle &&
      beField x.2.ref 14 2 == 0xFFFF)))

/-- What all copies of one multicast frame share. -/
def copyKey (f : Frame) : Frame := { f with dst := 0, psn := 0, hcrc := 0, crc := 0, path := 0, ce := false }

/-- A copy joins those that wait: the frame is stored once for all its copies (R273). -/
def putCopy (e : Nat) (f : Frame) : List (Frame × List (Nat × Frame)) → List (Frame × List (Nat × Frame))
  | [] => [(copyKey f, [(e, f)])]
  | (g, cs) :: xs => if g = copyKey f then (g, cs ++ [(e, f)]) :: xs else (g, cs) :: putCopy e f xs

/-- A multicast copy joins the residue: its frame takes cells once, in its tenant's share, and an unscheduled copy is marked as a
frame that joins the queue (R264, R272, R273). None where there is no room (R265). -/
def joinCopy (e : Nat) (f : Frame) (s : State) : Option State :=
  if s.sw.residue.any (fun x => x.1 == copyKey f) || hasRoom s f.tenant.toNat f.cells then
    let r := if f.cls == 2 then markJoin e f s else (f, s)
    some { r.2 with sw := { r.2.sw with residue := putCopy e r.1 r.2.sw.residue } }
  else none

/-! ### Mirror sessions -/

/-- The word of SWC_MIR_n at a sub-offset (R278). -/
def mirOff (n : Nat) : Nat := swcBase + 0x2000 + n * 0x20

/-- A session in use carries its copies to this port, which is an analysis port (R275). -/
def analysisPort (s : State) (p : Nat) : Bool :=
  (List.range 8).any (fun n => bitAt s (mirOff n) 0 && bitAt s (mirOff n) 1 && fieldOf s (mirOff n + 8) 0 7 == p)

/-- A frame's class passes the class mask of a session. -/
def mirClass (s : State) (n : Nat) (f : Frame) : Bool :=
  let m := fieldOf s (mirOff n) 4 3
  if f.cls == 0 then m.testBit 0 else if f.cls == 1 then m.testBit 1 else m.testBit 2

/-- A mirror session ends or starts afresh: its copies that wait are discarded and leave its reserve, and its records under way
move its WPTR no more (R275). -/
def mirStop (n : Nat) (s : State) : State :=
  let gone := (s.sw.mirWait.filter (fun x => x.1 == n)).foldl (fun m x => m + x.2.2.size) 0
  { s with sw := { s.sw with
    mirWait := s.sw.mirWait.filter (fun x => !(x.1 == n))
    mirOpen := s.sw.mirOpen.filter (fun x => !(x.1 == n))
    mirUse := tput 0 s.sw.mirUse n (tget 0 s.sw.mirUse n - gone) } }

/-- The frame passes the session's filter at a port (R274). -/
def mirMatch (s : State) (n p : Nat) (eg : Bool) (f : Frame) : Bool :=
  let o := mirOff n
  let port := fieldOf s o 20 7
  bitAt s o 0 && (if bitAt s o 27 then port / 8 == p / 8 else port == p) &&
  (if eg then bitAt s o 3 else bitAt s o 2) && mirClass s n f &&
  (bitAt s o 7 || fieldOf s o 8 12 == f.tenant.toNat)

/-- Bytes of the whole frame. -/
def Frame.bytes (f : Frame) : Bytes := f.head ++ beBytes 2 f.hcrc.toNat ++ f.payload ++ beBytes 8 f.crc.toNat

/-- The SNAP length of a session, 0 for the whole frame (R278). -/
def snapLen (s : State) (n : Nat) : Nat := [0, 64, 128, 256].getD (fieldOf s (mirOff n) 28 2) 0

/-- The record of R276. -/
def mirRecord (s : State) (n p : Nat) (eg : Bool) (f : Frame) : Bytes :=
  let body := Frame.bytes f
  let snap := snapLen s n
  let cut := snap != 0 && decide (snap < body.length)
  let body := if cut then body.take snap else body
  let sampled := decide (0 < fieldOf s (mirOff n + 4) 0 16)
  let hdr := beBytes 8 (now s) ++ beBytes 1 p ++ beBytes 1 (b2n eg + 2 * b2n sampled + 4 * b2n cut) ++
    beBytes 2 f.size ++ beBytes 1 n ++ [0, 0, 0] ++ beBytes 4 (tget 0 s.sw.mirRec n) ++ List.replicate 12 0
  let all := hdr ++ body
  all ++ List.replicate (ceilDiv all.length 128 * 128 - all.length) 0

/-- The page of a list that holds a frame's bytes. -/
def pageOver (ps : List PageMove) (f : Frame) : Option PageMove :=
  if f.dst.toNat < 0x4800 then none
  else ps.find? (fun p => decide (p.page ≤ f.fpa ∧ f.fpa < p.page + p.size))

/-- A store of the session's tenant through MEM: an access whose parts wait at MEM (R276), or a held store where its page moves
(R250). `own` is 1 + the session, so that WPTR advances when the record is visible. -/
def memStore (s : State) (src : Nat) (tenant : BitVec 12) (fpa keyidx keytag : Nat) (bs : Bytes)
    (own : Nat) : State :=
  let id := s.home.nextAcc
  let f : Frame := { type := tReq, src := BitVec.ofNat 16 src, dst := BitVec.ofNat 16 (memEp s), tenant := tenant,
                     opc := 2, mid := midOf fpa keyidx keytag, payload := bs, len := BitVec.ofNat 10 bs.length,
                     plane := s.fab.plane }
  let first := fpa / 128
  let last := (fpa + bs.length - 1) / 128
  let parts := (List.range (last + 1 - first)).map (fun i =>
    let lo := Nat.max fpa ((first + i) * 128)
    let hi := Nat.min (fpa + bs.length) ((first + i + 1) * 128)
    ({ access := id, src := BitVec.ofNat 16 src, ord := false, off := lo, len := hi - lo } : Part))
  let acc : Access := { id := id, home := hpMem, frame := f, op := .write, left := parts.length, own := own }
  let s := { s with home := { s.home with nextAcc := id + 1 } }
  if (pageOver s.mov.arriving f).isSome then { s with mov := { s.mov with arrWait := s.mov.arrWait ++ [(id, own, f)] } }
  else if (pageOver s.mov.holding f).isSome || (pageOver s.mov.oldPages f).isSome then
    { s with mov := { s.mov with held := s.mov.held ++ [{ id := id, frame := f, home := hpMem, waits := true, own := own }] } }
  else
    { s with home := { s.home with accesses := s.home.accesses ++ [acc],
                                   queue := s.home.queue ++ parts.map (fun p => (hpMem, p)) } }

/-- Copy one matching frame for session `n` (R274, R276): for an analysis port the raw frame, for a capture region a record, which
is stored as the session's tenant. The copy waits in the session's reserve; without room there it is discarded. -/
def mirCopy (n p : Nat) (eg : Bool) (f : Frame) (s : State) : State :=
  let o := mirOff n
  if bitAt s o 1 then
    let used := tget 0 s.sw.mirUse n
    if 262144 < used + f.size then raiseSwc evSwcMirDrop n (bump cntSwcMirDropCnt s)
    else { s with sw := { s.sw with mirUse := tput 0 s.sw.mirUse n (used + f.size)
                                    mirWait := s.sw.mirWait ++ [(n, fieldOf s (o + 8) 0 7, f)] } }
  else
    let rec_ := mirRecord s n p eg f
    let used := tget 0 s.sw.mirUse n
    let keyidx := fieldOf s (o + 4) 16 16
    match readRegion s (memEp s) keyidx with
    | none => s
    | some d =>
      if !d.admits (fieldOf s o 8 12) d.keytag d.space d.base rec_.length .w || decide (262144 < used + rec_.length) then
        raiseSwc evSwcMirDrop n (bump cntSwcMirDropCnt s)
      else
        let at_ := tget 0 s.sw.mirNext n
        let at_ := if d.len < at_ + rec_.length then 0 else at_
        let s := { s with sw := { s.sw with mirUse := tput 0 s.sw.mirUse n (used + rec_.length),
                                            mirRec := tput 0 s.sw.mirRec n (tget 0 s.sw.mirRec n + 1),
                                            mirOpen := s.sw.mirOpen ++ [(n, (at_ + rec_.length) / 128, false)]
                                            mirNext := tput 0 s.sw.mirNext n (at_ + rec_.length) } }
        memStore s (memEp s) (BitVec.ofNat 12 (fieldOf s o 8 12)) (d.space * 2 ^ 44 + d.base + at_) keyidx d.keytag rec_ (n + 1)

/-- Every session sees a frame at a port (R274). -/
def mirrorAt (p : Nat) (eg : Bool) (f : Frame) (s : State) : State :=
  if 88 ≤ p then s
  else (List.range 8).foldl (fun s n =>
    if mirMatch s n p eg f then
      let k := tget 0 s.sw.mirCnt n + 1
      let s := { s with sw := { s.sw with mirCnt := tput 0 s.sw.mirCnt n k } }
      if k % (fieldOf s (mirOff n + 4) 0 16 + 1) = 0 then mirCopy n p eg f s else s
    else s) s

/-! ### The arbiter -/

/-- Ticks a frame takes to leave on an egress. -/
def sendTicks (s : State) (e : Nat) (f : Frame) : Nat := frameTicks (linkBytes s e f) (rateOf s e)

/-- A frame but for the congestion mark it may have gained. -/
def unmarked (f : Frame) : Frame := { f with ce := false, hcrc := 0 }

/-- The frame is a CXL.mem access on its way from HOST to MEM (R24). -/
def isCxlReq (s : State) (f : Frame) : Bool := s.hif.cxl.wait.any (fun w => unmarked w == unmarked f)

/-- A CXL.mem access has crossed the switching core (R24). -/
def cxlCrossed (f : Frame) (s : State) : State :=
  match s.hif.cxl.wait.find? (fun w => unmarked w == unmarked f) with
  | some w => modHif (fun h => { h with cxl := { h.cxl with wait := h.cxl.wait.erase w, arrived := h.cxl.arrived ++ [w] } }) s
  | none => s

/-- A CXL.mem access is lost in the switching core: nothing sends it again, so it is answered as a refused one, with poison for
a read (DEDUCED, safe: log 104). -/
def cxlLost (f : Frame) (s : State) : State :=
  match s.hif.cxl.wait.find? (fun w => unmarked w == unmarked f) with
  | some w => emit (if w.opc == 2 then .cxlMemDone else .cxlMem none)
      (modHif (fun h => { h with cxl := { h.cxl with wait := h.cxl.wait.erase w } }) s)
  | none => s

/-- The frame is one copy of an Almanac MULTICAST, sent for the first time (R196, R273). -/
def isMcast (s : State) (f : Frame) : Bool :=
  f.type == tReq && f.opc == 2 && !f.retx && f.src.toNat == memEp s &&
  s.trn.send.any (fun c => c.sid == ⟨f.src, f.dst, f.ord, f.tenant⟩ && c.unacked.any (fun x => x.psn == f.psn &&
    s.trn.reqs.any (fun r => r.id == x.req && (match r.origin with | .multicast _ => true | _ => false))))

/-- A rekey begins (R305): the devices exchange CTL frames as in KEYING; it waits while RECOVER or a planned change is under way
(R298), and for the exchange under way. -/
def rekeyStart (p : Nat) (s : State) : State :=
  let x := portSt s p
  if !x.enc || !x.keyed || (egOf s p).rekeying then s
  else if x.state == .recover || (x.state == .up && x.change.isSome) then modEg p (fun q => { q with rekeyDue := true }) s
  else if x.state == .up then
    let s := modEg p (fun q => { q with rekeyDue := false, rekeying := true }) s
    if h : p < 88 then emit (.keying ⟨p, h⟩) s else s
  else s

/-- A frame takes the next value of an encrypted port's counter; a rekey begins as it reaches 2^62 (R304, R305). -/
def countFrame (p : Nat) (s : State) : State :=
  let x := portSt s p
  if h : p < 88 then
    if x.enc then
      let n := (egOf s p).ctrTx + 1
      let s := emit (.frameCounter ⟨p, h⟩ (encCounter x.epochTx n)) (modEg p (fun q => { q with ctrTx := n }) s)
      if 2 ^ 62 ≤ n then rekeyStart p s else s
    else s
  else s

/-- A frame leaves on an egress; a CXL.mem access comes to MEM, which serves it (R24). On an encrypted port it takes the next
value of the frame counter (R304). -/
def send (e : Nat) (f : Frame) (s : State) : State :=
  if h : e < 91 then
    let until_ := now s + sendTicks s e f
    let s := mirrorAt e true f (if isMcast s f then bump cntSwcReplCnt s else s)
    let s := modEg e (fun x => { x with busyTo := until_ })
      (if e = egMem ∧ isCxlReq s f = true then cxlCrossed f s else emit (.frame ⟨e, h⟩ f) s)
    countFrame e s
  else s

/-- A frame stored in cells leaves as its cells read: an uncorrectable word discards it with every copy still pending
(R262). -/
def sendStored (cells : Ecc) (e : Nat) (f : Frame) (s : State) : State :=
  if cells == .uncorrectable then
    raiseSwc evSwcEccDrop e (bump cntSwcEccDropCnt (cxlLost f
      { s with sw := { s.sw with residue := s.sw.residue.filter (fun x => !(x.1 == copyKey f)) } }))
  else send e f s

/-- Fill the control token bucket of a port up to tick `t`: 1 % of the port rate, at most 4,096 bytes. -/
def fillTokens (e t : Nat) (s : State) : State :=
  modEg e (fun x => { x with tokens := Nat.min 1638400 (x.tokens + (t - x.tokenAt) * rateOf s e), tokenAt := t }) s

/-- ctl_ok of R268. -/
def ctlOk (s : State) (e : Nat) (f : Frame) : Bool :=
  if f.type == tCtl && decide (e < 88) then decide (f.size * 400 ≤ (egOf s e).tokens) else true

/-- Take a control frame off its queue, spending tokens for a CTL frame. -/
def sendControl (cells : Ecc) (e : Nat) (f : Frame) (rest : List Frame) (s : State) : State :=
  sendStored cells e f (modEg e (fun x => { x with control := rest, tokens := if f.type == tCtl then x.tokens - f.size * 400 else x.tokens }) s)

/-- The DRR quantum of a queue in bytes (R267, R437, R278). -/
def quantum (s : State) (q : Nat) : Nat :=
  match (List.range 64).find? (fun n => let o := swcBase + 0x100 + n * 4; bitAt s o 0 && fieldOf s o 16 5 == q) with
  | some n => fieldOf s (swcBase + 0x100 + n * 4) 21 4 * 1024
  | none => fieldOf s (swcBase + 4) 24 4 * 1024

/-- The next queue by deficit round robin over the frames `head` that would leave next, with the deficits after it is served
(R268). -/
def drrPick (s : State) (x : EgressQ) (head : Nat → Option Frame) : Option (Nat × Table Nat) :=
  match head x.drr with
  | some f =>
    if f.size ≤ tget 0 x.deficit x.drr then some (x.drr, tput 0 x.deficit x.drr (tget 0 x.deficit x.drr - f.size))
    else pickFrom head
  | none => pickFrom head
where
  pickFrom (head : Nat → Option Frame) : Option (Nat × Table Nat) :=
    match ((List.range 32).map (fun i => (x.drr + 1 + i) % 32)).find? (fun q => (head q).isSome) with
    | some q =>
      let size := ((head q).map Frame.size).getD 0
      let d := tget 0 x.deficit q + quantum s q
      some (q, tput 0 x.deficit q (d - size))
    | none => none

/-- Whether a frame would end before the next window opens (R163). -/
def endsBeforeWindow (s : State) (e t : Nat) (f : Frame) : Bool :=
  match nextWindow s e t with
  | some w => decide (t + sendTicks s e f ≤ w)
  | none => true

/-- The multicast copy that is next in a queue of an egress: the queue is empty, and copies leave in the order of their originals
(R273). DEDUCED, safe (log 128): the order is kept among the copies of one queue, since each waits as any other frame of its
tenant. -/
def copyHead (s : State) (e q : Nat) : Option Frame :=
  if (tget [] (egOf s e).queues q).isEmpty then (copiesAt s e q).head? else none

/-- The frame that is next in a queue of an egress: the queue's head, or where it is empty the first copy. -/
def headOf (s : State) (e q : Nat) : Option Frame := (tget [] (egOf s e).queues q).head?.or (copyHead s e q)

/-- Remove a copy; the cells free with the last copy. -/
def dropCopy (e : Nat) (f : Frame) (xs : List (Frame × List (Nat × Frame))) : List (Frame × List (Nat × Frame)) :=
  (xs.map (fun x => (x.1, x.2.filter (fun y => !(y.1 == e && y.2 == f))))).filter (fun x => !x.2.isEmpty)

/-- A multicast copy leaves (R273): a scheduled one whose tenant has no window open goes unscheduled (R164, R195). -/
def sendCopy (cells : Ecc) (e : Nat) (f : Frame) (s : State) : State :=
  let t := { s with sw := { s.sw with residue := dropCopy e f s.sw.residue } }
  if cells == .uncorrectable then sendStored cells e f s
  else bump cntSwcReplCnt (if f.cls == 1 && !windowOpen t e f.tenant.toNat then send e (demoteFrame f) (bump cntFtmDemoteCnt t)
    else send e f t)

/-- Demote every frame left in the lane of an egress (R268). DEDUCED, safe (log 127): one that finds no room in its tenant's share
stays in the lane until it does, since R265 gives no cause to discard it. -/
def demoteLane (e : Nat) (s : State) : State :=
  let fs := (egOf s e).lane
  each fs (fun f s => if hasRoom s f.tenant.toNat f.cells then demote e f s else modEg e (fun x => { x with lane := x.lane ++ [f] }) s)
    (modEg e (fun x => { x with lane := [] }) s)

/-- Take what is next in an unscheduled queue, a frame or a multicast copy, and send it as its cells read. -/
def sendHead (cells : Ecc) (e q : Nat) (defs : Table Nat) (s : State) : State :=
  let x := egOf s e
  match tget [] x.queues q with
  | f :: rest =>
    let left := !rest.isEmpty || !(copiesAt s e q).isEmpty
    sendStored cells e f (setEg e { x with queues := tput [] x.queues q rest, drr := q,
                                           deficit := (if left then defs else tput 0 defs q 0) } s)
  | [] =>
    match copiesAt s e q with
    | f :: rest => sendCopy cells e f (setEg e { x with drr := q, deficit := (if rest.isEmpty then tput 0 defs q 0 else defs) } s)
    | [] => s

/-- A scheduled copy of the window's tenant that is next in its queue. -/
def copyFor (s : State) (e tenant : Nat) : Option Frame :=
  (copyHead s e (queueFor s tenant).1).filter (fun f => f.cls == 1 && f.tenant.toNat == tenant)

/-- choose_next of R268 at tick `t`, and the frame sent. -/
def selectPlain (cells : Ecc) (e t : Nat) (s : State) : State :=
  let s := if e < 88 then fillTokens e t s else s
  let x := egOf s e
  match x.control with
  | f :: rest =>
    if ctlOk s e f then sendControl cells e f rest s else scheduled s
  | [] => scheduled s
where
  scheduled (s : State) : State :=
    match openWindow s e with
    | some w =>
      let x := egOf s e
      match x.lane.find? (fun f => f.tenant == w.tenant) with
      | some f => send e f (setEg e { x with lane := x.lane.erase f } s)
      | none =>
        match copyFor s e w.tenant.toNat with
        | some f => sendCopy cells e f s
        | none => s
    | none =>
      let s := demoteLane e s
      match drrPick s (egOf s e) (headOf s e) with
      | some (q, d) =>
        match headOf s e q with
        | some f => if endsBeforeWindow s e t f then sendHead cells e q d s else s
        | none => s
      | none => s

/-- The tick at which the run of slots with the present owner ends (R269), within one cycle. -/
def slotRunEnd (s : State) (p t : Nat) : Nat :=
  let k := t / 256
  let own := slotOwner s p t
  let same := ((List.range 63).map (· + 1)).takeWhile (fun i => slotOwner s p ((k + i) * 256) == own)
  (k + same.length + 1) * 256

/-- The next frame of an egress in a slot that `own` owns and that ends at tick `stop` (R269). -/
def selectOwned (cells : Ecc) (p t own stop : Nat) (s : State) : State :=
  let s := fillTokens p t s
  let fits := fun (f : Frame) => decide (t + sendTicks s p f ≤ stop)
  let x := egOf s p
  if own = 0x80 then
    match x.control.find? (fun f => f.type == tCtl) with
    | some f => if ctlOk s p f && fits f then sendControl cells p f (x.control.erase f) s else s
    | none => s
  else if own < 0x40 then
    let o := swcBase + 0x100 + own * 4
    if !bitAt s o 0 || slotIdle s own then s
    else
      let ten := fieldOf s o 4 12
      let mine := fun (f : Frame) => f.tenant.toNat == ten
      match x.control.find? (fun f => f.isTransportCtl && mine f) with
      | some f => if fits f then sendControl cells p f (x.control.erase f) s else s
      | none =>
        let s := if windowOpen s p ten then s else demoteLane p s
        let x := egOf s p
        match (if windowOpen s p ten then x.lane.find? mine else none) with
        | some f => if fits f then send p f (setEg p { x with lane := x.lane.erase f } s) else s
        | none =>
          -- an open window takes nothing but its tenant's scheduled frames, and an unscheduled frame ends before the next (R163)
          if windowOpen s p ten then
            match copyFor s p ten with
            | some f => if fits f then sendCopy cells p f s else s
            | none => s
          else
            let q := (queueFor s ten).1
            match headOf s p q with
            | some f => if fits f && endsBeforeWindow s p t f then sendHead cells p q x.deficit s else s
            | none => s
  else s

/-- The port may carry frames: UP for an external port in use as a fabric port; an End-point Block or an
internal port always may. -/
def egressUp (s : State) (e : Nat) : Bool :=
  if e < 88 && isFabricPort s e then (portSt s e).state == .up else true

/-- The next frame of a port in time-division mode at tick `t` (R269). -/
def selectTdm (cells : Ecc) (p t : Nat) (s : State) : State := selectOwned cells p t (slotOwner s p t) (slotRunEnd s p t) s

/-- The next frame at MEM or HOST in isolated tenancy: one turn of 64 ns per tenant slot, in which the frame ends (R311). -/
def selectTurn (cells : Ecc) (e t : Nat) (s : State) : State :=
  selectOwned cells e t (t / 256 % Nat.max 1 s.ten.slots) ((t / 256 + 1) * 256) s

/-- The switching core is in service (R278). DEDUCED, safe (log 94): with SWC_CTRL.EN = 0 no egress starts a frame. -/
def swcOn (s : State) : Bool := bitAt s swcBase 0

/-- An analysis port sends the next copy of its mirror sessions, which leaves the session's reserve (R274, R275). -/
def sendMirror (e : Nat) (s : State) : State :=
  match s.sw.mirWait.find? (fun x => x.2.1 == e) with
  | none => s
  | some x =>
    let until_ := now s + sendTicks s e x.2.2
    bump (cntSwcMirRecCnt x.1) (emit (.mirror x.1 (Frame.bytes x.2.2)) (modEg e (fun q => { q with busyTo := until_ })
      { s with sw := { s.sw with mirWait := s.sw.mirWait.erase x
                                 mirUse := tput 0 s.sw.mirUse x.1 (tget 0 s.sw.mirUse x.1 - x.2.2.size) } }))

/-- An egress that is up and at a frame boundary chooses its next frame (R268, R269, R311); `cells` is what reading the frame's
cells finds (R262). An analysis port carries nothing but copies (R275). -/
def choose (cells : Ecc) (e t : Nat) (s : State) : State :=
  if !egressUp s e || !swcOn s || decide (t < (egOf s e).busyTo) then s
  else if analysisPort s e then sendMirror e s
  else if tdmAt s e then selectTdm cells e t s
  else if (e == egMem || e == egHost) && s.ten.tdmOn then selectTurn cells e t s
  else selectPlain cells e t s

/-! ### How frames enter -/

/-- An unscheduled frame that comes in at `rate` may be cut through to an egress (R266). -/
def mayCut (s : State) (rate e : Nat) (f : Frame) : Bool :=
  swcOn s && bitAt s swcBase 1 && f.cls == 2 && (headOf s e (queueFor s f.tenant.toNat).1).isNone &&
  decide (rateOf s e ≤ rate) && decide ((egOf s e).busyTo ≤ now s)

/-- A frame that has joined its egress starts there at once where it may (R266): `s` is the state before it joined. -/
def cutThrough (rate e : Nat) (f : Frame) (s t : State) : State :=
  if mayCut s rate e f then
    let u := choose .clean e (now t) t
    if (tget [] (egOf u e).queues (queueFor s f.tenant.toNat).1).isEmpty then u else t
  else t

/-- The A-port whose End-point Block a frame comes from (R19, R266). -/
def originPort (s : State) (f : Frame) : Option Nat :=
  let e := f.src.toNat
  if decide (e < 0x4800) && e / 72 == s.fab.rack.toNat && clusterMode s (e % 72 / 8) == 0 then some (e % 72) else none

/-- The data rate of the internal ingress a frame comes in by: of its End-point Block's port, else the capacity of MEM (R19,
R266). -/
def originRate (s : State) (f : Frame) : Nat :=
  match originPort s f with | some p => rateOf s p | none => rateOf s egMem

/-- An internal originator hands a frame to its egress; it keeps the frame while there is no room (R265). Ingress sessions of its
port see it as it enters (R274). -/
def submitTo (e : Nat) (f : Frame) (s : State) : State :=
  match join e f s with
  | some t => cutThrough (originRate s f) e f s (match originPort s f with | some p => mirrorAt p false f t | none => t)
  | none => { s with sw := { s.sw with parked := s.sw.parked ++ [(e, f)] } }

/-- A frame, or a multicast's copy, enters for an egress (R265, R273). -/
def enter (e : Nat) (f : Frame) (s : State) : State :=
  if isCopy s f then
    match joinCopy e f s with
    | some t => t
    | none => { s with sw := { s.sw with parked := s.sw.parked ++ [(e, f)] } }
  else submitTo e f s

/-- An internal originator's frame enters the switching core; without a route it is lost, and recovered
end to end (R134). -/
def submit (f : Frame) (s : State) : State :=
  match egressFor s f with
  | some e => enter e f s
  | none => s

/-- Frames held by internal originators enter where room has freed (R265). -/
def unpark (s : State) : State :=
  let fs := s.sw.parked
  fs.foldl (fun s x => enter x.1 x.2 s) { s with sw := { s.sw with parked := [] } }

/-- An egress chooses its next frame, and frames that waited for room enter. -/
def selectAt (cells : Ecc) (e t : Nat) (s : State) : State :=
  if !egressUp s e || !swcOn s then s else unpark (choose cells e t s)

/-- Frames that do not pass `ok` leave every queue of the switching core. -/
def dropFrames (ok : Frame → Bool) (s : State) : State :=
  let q := fun (x : EgressQ) => { x with
    lane := x.lane.filter ok, control := x.control.filter ok
    queues := (x.queues.map (fun k => (k.1, k.2.filter ok))).filter (fun k => !k.2.isEmpty) }
  { s with sw := { s.sw with
    eg := (s.sw.eg.map (fun x => (x.1, q x.2))).filter (fun x => !(x.2 == {}))
    residue := s.sw.residue.filter (fun x => ok x.1)
    parked := s.sw.parked.filter (fun x => ok x.2) } }

end Sys2Proof.Machine
end

