-- ==== Sys2Proof/Machine/Transport.lean ====
section
/-!
DEFINITION. Repex Transport: sessions (R139 to R142), sequence numbers and acknowledgements (R130, R131),
replay copies (R132), the retransmit ladder (R133), skips (R138), congestion windows (R143), receive
contexts (R137) and quarantine (R145). What a request's end means to its originator is decided above
this file: an ended request is put on `trn.ended`.
-/

namespace Sys2Proof.Machine
open Sys2Proof

/-! ### Frames the transport sends -/

/-- The stream a frame of the forward direction belongs to. -/
def fwdSid (f : Frame) : StreamId := ⟨f.src, f.dst, f.ord, f.tenant⟩
/-- The stream a frame of the reverse direction belongs to (R130). -/
def revSid (f : Frame) : StreamId := ⟨f.dst, f.src, f.ord, f.tenant⟩

/-- A PSN lies in the session that began at `ipsn` (R140). -/
def inSession (ipsn psn : BitVec 32) : Bool := decide ((psn - ipsn).toNat < 65536)

/-- The session of a stream that a PSN, or the one after it, lies in agreed revision 1.1 at this end (R125, R141). -/
def oldSession (s : State) (sid : StreamId) (psn : BitVec 32) : Bool :=
  let mine := fun ip => inSession ip psn || inSession ip (psn + 1)
  s.trn.send.any (fun c => c.sid == sid && c.rev == 0x11 && c.state != .opening && mine c.ipsn) ||
  s.trn.recv.any (fun r => r.sid == sid && r.rev == 0x11 && mine r.ipsn)

/-- A control-class frame of the transport from `src` to `dst` within a stream. DESIGN CHOICE, unsafe (log 111): outside any
session the two ends agreed (a refusal, a CLOSE or NAK for an unknown session) VER is 0x2, where R125 names no value. -/
def ctlFrame (s : State) (type : BitVec 4) (src dst : BitVec 16) (sid : StreamId) (psn : BitVec 32)
    (status : Nat) (mid : BitVec 96) (ce : Bool) (payload : Bytes) : Frame :=
  ({ ver := if oldSession s sid psn then 1 else 2, type := type, cls := 0, ce := ce, ord := sid.ord, src := src, dst := dst, plane := s.fab.plane,
     tenant := sid.tenant, psn := psn, len := BitVec.ofNat 10 payload.length, mid := mid,
     status := BitVec.ofNat 8 status, ttl := initTtl s,
     path := BitVec.ofNat 4 (homePath s sid.src.toNat sid.dst.toNat), payload := payload } : Frame).seal

/-- A route uses a link that runs Transport revision 1.1: its first, a port of this device, or one beyond it (R141). -/
def routeOld (s : State) (r : List Nat) : Bool :=
  match r with
  | [] => false
  | p :: rest => (portSt s p).trev11 || (!rest.isEmpty && Config.farLinkOld r)

/-- The transport revision this device offers: 1.1 when any route between the stream's ends, alternates included, uses a
link of Transport 1.1 (R141). -/
def offeredRev (s : State) (sid : StreamId) : BitVec 8 :=
  match epNode s sid.dst.toNat with
  | some n => if (routesTo s n).any (routeOld s) then 0x11 else 0x20
  | none => 0x20

/-- The features this device offers: weighted combining, MX formats, slips, programs (R141). -/
abbrev allFeats : BitVec 8 := 0x0F

/-- The 16-byte payload of OPEN and OPEN_ACK (R141). -/
def sessionPayload (ipsn : BitVec 32) (rev feat : BitVec 8) (ord succ : Bool) (tenant : BitVec 12)
    (prevEnd : BitVec 32) : Bytes :=
  beBytes 4 ipsn.toNat ++ [rev, feat] ++
  beBytes 2 (b2n ord * 0x8000 + b2n succ * 0x4000 + tenant.toNat) ++
  beBytes 4 (if succ then prevEnd.toNat else 0) ++ [0, 0, 0, 0]

/-- The OPEN frame of a send context: in the revision it offers, and, where the context waits for a request of SPACE 3, with
that SPACE in its header, so that HOST holds the session (R125, R142; DESIGN CHOICE, safe, log 86). -/
def openFrame (s : State) (c : SendCtx) : Frame :=
  let rev := offeredRev s c.sid
  let host := c.waiting.any (fun x => x.1.space == 3 && decide (0x4800 ≤ x.1.dst.toNat) && x.1.opc.toNat / 16 != 4)
  let f := ctlFrame s tOpen c.sid.src c.sid.dst c.sid c.ipsn 0 (if host then midOf (3 * 2 ^ 44) 0 0 else 0) false
    (sessionPayload c.ipsn rev (if rev = 0x11 then 0 else allFeats) c.sid.ord c.succ c.sid.tenant c.prevEnd)
  ({ f with ver := if rev = 0x11 then 1 else 2 } : Frame).seal

/-- A CLOSE for a stream, sent by its source. -/
def closeFrame (s : State) (sid : StreamId) (psn : BitVec 32) : Frame :=
  ctlFrame s tClose sid.src sid.dst sid psn 0 0 false []

/-- A CLOSE sent by the target of a stream (R137, R142). -/
def closeBack (s : State) (sid : StreamId) (psn : BitVec 32) : Frame :=
  ctlFrame s tClose sid.dst sid.src sid psn 0 0 false []

/-- A NAK with its reason (R131). -/
def nakFrame (s : State) (f : Frame) (reason : Status) : Frame :=
  ctlFrame s tNak f.dst f.src (fwdSid f) f.psn reason.code 0 false []

/-- A skip frame for a PSN, which the source has sent before (R125, R138). -/
def skipOf (s : State) (sid : StreamId) (psn : BitVec 32) (path : BitVec 4) : Frame :=
  ({ ver := if oldSession s sid psn then 1 else 2, type := tReq, cls := 2, retx := true, first := true, last := true, ord := sid.ord, src := sid.src,
     dst := sid.dst, plane := s.fab.plane, tenant := sid.tenant, psn := psn, opc := 0, path := path,
     ttl := initTtl s } : Frame).seal

/-! ### Send contexts -/

/-- The originator unit of a stream: its End-point Block, or MEM for this node's own endpoint (R140). In
isolated tenancy MEM's contexts and replay pool are divided among the tenants (R311): 1,000 + tenant. -/
def unitOf (s : State) (ep : BitVec 16) (tenant : BitVec 12) : Nat :=
  if ep.toNat < 0x4800 then ep.toNat % 72 else if s.ten.shared then 72 else 1000 + tenant.toNat

/-- HOST in place of MEM for a session of its own: 73, or 8,000 + tenant (R140, R142, R311). -/
def hostUnit (host : Bool) (u : Nat) : Nat := if host && decide (72 ≤ u) then (if u = 72 then 73 else u + 7000) else u

/-- The unit that holds a receive context (R142). -/
def recvUnit (s : State) (r : RecvCtx) : Nat := hostUnit r.host (unitOf s r.sid.dst r.sid.tenant)

/-- The unit that holds a send context (R140). -/
def sendUnit (s : State) (c : SendCtx) : Nat := hostUnit c.host (unitOf s c.sid.src c.sid.tenant)

/-- A limit of MEM or HOST, or one tenant's share of it (R311). -/
def memShare (s : State) (u x : Nat) : Nat := if u < 1000 then x else x / Nat.max 1 s.ten.slots

/-- The contexts a unit may hold (R140, R142, R146). -/
def ctxLimit (s : State) (u : Nat) : Nat :=
  if u < 72 then 4096 else memShare s u (if u = 73 ∨ 8000 ≤ u then 4096 else 32768)

/-- Send contexts a unit holds (R140). -/
def ctxCount (s : State) (u : Nat) : Nat :=
  (s.trn.send.filter (fun c => sendUnit s c == u && !c.starved)).length

def modSend (num : Nat) (f : SendCtx → SendCtx) (s : State) : State :=
  { s with trn := { s.trn with send := modFirst (fun c => c.num == num) f s.trn.send } }

def dropSend (num : Nat) (s : State) : State :=
  { s with trn := { s.trn with send := s.trn.send.filter (fun c => !(c.num == num)) } }

def sendOf (s : State) (num : Nat) : Option SendCtx := s.trn.send.find? (fun c => c.num == num)

/-- The send context of a stream that takes new frames: its oldest, a predecessor until its last PSN is used, when what still
waits moves to its successor (R140). -/
def curSend (s : State) (sid : StreamId) : Option SendCtx :=
  s.trn.send.find? (fun c => c.sid == sid && c.state != .closing)

/-- The context that holds a copy of a PSN of a stream. -/
def sendHolding (s : State) (sid : StreamId) (psn : BitVec 32) : Option SendCtx :=
  s.trn.send.find? (fun c => c.sid == sid && c.unacked.any (fun x => x.psn == psn))

/-- Bytes of copies an originator unit holds, result records of its streams included (R132). -/
def replayBytes (s : State) (u : Nat) : Nat :=
  ((s.trn.send.filter (fun c => unitOf s c.sid.src c.sid.tenant == u)).foldl
    (fun n c => n + bytesIn (c.unacked.map (·.frame))) 0) +
  ((s.trn.recv.filter (fun r => unitOf s r.sid.dst r.sid.tenant == u)).foldl
    (fun n r => n + bytesIn (r.results.map (·.2))) 0)

/-- Bytes of copies in the source area of replay store `c`. -/
def clusterReplay (s : State) (c : Nat) : Nat :=
  ((List.range 8).map (fun i => replayBytes s (c * 8 + i))).sum

/-- Room for `n` more bytes of copies (R132): PORT_CAP and 14 MiB per cluster, or the 18 MiB device pool. -/
def replayRoom (s : State) (u n : Nat) : Bool :=
  if u < 72 then
    decide (replayBytes s u + n ≤ fieldOf s (trnBase + 8) 0 4 * 1048576) &&
    decide (clusterReplay s (u / 8) + n ≤ 14 * 1048576)
  else decide (replayBytes s u + n ≤ memShare s u (18 * 1048576))

/-- The unit's replay store in KiB, its 2 MiB share of the device pool included (R147). -/
def replayKib (s : State) (c : Nat) : Nat :=
  let mem := if s.ten.shared then replayBytes s 72
    else ((s.ten.ten.filter (fun x => x.2.state != .free)).map (fun x => replayBytes s (1000 + x.2.tenant.toNat))).sum
  ceilDiv (clusterReplay s c) 1024 + ceilDiv mem 9216

/-- TRN_CC fields (R143, R147). -/
def cwInit (s : State) : Nat := fieldOf s (trnBase + 4) 0 11
def cwMax (s : State) : Nat := fieldOf s (trnBase + 4) 16 11
def gShift (s : State) : Nat := fieldOf s (trnBase + 4) 28 4

/-- Send a context's OPEN, of which at most 16 leave in a microsecond; one more goes with its repetition (R139, R140). -/
def sendOpen (c : SendCtx) (s : State) : State :=
  let recent := s.trn.openAt.filter (fun t => decide (now s < t + tickUs))
  if recent.length < 16 then submit (openFrame s c) { s with trn := { s.trn with openAt := recent ++ [now s] } } else s

/-- Give a send context its initial PSN and send its OPEN; the IPSN counter advances by 65,536 (R140). -/
def openCtx (num : Nat) (s : State) : State :=
  let ip := s.trn.ipsn
  let s := { s with trn := { s.trn with ipsn := ip + 65536 } }
  let s := modSend num (fun c => { c with starved := false, ipsn := ip, next := ip, cwnd := cwInit s }) s
  match sendOf s num with
  | some c => sendOpen c s
  | none => s

/-- Begin to close a session: CLOSE is sent and repeated every 2 µs (R139). -/
def beginClose (num : Nat) (s : State) : State :=
  match sendOf s num with
  | some c => submit (closeFrame s c.sid c.next) (modSend num (fun c => { c with state := .closing }) s)
  | none => s

/-- An idle session: nothing unacknowledged, nothing waiting, no answer to acknowledge (R139). -/
def SendCtx.idle (c : SendCtx) : Bool :=
  c.state == .opened && c.unacked.isEmpty && c.waiting.isEmpty && c.rspDue.isEmpty

/-- The least recently used idle context of a unit. -/
def lruIdle (s : State) (u : Nat) : Option SendCtx :=
  (s.trn.send.filter (fun c => sendUnit s c == u && !c.starved && c.idle)).foldl
    (fun m c => match m with
      | none => some c
      | some d => if c.lastUse < d.lastUse then some c else some d) none

/-- A unit has room again: its oldest starved context opens (R140). -/
def feedStarved (u : Nat) (s : State) : State :=
  if ctxCount s u < ctxLimit s u then
    match s.trn.send.find? (fun c => c.starved && sendUnit s c == u) with
    | some c => openCtx c.num s
    | none => s
  else s

/-- A new send context for a stream: opened at once, or waiting for the least recently used idle session
of its unit to close; a successor waits for its predecessor, which closes once it has drained (R139, R140). -/
def newSend (sid : StreamId) (host succ : Bool) (prevEnd : BitVec 32) (waiting : List (Frame × Nat)) (s : State) : State :=
  let u := hostUnit host (unitOf s sid.src sid.tenant)
  let num := s.trn.stamp
  let room := decide (ctxCount s u < ctxLimit s u)
  let c : SendCtx := { num := num, sid := sid, starved := true, host := host, succ := succ, prevEnd := prevEnd, lastUse := num, waiting := waiting,
                       path := BitVec.ofNat 4 (homePath s sid.src.toNat sid.dst.toNat) }
  let s := { s with trn := { s.trn with stamp := num + 1, send := s.trn.send ++ [c] } }
  if room then openCtx num s
  else match (if succ then none else lruIdle s u) with
    | some d => beginClose d.num s
    | none => s

/-- The highest use of the replay stores that a unit's copies and records lie in is kept (R147). -/
def notePeak (u : Nat) (s : State) : State :=
  if u < 72 then peakTo (cntTrnPeakKib (u / 8)) (replayKib s (u / 8)) s
  else each (List.range 9) (fun c s => peakTo (cntTrnPeakKib c) (replayKib s c) s) s

/-- PSNs a session has used. -/
def SendCtx.used (c : SendCtx) : Nat := (c.next - c.ipsn).toNat

/-! ### Requests carried -/

def reqOf (s : State) (id : Nat) : Option FabReq := s.trn.reqs.find? (fun r => r.id == id)

def modReq (id : Nat) (f : FabReq → FabReq) (s : State) : State :=
  { s with trn := { s.trn with reqs := modFirst (fun r => r.id == id) f s.trn.reqs } }

/-- A request has ended: it is reported to its originator. -/
def report (r : FabReq) (s : State) : State :=
  { s with trn := { s.trn with ended := s.trn.ended ++ [r] } }

/-- Forget a request that is over and has no PSN left. -/
def forgetReq (id : Nat) (s : State) : State :=
  { s with trn := { s.trn with reqs := s.trn.reqs.filter (fun r => !(r.id == id)) } }

/-- Requests waiting on an open session that lacks a feature they need end with VERSION before any of their
frames is sent (R141). -/
def dropUnfit (num : Nat) (s : State) : State :=
  match sendOf s num with
  | none => s
  | some c =>
    if c.state != .opened then s
    else
      let bad := ((c.waiting.map (·.2)).eraseDups).filterMap (fun id => match reqOf s id with
        | some r => if Nat.land r.need c.feat.toNat != r.need && !c.unacked.any (fun x => x.req == id) then some r else none
        | none => none)
      each bad (fun r s => forgetReq r.id (report { r with status := .version, ended := true }
        (modSend num (fun c => { c with waiting := c.waiting.filter (fun x => !(x.2 == r.id)) }) s))) s

/-- PSNs of a session from its oldest unacknowledged one on. -/
def SendCtx.span (c : SendCtx) : Nat := match c.unacked with | x :: _ => (c.next - x.psn).toNat | [] => 0

/-- PSNs of a stream in its window: those of its sessions together, a predecessor's and its successor's (R130, R140, R146). -/
def streamSpan (s : State) (sid : StreamId) : Nat :=
  ((s.trn.send.filter (fun c => c.sid == sid)).map SendCtx.span).sum

/-- Send the frame at the head of a context's waiting list, as the stream's window, the context's cwnd, the replay room and
the session's PSNs allow (R130, R132, R140, R143). -/
def sendOne (num : Nat) (s : State) : State :=
  match sendOf s num with
  | none => s
  | some c =>
    match c.waiting with
    | [] => s
    | (f, rid) :: rest =>
      if c.state != .opened || decide (1024 ≤ streamSpan s c.sid) || decide (c.cwnd ≤ c.unacked.length) ||
          !replayRoom s (unitOf s c.sid.src c.sid.tenant) f.size || decide (64512 ≤ c.used) then s
      else
        let path := if decide (0x40 ≤ f.opc.toNat ∧ f.opc.toNat ≤ 0x44) then f.path else c.path
        let g := ({ f with ver := (if c.rev = 0x11 then 1 else 2), psn := c.next, path := path, ord := c.sid.ord
                           ttl := initTtl s } : Frame).seal
        let st := s.trn.stamp
        let s := modSend num (fun c => { c with waiting := rest, next := c.next + 1, lastUse := st,
                                                unacked := c.unacked ++ [⟨g.psn, g, rid⟩] }) s
        submit g { s with trn := { s.trn with stamp := st + 1 } }

/-- Send what a context may send, opening a successor session when it has used 61,440 PSNs and frames
still wait (R140); frames beyond its last PSN move to the successor. -/
def pump (num : Nat) (s : State) : State :=
  match sendOf s num with
  | none => s
  | some c =>
    let s := (List.range c.waiting.length).foldl (fun s _ => sendOne num s) (dropUnfit num s)
    match sendOf s num with
    | none => s
    | some c =>
      let s := notePeak (unitOf s c.sid.src c.sid.tenant) s
      if c.state == .opened && decide (61440 ≤ c.used) && !c.waiting.isEmpty &&
          !(s.trn.send.any (fun d => d.sid == c.sid && decide (c.num < d.num))) then
        newSend c.sid c.host true (c.ipsn + 64512) [] s
      else s

/-- Frames that wait on a context whose PSNs are used up move to its successor, which sends them once it is open; the
predecessor closes when it has drained, so that a successor without a context gets one (R140). -/
def handOver (sid : StreamId) (s : State) : State :=
  match s.trn.send.filter (fun c => c.sid == sid && c.state != .closing) with
  | a :: b :: _ =>
    if a.used < 64512 then s
    else
      let s := pump b.num (modSend b.num (fun x => { x with waiting := a.waiting ++ x.waiting })
          (modSend a.num (fun x => { x with waiting := [] }) s))
      match sendOf s a.num with
      | some a' => if a'.idle && (b.state == .opened || b.starved) then beginClose a.num s else s
      | none => s
  | _ => s

/-- The opcodes whose frames are answered by an RSP (R130). -/
def wantsRsp (opc : BitVec 8) : Bool := opc == 1 || opc == 4 || opc == 5 || opc == 0x52 || opc == 0x53

/-- Hand the frames of a request that needs session features to the transport (R129, R139, R141). -/
def sendNeeding (origin : Origin) (sid : StreamId) (opc : BitVec 8) (need : Nat) (frames : List Frame) (s : State) :
    State :=
  let id := s.trn.nextReq
  let r : FabReq := { id := id, origin := origin, sid := sid, opc := opc, left := frames.length, need := need }
  let s := { s with trn := { s.trn with nextReq := id + 1, reqs := s.trn.reqs ++ [r] } }
  let fs := frames.map (fun f => (f, id))
  match curSend s sid with
  | some c => handOver sid (pump c.num (modSend c.num (fun c => { c with waiting := c.waiting ++ fs }) s))
  | none => newSend sid (match origin with | .forward _ host => host | _ => false) false 0 fs s

/-- Hand the frames of a request that needs no feature to the transport. -/
def sendReq (origin : Origin) (sid : StreamId) (opc : BitVec 8) (frames : List Frame) (s : State) : State :=
  sendNeeding origin sid opc 0 frames s

/-! ### The end of requests -/

/-- The order of the home checks of R122; a lower one is reported (R6). -/
def checkRank : Status → Nat
  | .fenced => 1 | .accessDenied => 2 | .targetLost => 3 | .tierFailed => 3 | .dataError => 4
  | .commitLost => 5 | .done => 9 | _ => 0

def worse (a b : Status) : Status := if checkRank b < checkRank a then b else a

/-- A frame of a request is acknowledged or answered; when it was the last, the request ends. -/
def frameDone (id : Nat) (st : Status) (data : Option (Nat × Bytes)) (s : State) : State :=
  match reqOf s id with
  | none => s
  | some r =>
    if r.ended then
      let left := r.left - 1
      if left = 0 then forgetReq id s else modReq id (fun r => { r with left := left }) s
    else
      let r' := { r with left := r.left - 1, status := worse r.status st,
                         data := match data with | some d => r.data ++ [d] | none => r.data }
      if r'.left = 0 then forgetReq id (report { r' with ended := true } s)
      else modReq id (fun _ => r') s

/-- End a request at its source with some of its PSNs unacknowledged (R138): frames not yet sent are
dropped, and each unacknowledged PSN is skipped. -/
def endReq (id : Nat) (st : Status) (s : State) : State :=
  match reqOf s id with
  | none => s
  | some r =>
    if r.ended then s
    else
      let s := report { r with status := st, ended := true } s
      let s := { s with trn := { s.trn with send := s.trn.send.map (fun c =>
        { c with waiting := c.waiting.filter (fun x => !(x.2 == id)) }) } }
      let psns := s.trn.send.flatMap (fun c => (c.unacked.filter (fun x => x.req == id)).map (fun x => (c.num, x.psn)))
      let s := each psns (fun np s =>
        match sendOf s np.1 with
        | some c =>
          let k := skipOf s c.sid np.2 c.path
          let swap := modAll (fun (x : Sent) => x.psn == np.2) (fun x => { x with frame := k })
          submit k (modSend np.1 (fun c => { c with unacked := swap c.unacked }) s)
        | none => s) s
      if psns.isEmpty then forgetReq id s
      else modReq id (fun r => { r with ended := true, left := psns.length }) s

/-- Free a send context without handshake: its requests that are not over end with `st`. -/
def freeSend (num : Nat) (st : Status) (s : State) : State :=
  match sendOf s num with
  | none => s
  | some c =>
    let ids := (c.unacked.map (·.req) ++ c.waiting.map (·.2)).eraseDups
    let s := dropSend num s
    let s := each ids (fun id s =>
      match reqOf s id with
      | some r => if r.ended then forgetReq id s else forgetReq id (report { r with status := st, ended := true } s)
      | none => s) s
    feedStarved (sendUnit s c) s

/-! ### Congestion (R143) -/

/-- Acknowledgement of `n` frames, with or without CE. -/
def ccAck (n : Nat) (ce : Bool) (cmax g : Nat) (c : SendCtx) : SendCtx :=
  let acked := c.acked + n
  let marked := if ce then c.marked + n else c.marked
  if c.cwnd ≤ acked then
    let gg : Rat := 1 / (2 ^ g : Nat)
    let alpha := c.alpha * (1 - gg) + ((marked : Rat) / (acked : Rat)) * gg
    let cwnd := if 0 < marked then Nat.max 1 ((c.cwnd : Rat) * (1 - alpha / 2)).floor.toNat
      else Nat.min cmax (c.cwnd + 8)
    { c with alpha := alpha, cwnd := cwnd, acked := 0, marked := 0 }
  else { c with acked := acked, marked := marked }

/-- A retransmit timeout. -/
def ccTimeout (c : SendCtx) : SendCtx := { c with cwnd := Nat.max 1 (c.cwnd / 2) }

/-! ### Acknowledgements at the source -/

/-- The reverse ACK of a stream: CUM is the PSN before the oldest one whose answer the source still awaits, skips aside, a
store's included: until a store is acknowledged its answer may be an RSP, and a CUM past it would discard the record of a failure
(R130, R132; DEDUCED, log 87). RSPs beyond CUM await a later one. -/
def reverseAck (num : Nat) (s : State) : State :=
  match sendOf s num with
  | none => s
  | some c =>
    let cum := match c.unacked.find? (fun x => x.frame.opc != 0) with | some x => x.psn - 1 | none => c.next - 1
    submit (ctlFrame s tAck c.sid.src c.sid.dst c.sid cum 0 0 false [])
      (modSend num (fun c => { c with rspDue := c.rspDue.filter (fun p => decide (0 < psnDiff p cum)) }) s)

/-- The ACK covers a PSN: by CUM or by the bitmap (R130). -/
def ackCovers (f : Frame) (psn : BitVec 32) : Bool :=
  let d := psnDiff psn f.psn
  decide (d ≤ 0) || (decide (d ≤ 64) && f.bitmap.testBit (d.toNat - 1))

/-- An ACK at the source of a stream: the store and skip frames it covers are acknowledged; READ, ATOMIC
and COMMIT frames wait for their RSP. -/
def ackAt (f : Frame) (c : SendCtx) (s : State) : State :=
  let hit := c.unacked.filter (fun x => ackCovers f x.psn && !wantsRsp x.frame.opc)
  let s := if f.ce then bump cntTrnCeCnt s else s
  let cm := cwMax s
  let g := gShift s
  let s := modSend c.num (fun c =>
    let c := { c with unacked := c.unacked.filter (fun x => !(hit.any (fun y => y.psn == x.psn))) }
    if hit.isEmpty then c else ccAck hit.length f.ce cm g c) s
  let s := each hit (fun x s => frameDone x.req .done none s) s
  handOver c.sid (pump c.num s)

/-- An RSP at the source of a stream (R130, R272): it acknowledges its request frame, and brings data or
a status. -/
def rspAt (f : Frame) (c : SendCtx) (s : State) : State :=
  match c.unacked.find? (fun x => x.psn == f.psn) with
  | none => s
  | some x =>
    let cm := cwMax s
    let g := gShift s
    let s := modSend c.num (fun c => ccAck 1 f.ce cm g
      { c with unacked := c.unacked.filter (fun y => !(y.psn == f.psn)), rspDue := c.rspDue ++ [f.psn] }) s
    let st := (Status.ofCode f.status.toNat).getD .aborted
    let data := if st == .done || st == .commitLost then some (x.frame.offset, f.payload) else none
    let s := frameDone x.req st data s
    let s := match sendOf s c.num with
      | some c => if 16 ≤ c.rspDue.length then reverseAck c.num s else s
      | none => s
    handOver c.sid (pump c.num s)

/-! ### The ladder (R133) -/

/-- The path shift of attempt `a` over `n` routes: own path for 1 to 3, PATH + 1 to PATH + 3 for 4 to 6, then the alternates
in turn (R133). DESIGN CHOICE, unsafe (log 88): from attempt 7 on the turn begins again at PATH + 1 and leaves out the
stream's own PATH. -/
def ladderShift (a n : Nat) : Nat :=
  if a ≤ 3 then 0 else if a ≤ 6 then a - 3 else if n ≤ 1 then 0 else 1 + (a - 7) % (n - 1)

/-- Resend a copy on the path of attempt `a`, with RETX. -/
def resend (num : Nat) (psn : BitVec 32) (a : Nat) (s : State) : State :=
  match sendOf s num with
  | none => s
  | some c =>
    match c.unacked.find? (fun x => x.psn == psn) with
    | none => s
    | some x =>
      let n := match epNode s c.sid.dst.toNat with | some d => (routesTo s d).length | none => 0
      let p := if n = 0 then x.frame.path else BitVec.ofNat 4 ((x.frame.path.toNat + ladderShift a n) % n)
      submit ({ x.frame with retx := true, path := p, ttl := initTtl s } : Frame).seal (bump cntTrnRetxCnt s)

/-- A NAK and a timer expiry meet on a request in the same 2 ns: they count as one attempt (R133). -/
def sameAttempt (s : State) (r : FabReq) (only : Option (BitVec 32)) : Bool :=
  decide (0 < r.attempt) && decide (r.lastAt / 8 = now s / 8) && r.lastPsn.isSome != only.isSome

/-- One more attempt for a request: `only` names the PSN of a NAK with reason CRC; otherwise every
unacknowledged frame is resent. At attempt 7 the plane-health notice is sent (R136). -/
def attempt (id : Nat) (only : Option (BitVec 32)) (s : State) : State :=
  match reqOf s id with
  | none => s
  | some r =>
    let same := sameAttempt s r only
    let a := if same then r.attempt else r.attempt + 1
    let t := now s
    let s := modReq id (fun r => { r with attempt := a, lastAt := t, lastPsn := only }) s
    let goes := fun (x : Sent) => x.req == id && (match only with | some p => x.psn == p && !same | none => true) &&
      !(same && r.lastPsn == some x.psn)
    let psns := s.trn.send.flatMap (fun c => (c.unacked.filter goes).map (fun x => (c.num, x.psn)))
    let s := if a ≤ 3 ∨ same = true then s else bump cntTrnAltCnt s
    let s := each psns (fun np s => resend np.1 np.2 a s) s
    if a = 7 ∧ same = false then
      notice .planeHealth Status.targetUnreachable.code r.sid.dst.toNat 0
        (trace 0x41 r.sid.dst.toNat 0 srcHw s)
    else s

/-! ### Receive contexts (R137 to R142) -/

/-- The receive context of a stream whose session a PSN lies in. -/
def recvOf (s : State) (sid : StreamId) (psn : BitVec 32) : Option RecvCtx :=
  s.trn.recv.find? (fun r => r.sid == sid && inSession r.ipsn psn)

def modRecv (sid : StreamId) (psn : BitVec 32) (f : RecvCtx → RecvCtx) (s : State) : State :=
  { s with trn := { s.trn with recv := modFirst (fun r => r.sid == sid && inSession r.ipsn psn) f s.trn.recv } }

def dropRecv (sid : StreamId) (psn : BitVec 32) (s : State) : State :=
  { s with trn := { s.trn with recv := s.trn.recv.filter (fun r => !(r.sid == sid && inSession r.ipsn psn)) } }

/-- Move `cum` over every acknowledged PSN (R130). -/
def RecvCtx.slide : Nat → RecvCtx → RecvCtx
  | 0, r => r
  | fuel + 1, r =>
    if r.acked.contains r.cum then
      RecvCtx.slide fuel { r with acked := r.acked.erase r.cum, cum := r.cum + 1 }
    else r

/-- Mark a PSN acknowledged. -/
def RecvCtx.ackPsn (psn : BitVec 32) (r : RecvCtx) : RecvCtx :=
  if psnDiff psn r.cum < 0 ∨ r.acked.contains psn then r
  else let r := { r with acked := psn :: r.acked }; r.slide (r.acked.length + 1)

/-- The bitmap of an ACK: bit n acknowledges PSN CUM + 1 + n (R130); `cum` is CUM + 1. -/
def RecvCtx.bitmap (r : RecvCtx) : Nat :=
  (List.range 64).foldl (fun m n => if r.acked.contains (r.cum + BitVec.ofNat 32 n) then m + 2 ^ n else m) 0

/-- Send the ACK of a session of a stream (R130). -/
def sendAck (sid : StreamId) (psn : BitVec 32) (s : State) : State :=
  match recvOf s sid psn with
  | none => s
  | some r =>
    let covered := fun (p : BitVec 32) => decide (psnDiff p r.cum < 0) || r.acked.contains p
    let ce := r.ackDue.any (·.2) || r.ceSeen.any covered
    submit (ctlFrame s tAck sid.dst sid.src sid (r.cum - 1) 0 (BitVec.ofNat 96 (r.bitmap * 2 ^ 32)) ce [])
      (modRecv sid psn (fun r => { r with ackDue := [], ceSeen := r.ceSeen.filter (fun p => !covered p) }) s)

/-- A store or skip frame has become acknowledgeable; the ACK goes at once when 16 frames wait (R130). -/
def ackable (sid : StreamId) (psn : BitVec 32) (ce : Bool) (s : State) : State :=
  let t := now s
  let s := modRecv sid psn (fun r => { r.ackPsn psn with ackDue := r.ackDue ++ [(psn, ce)], lastTick := t }) s
  match recvOf s sid psn with
  | some r => if 16 ≤ r.ackDue.length then sendAck sid psn s else s
  | none => s

/-- The answer to a request frame: RSP of the same class, in the reverse direction, on its stream's PATH or, for a collective
frame, on the frame's own (R128, R130, R134). DESIGN CHOICE, unsafe (log 112): OPC, ATOP, SCOPE and bytes 16 to 27 of the RSP
are those of the request frame, where R125 does not say what an RSP carries there. -/
def rspFrame (s : State) (f : Frame) (st : Status) (payload : Bytes) : Frame :=
  let old := match recvOf s (fwdSid f) f.psn with | some r => r.rev == 0x11 | none => false
  ({ ver := if old then 1 else 2, type := tRsp, cls := f.cls, ord := f.ord, first := f.first, last := f.last, src := f.dst, dst := f.src,
     plane := f.plane, tenant := f.tenant, psn := f.psn, opc := f.opc, atop := f.atop,
     path := (if decide (0x40 ≤ f.opc.toNat ∧ f.opc.toNat ≤ 0x44) then f.path
              else BitVec.ofNat 4 (homePath s f.src.toNat f.dst.toNat)), scope := f.scope,
     len := BitVec.ofNat 10 payload.length, mid := f.mid, status := BitVec.ofNat 8 st.code,
     ttl := initTtl s, payload := payload } : Frame).seal

/-- A result record is kept of each RSP of an ATOMIC or COMMIT, of an ordered READ, and of each failure
(R132). -/
def keepsRecord (f : Frame) (st : Status) : Bool :=
  f.opc == 4 || f.opc == 5 || f.opc == 0x52 || f.opc == 0x53 || (f.opc == 1 && f.ord) || st != .done

/-- Answer a request frame. A store's failure RSP takes the place of its acknowledgement: its PSN is
acknowledged only once the source's CUM has covered the record (R122, R130, R132). -/
def answer (f : Frame) (st : Status) (payload : Bytes) (s : State) : State :=
  let g := rspFrame s f st payload
  let sid := fwdSid f
  let t := now s
  let s := modRecv sid f.psn (fun r =>
    let r := { r with lastTick := t }
    let r := if keepsRecord f st then { r with results := r.results ++ [(f.psn, g)] } else r
    let r := if f.ce then { r with ceSeen := r.ceSeen ++ [f.psn] } else r
    if wantsRsp f.opc then r.ackPsn f.psn else r) s
  submit g (notePeak (unitOf s f.dst f.tenant) s)

/-- The reverse ACK at the target: records up to CUM are dropped, and their stores count as acknowledged. -/
def reverseAckAt (cum : BitVec 32) (sid : StreamId) (s : State) : State :=
  modRecv sid cum (fun r =>
    let gone := r.results.filter (fun x => decide (psnDiff x.1 cum ≤ 0))
    let r := { r with results := r.results.filter (fun x => decide (0 < psnDiff x.1 cum)) }
    gone.foldl (fun r x => r.ackPsn x.1) r) s

/-! ### Sessions -/

/-- The endpoint is one of this device's: an A-port in accelerator mode, or its fabric memory. -/
def isLocalEp (s : State) (e : Nat) : Bool :=
  e == memEp s || (decide (e < 0x4800) && e / 72 == s.fab.rack.toNat && clusterMode s (e % 72 / 8) == 0)

/-- The endpoint is fenced: its port's session is FENCED or its port is not bound (R54, R80). -/
def epFenced (s : State) (e : Nat) : Bool :=
  decide (e < 0x4800) && e / 72 == s.fab.rack.toNat &&
  ((sess s (e % 72)).state == .fenced || !bitAt s (epbBase (e % 72) + 0x40) 13)

/-- The endpoint's bit is set in TRN_QUAR_n (R145). -/
def quarantined (s : State) (e : Nat) : Bool := s.trn.quar.contains e

/-- Answer an OPEN (R139, R141, R142). -/
def openAckFrame (s : State) (f : Frame) (st : Nat) (rev feat : BitVec 8) : Frame :=
  ctlFrame s tOpenAck f.dst f.src (fwdSid f) f.psn st 0 false
    (f.payload.take 4 ++ [rev, feat] ++ (f.payload.drop 6).take 10)

/-- Receive contexts a home unit holds. -/
def recvCount (s : State) (u : Nat) : Nat := (s.trn.recv.filter (fun r => recvUnit s r == u)).length

/-- The least recently used receive context that may be freed: nothing held, no record, quiet for 2.1 ms
(R142). -/
def lruRecv (s : State) (u : Nat) : Option RecvCtx :=
  (s.trn.recv.filter (fun r => recvUnit s r == u && r.held.isEmpty && r.results.isEmpty &&
    decide (r.lastTick + 2100 * tickUs ≤ now s))).foldl
    (fun m c => match m with
      | none => some c
      | some d => if c.lastTick < d.lastTick then some c else some d) none

/-- An OPEN arrives at its target. -/
def openAt (f : Frame) (s : State) : State :=
  let p := f.payload
  let rev := BitVec.ofNat 8 (beField p 4 1)
  let feat := BitVec.ofNat 8 (beField p 5 1)
  let ot := beField p 6 2
  let sid : StreamId := ⟨f.src, f.dst, ot.testBit 15, BitVec.ofNat 12 (bitsOf ot 0 12)⟩
  let f := { f with ord := sid.ord, tenant := sid.tenant }
  if quarantined s f.dst.toNat then submit (openAckFrame s f Status.targetLost.code rev feat) s
  else if epFenced s f.dst.toNat then submit (openAckFrame s f Status.fenced.code rev feat) s
  else if rev != 0x20 && rev != 0x11 then submit (openAckFrame s f Status.version.code rev feat) s
  else
    let ours := offeredRev s ⟨f.dst, f.src, sid.ord, sid.tenant⟩
    let rev' := if rev = 0x11 ∨ ours = 0x11 then (0x11 : BitVec 8) else 0x20
    let feat' := if rev' = 0x11 then (0 : BitVec 8) else feat &&& allFeats
    let ip := BitVec.ofNat 32 (beField p 0 4)
    let succ := ot.testBit 14
    let pend := BitVec.ofNat 32 (beField p 8 4)
    let r : RecvCtx := { sid := sid, ipsn := ip, e := ip, cum := ip, rev := rev', feat := feat', succ := succ,
                         host := f.space == 3, prevEnd := pend, lastTick := now s }
    let u := recvUnit s r
    -- an OPEN replaces the stream's context; a successor's leaves the predecessor's in place (R140)
    let olds := s.trn.recv.filter (fun r => r.sid == sid && (!succ || r.ipsn == ip))
    let full := fun (s : State) => olds.isEmpty && decide (ctxLimit s u ≤ recvCount s u)
    let s := if full s then
        match lruRecv s u with
        | some r => submit (closeBack s r.sid r.e) (dropRecv r.sid r.e s)
        | none => s
      else s
    if full s then submit (openAckFrame s f Status.busy.code rev feat) s
    else
      let rest := if succ then s.trn.recv.filter (fun x => !(x.sid == sid && x.ipsn == ip))
        else s.trn.recv.filter (fun x => !(x.sid == sid))
      let s := { s with trn := { s.trn with recv := rest ++ [r] } }
      submit (openAckFrame s f 0 rev' feat') s

/-- An OPEN_ACK arrives at the source (R139). DESIGN CHOICE, unsafe (log 113): it answers the stream's first context that is
opening, whatever IPSN and PSN it carries, where R139 and R141 do not say what is compared. -/
def openAckAt (f : Frame) (s : State) : State :=
  let sid := revSid f
  match s.trn.send.find? (fun c => c.sid == sid && c.state == .opening && !c.starved) with
  | none => s
  | some c =>
    match Status.ofCode f.status.toNat with
    | some .done =>
      let rev := BitVec.ofNat 8 (beField f.payload 4 1)
      let feat := BitVec.ofNat 8 (beField f.payload 5 1)
      let path := BitVec.ofNat 4 (homePath s sid.src.toNat sid.dst.toNat)
      let s := modSend c.num (fun c => { c with state := .opened, rev := rev, feat := feat, path := path }) s
      handOver sid (pump c.num s)
    | some .busy => s
    | some st => if st == .targetLost || st == .fenced || st == .version then freeSend c.num st s else s
    | none => s

/-- The receive contexts' predecessor has still frames to apply below PREV_END (R140). -/
def predOpen (s : State) (r : RecvCtx) : Bool :=
  r.succ && r.sid.ord && s.trn.recv.any (fun x => x.sid == r.sid && x.ipsn != r.ipsn &&
    inSession x.ipsn (r.prevEnd - 1) && decide (psnDiff x.e r.prevEnd < 0))

/-- The send context of a stream whose session a PSN lies in. -/
def sendIn (s : State) (sid : StreamId) (psn : BitVec 32) (st : SendState) : Option SendCtx :=
  s.trn.send.find? (fun c => c.sid == sid && c.state == st && !c.starved && inSession c.ipsn psn)

/-- A CLOSE arrives (R139): as the echo of ours, from the stream's target, or from its source. A CLOSE
carries in PSN a number of the session it closes, which tells the two directions apart (assumption 21). -/
def closeAt (f : Frame) (s : State) : State :=
  let back := revSid f
  let fwd := fwdSid f
  match sendIn s back f.psn .closing with
  | some c => freeSend c.num .targetUnreachable s
  | none =>
    match sendIn s back f.psn .opened with
    | some c =>
      let carried := c.unacked.map (fun x => ({ x.frame with retx := true }, x.req)) ++ c.waiting
      let s := submit (closeFrame s c.sid f.psn) (dropSend c.num s)
      let s := feedStarved (sendUnit s c) s
      if carried.isEmpty then s
      else
        match curSend s back with
        | some d => pump d.num (modSend d.num (fun d => { d with waiting := carried ++ d.waiting }) s)
        | none => newSend back c.host false 0 carried s
    | none => submit (closeBack s fwd f.psn) (dropRecv fwd f.psn s)

/-- The contexts of a fenced port's own streams go without handshake, on both sides where the other side is this device's
(R139, last row). -/
def freeSource (e : Nat) (s : State) : State :=
  let s := each ((s.trn.send.filter (fun c => c.sid.src.toNat == e)).map (·.num)) (fun n s => freeSend n .fenced s) s
  { s with trn := { s.trn with recv := s.trn.recv.filter (fun r => !(r.sid.src.toNat == e)) } }

/-- The contexts of the streams towards a fenced endpoint go likewise. -/
def freeTarget (e : Nat) (s : State) : State :=
  let s := each ((s.trn.send.filter (fun c => c.sid.dst.toNat == e)).map (·.num)) (fun n s => freeSend n .fenced s) s
  { s with trn := { s.trn with recv := s.trn.recv.filter (fun r => !(r.sid.dst.toNat == e)) } }

/-- Both sides free their contexts towards an endpoint (R139, last row). -/
def freeEndpoint (e : Nat) (st : Status) (s : State) : State :=
  let nums := (s.trn.send.filter (fun c => c.sid.dst.toNat == e)).map (·.num)
  let s := each nums (fun n s => freeSend n st s) s
  { s with trn := { s.trn with recv := s.trn.recv.filter (fun r => !(r.sid.dst.toNat == e || r.sid.src.toNat == e)) } }

/-- Cut an access into frames at every 512-byte boundary of its FPA offset (R129). -/
def cutFrames : Nat → Nat → Nat → List (Nat × Nat)
  | 0, _, _ => []
  | fuel + 1, a, n =>
    if n = 0 then []
    else
      let k := Nat.min n (512 - a % 512)
      (a, k) :: cutFrames fuel (a + k) (n - k)

end Sys2Proof.Machine
end

