-- ==== Sys2Proof/Machine/Xlate.lean ====
section
/-!
DEFINITION. The source side of addressing: FVA layout (R57, R58), required plane (R61 to R63), the pages
a request touches, the translation caches and their misses (R66 to R70), and the cut of a translated
request into frames (R129).
-/

namespace Sys2Proof.Machine
open Sys2Proof

/-! ### Ports and tenants (R80) -/

def portTenant (s : State) (p : Nat) : Nat := fieldOf s (epbBase p + 0x40) 0 12
def portFifo (s : State) (p : Nat) : Bool := bitAt s (epbBase p + 0x40) 12
def portBound (s : State) (p : Nat) : Bool := bitAt s (epbBase p + 0x40) 13

/-! ### FVAs and planes -/

/-- The FVA layout is one R57 allows (R58). -/
def fvaOk (a : Nat) : Bool :=
  if a.testBit 63 then bitsOf a 48 12 == 0 else decide (bitsOf a 48 15 ≤ 0x47FF)

/-- Rotate from plane `p` to the first plane in service (R61). -/
def skipOos (oos : Nat) : Nat → Nat → Option Nat
  | 0, _ => none
  | n + 1, p => if oos.testBit p then skipOos oos n ((p + 1) % 8) else some p

/-- What R61 requires of the plane of a request. -/
inductive PlaneReq where
  | any | noneLeft | plane (p : Nat)
  deriving DecidableEq, Repr

/-- required_plane of R61 for a load, store, atomic or COMMIT. -/
def requiredPlane (addr opc : Nat) (comb fifo : Bool) (src oos : Nat) : PlaneReq :=
  let of := fun (o : Option Nat) => match o with | some p => PlaneReq.plane p | none => .noneLeft
  if addr.testBit 63 then .plane (bitsOf addr 60 3)
  else
    let il := Nat.xor (bitsOf addr 12 3) (bitsOf addr 15 3)
    if opc = 4 ∨ opc = 5 ∨ (opc = 1 ∧ comb) then of (skipOos oos 8 il)
    else if fifo ∧ (opc = 1 ∨ opc = 2 ∨ opc = 3) then of (skipOos oos 8 ((src + 3 * bitsOf addr 48 15) % 8))
    else .any

/-- Checks 3 and 4 of R72: the arrival plane is the required one, and it is available (R62). -/
def planeCheck (s : State) (r : PlaneReq) (f : Bool) (oos : Nat) : Status :=
  match r with
  | .any => .done
  | .noneLeft => .targetUnreachable
  | .plane p =>
    if p ≠ s.fab.plane.toNat then .malformed
    else if f && oos.testBit p then .targetUnreachable else .done

/-- The plane mask of the cluster of A-port `p` (R63). -/
def planeMask (s : State) (p : Nat) : Nat := fieldOf s (xltBase (p / 8) + 0x10) 0 8

/-! ### Pages -/

/-- The 2 MiB page of an FVA as a tenant sees it (R65). -/
def pageKeyOf (tenant a : Nat) : PageKey :=
  let f := a.testBit 63
  { tenant := BitVec.ofNat 12 tenant, f := f
    sel := BitVec.ofNat 15 (if f then bitsOf a 60 3 else bitsOf a 48 15)
    vpn := BitVec.ofNat 27 (bitsOf a 21 27) }

/-- The pages that `len` bytes at an FVA touch: one or two (R70). DESIGN CHOICE, unsafe (log 22): bytes that run past VOFF
2^48 carry into DEST with F = 0 and wrap to VOFF 0 with F = 1; the spec says nothing of such a request. -/
def pagesOf (tenant addr len : Nat) : List PageKey :=
  let a := pageKeyOf tenant addr
  let b := pageKeyOf tenant ((addr + len - 1) % 2 ^ 64)
  if a = b then [a] else [a, b]

/-- The slot of two words. -/
def slotW (x : BitVec 64 × BitVec 64) : SlotW := ⟨x.1.toNat, x.2.toNat⟩

def SlotW.coversKey (x : SlotW) (k : PageKey) : Bool := x.covers k.tenant.toNat k.f k.sel.toNat k.vpn.toNat

/-- The FPA (endpoint, SPACE and OFFSET) that a slot gives an FVA (R60). -/
def SlotW.fpaOf (x : SlotW) (addr : Nat) : Nat × Nat :=
  let off := if x.big then x.ppn / 512 * 2 ^ 30 + addr % 2 ^ 30 else x.ppn * 2 ^ 21 + addr % 2 ^ 21
  (x.endpoint, x.space * 2 ^ 44 + off % 2 ^ 44)

/-! ### The translation cache -/

/-- The set a page's entry lies in (R68: which is not specified). -/
def cacheSet (c : Nat) (k : PageKey) : Nat :=
  c * 1024 + (Config.cacheSet (k.tenant.toNat * 2 ^ 43 + b2n k.f * 2 ^ 42 + k.sel.toNat * 2 ^ 27 + k.vpn.toNat)).val

/-- The entries of a set, least recently used first. -/
def cacheWays (s : State) (i : Nat) : List CacheEntry := tget [] s.xlat.cache i

def setCache (i : Nat) (es : List CacheEntry) (s : State) : State :=
  { s with xlat := { s.xlat with cache := tput [] s.xlat.cache i es } }

/-- The slot that R67 chooses for a page from its bucket as it stands. -/
def chosenSlot (s : State) (c : Nat) (k : PageKey) : Option SlotW :=
  (bucketAddr s c k.tenant.toNat k.f k.sel.toNat k.vpn.toNat).bind (fun x =>
    pinnedSlot (sysRead s x 128) k.tenant.toNat k.f k.sel.toNat k.vpn.toNat)

/-- A hit: an entry of the page's set that covers it and is the slot R67 would choose (R68). DESIGN CHOICE, unsafe (log 9): the
entry of a 1 GiB page is found from the 2 MiB page that filled it only, since it lies in that page's set; R68 has it cover the
whole page and does not say how the other subpages find it. -/
def cacheFind (s : State) (c : Nat) (k : PageKey) : Option CacheEntry :=
  (cacheWays s (cacheSet c k)).find? (fun e =>
    (slotW (e.w0, e.w1)).coversKey k && chosenSlot s c k == some (slotW (e.w0, e.w1)))

/-- A hit makes its entry the most recently used of its set (R68). -/
def cacheTouch (c : Nat) (k : PageKey) (s : State) : State :=
  match cacheFind s c k with
  | some e => setCache (cacheSet c k) ((cacheWays s (cacheSet c k)).erase e ++ [e]) s
  | none => s

/-- The ports whose ways a tenant's misses of port `p` may use: its own ports of the cluster in isolated
tenancy, all in shared tenancy (R68). -/
def wayPorts (s : State) (p : Nat) : List Nat :=
  let all := (List.range 8).map (fun i => p / 8 * 8 + i)
  if s.ten.shared then all
  else all.filter (fun q => q == p || (portBound s q && portTenant s q == portTenant s p))

/-- Fill a page's set after a miss of port `p`: a free way of the ports whose ways the miss may use, two of each, or that
of their least recently used entry (R68). DESIGN CHOICE, unsafe (log 9): of the pseudo-LRU variants, which are not specified,
the model takes the exact order of use. -/
def cacheFill (p : Nat) (k : PageKey) (w : BitVec 64 × BitVec 64) (s : State) : State :=
  let i := cacheSet (p / 8) k
  let es := cacheWays s i
  let ways := wayPorts s p
  if es.any (fun e => e.w0 == w.1 && e.w1 == w.2) then s
  else match ways.find? (fun q => decide ((es.filter (fun e => e.port == q)).length < 2)) with
    | some q => setCache i (es ++ [{ port := q, w0 := w.1, w1 := w.2 }]) s
    | none =>
      match es.find? (fun e => ways.contains e.port) with
      | some e => setCache i (es.erase e ++ [{ port := e.port, w0 := w.1, w1 := w.2 }]) s
      | none => s

/-- Drop every cached entry that satisfies `f`, in every cluster (R76). -/
def cacheDrop (f : CacheEntry → Bool) (s : State) : State :=
  let cut := s.xlat.cache.map (fun x => (x.1, x.2.filter (fun e => !f e)))
  { s with xlat := { s.xlat with cache := cut.filter (fun x => !x.2.isEmpty) } }

/-! ### Misses -/

def missesOf (s : State) (c : Nat) : List Miss := tget [] s.xlat.misses c

def setMisses (c : Nat) (ms : List Miss) (s : State) : State :=
  { s with xlat := { s.xlat with misses := tput [] s.xlat.misses c ms } }

/-- Start a bucket read for a page, or join the one under way; at most 64 are outstanding per cluster (R68). -/
def startMiss (p : Nat) (k : PageKey) (s : State) : State :=
  let ms := missesOf s (p / 8)
  if ms.any (fun m => m.key == k) || decide (64 ≤ ms.length) then s
  else bump (cntXltMissCnt (p / 8)) (setMisses (p / 8) (ms ++ [{ key := k, port := p }]) s)

/-- What a bucket read finds for a page: the pinned slot used, or the failing status (R67, R69, R238). -/
def bucketResult (s : State) (c : Nat) (k : PageKey) (ecc : Ecc) : Except Status (BitVec 64 × BitVec 64) :=
  match bucketAddr s c k.tenant.toNat k.f k.sel.toNat k.vpn.toNat with
  | none => .error .unmapped
  | some x =>
    if sysReadFails s x ecc then .error .tierFailed
    else match pinnedSlot (sysRead s x 128) k.tenant.toNat k.f k.sel.toNat k.vpn.toNat with
      | some w => .ok (BitVec.ofNat 64 w.w0, BitVec.ofNat 64 w.w1)
      | none => .error .unmapped

/-- Permission of R72, check 7, by opcode. -/
def SlotW.permits (x : SlotW) (opc : Nat) : Bool :=
  if opc = 1 then x.r else if opc = 2 ∨ opc = 3 then x.w else x.a

/-- Checks 6 to 9 of R72 over the slots found. -/
def slotChecks (s : State) (opc : Nat) (ws : List SlotW) : Status :=
  if ws.any (fun w => !w.wf) then .malformed
  else if ws.any (fun w => !w.permits opc) then .accessDenied
  else if ws.any (fun w => quarantined s w.endpoint) then .targetLost
  else if ws.any (fun w => epFenced s w.endpoint) then .fenced
  else .done

/-! ### Segments and frames -/

/-- One page's share of a request. -/
structure Seg where
  ep  : Nat
  fpa : Nat
  pos : Nat
  len : Nat
  deriving DecidableEq, Repr

/-- The segments of a request of `len` bytes at `addr` over its slots. -/
def segments (addr len : Nat) : List SlotW → List Seg
  | [w] => [⟨(w.fpaOf addr).1, (w.fpaOf addr).2, 0, len⟩]
  | [w, v] =>
    let n := 2 ^ 21 - addr % 2 ^ 21
    let b := (addr + n) % 2 ^ 64
    [⟨(w.fpaOf addr).1, (w.fpaOf addr).2, 0, n⟩, ⟨(v.fpaOf b).1, (v.fpaOf b).2, n, len - n⟩]
  | _ => []

/-- Where in its request an answered frame's bytes belong. -/
def segPos (segs : List Seg) (ep off : Nat) : Option Nat :=
  (segs.find? (fun g => g.ep == ep && decide (g.fpa % 2 ^ 44 ≤ off ∧ off < g.fpa % 2 ^ 44 + g.len))).map
    (fun g => g.pos + (off - g.fpa % 2 ^ 44))

/-- Set FIRST on the first frame and LAST on the last. -/
def markEnds (fs : List Frame) : List Frame :=
  fs.mapIdx (fun i f => { f with first := i == 0, last := i + 1 == fs.length })

/-- The frames of one segment of a load, store, atomic or COMMIT (R125, R129). -/
def segFrames (s : State) (sid : StreamId) (m : AttMsg) (g : Seg) : List Frame :=
  (cutFrames 10 (g.fpa % 2 ^ 44) g.len).map (fun a =>
    let pos := g.pos + (a.1 - g.fpa % 2 ^ 44)
    let store := m.opc.toNat = 2 ∨ m.opc.toNat = 3
    let atom := m.opc.toNat = 4 ∨ m.opc.toNat = 5
    { type := tReq, cls := 2, ord := sid.ord, src := sid.src, dst := sid.dst, plane := s.fab.plane,
      comb := m.opc.toNat == 1 && m.comb, tenant := sid.tenant, opc := m.opc, atop := m.atop, scope := m.scope
      len := BitVec.ofNat 10 (if atom then m.payload.length else a.2)
      mid := midOf (g.fpa / 2 ^ 44 * 2 ^ 44 + a.1) m.keyidx.toNat m.keytag.toNat
      payload := if store then slice m.payload pos a.2 else if atom then m.payload else [] })

end Sys2Proof.Machine
end

