-- ==== Sys2Proof/Machine/Attach.lean ====
section
/-!
DEFINITION. The Attach sessions of the A-ports: messages and credits (R32 to R40), session states (R30,
R36), request checks 0 to 4 (R35, R72), custody of requests and their completions (R42, R46, R48), held
flags (R90, R91) and the life of a request from translation to its frames.
-/

namespace Sys2Proof.Machine
open Sys2Proof

/-! ### Messages and credits -/

/-- Units of 64 bytes a message costs: header, payload, padding to 4 bytes and CRC (R40). -/
def attUnits (m : AttMsg) : Nat := ceilDiv (ceilDiv (24 + m.payload.length) 4 * 4 + 4) 64

def isInbOpc (o : BitVec 8) : Bool := o == 0x28 || o == 0x29 || o == 0x2A

/-- Put a message on an A-port; in RECOVER none is started, and it waits (R292, R297). -/
def emitAtt (p : Nat) (m : AttMsg) (s : State) : State :=
  if h : p < 72 then
    if (portSt s p).state == .recover then modSess p (fun x => { x with toLink := x.toLink ++ [m] }) s
    else emit (.attach ⟨p, h⟩ m) s
  else s

/-- RECOVER is over: the messages that waited start (R297). -/
def releaseLink (p : Nat) (s : State) : State :=
  each (sess s p).toLink (emitAtt p) (modSess p (fun x => { x with toLink := [] }) s)

/-- The Oseno can send a message now: credits of its class, and fewer than 32,768 unacknowledged (R38, R40). -/
def canSend (x : Session) (m : AttMsg) : Bool :=
  decide (attUnits m ≤ (if isInbOpc m.opc then x.inbCrd else x.rspCrd)) && decide (x.unacked.length < 32768)

/-- Send a message: it takes the next MSN, its credits are spent and a copy is kept (R38, R40). -/
def transmit (p : Nat) (m : AttMsg) (s : State) : State :=
  let x := sess s p
  let g := { m with msn := x.txMsn }
  let u := attUnits m
  emitAtt p g (setSess p { x with
    txMsn := x.txMsn + 1, unacked := x.unacked ++ [(x.txMsn, g)]
    rspCrd := (if isInbOpc m.opc then x.rspCrd else x.rspCrd - u)
    inbCrd := (if isInbOpc m.opc then x.inbCrd - u else x.inbCrd) } s)

/-- Send what waits for credits, each class in order. -/
def flushAtt (p : Nat) (s : State) : State :=
  let r := (sess s p).blocked.foldl (fun (acc : State × List AttMsg) m =>
    let stuck := acc.2.any (fun b => isInbOpc b.opc == isInbOpc m.opc)
    if !stuck && canSend (sess acc.1 p) m then (transmit p m acc.1, acc.2) else (acc.1, acc.2 ++ [m])) (s, [])
  modSess p (fun x => { x with blocked := r.2 }) r.1

/-- Hand a message to the link: it goes at once or waits for credits. -/
def sendAtt (p : Nat) (m : AttMsg) (s : State) : State :=
  flushAtt p (modSess p (fun x => { x with blocked := x.blocked ++ [m] }) s)

/-- Send an ATTACH_NAK (R37, R54). -/
def sendAttNak (p : Nat) (msn : BitVec 16) (st : Status) (s : State) : State :=
  raiseEpb p evEpbAttNakTx (bump (cntEpbNakTxCnt p)
    (emitAtt p { opc := 0x3E, msn := msn, status := BitVec.ofNat 8 st.code } s))

/-! ### Sessions -/

/-- EPB_ATT_CTRL.EN as the device applies it: held at 0 before READY (R384). -/
def attEn (s : State) (p : Nat) : Bool := bitAt s (epbBase p) 0 && s.fab.joined

/-- The HELLO the Oseno sends (R36): `minor` is its revision, credits as granted for the session. -/
def helloMsg (x : Session) (minor : Nat) (st : Status) : AttMsg :=
  { opc := 0x3C, len := 16, status := BitVec.ofNat 8 st.code
    payload := [1, BitVec.ofNat 8 minor, 0, 0] ++ beBytes 2 x.reqCrd ++ beBytes 2 x.inrCrd ++ List.replicate 8 0 }

/-- Enter HELLO: the granted credits of the session are fixed and HELLO is sent (R30, R36). -/
def startHello (p : Nat) (s : State) : State :=
  let o := epbBase p + 0xC
  let x := { sess s p with state := .hello, reqCrd := fieldOf s o 0 16, inrCrd := fieldOf s o 16 16,
                           reqUsed := 0, inrUsed := 0
                           refused := false, nakSent := false, halted := false, waitEnd := false }
  emitAtt p (helloMsg x 1 .done) (setSess p x s)

/-- The A-port is in accelerator mode and its link is up: UP or RECOVER (R292). -/
def linkUp (s : State) (p : Nat) : Bool :=
  !isFabricPort s p && ((portSt s p).state == .up || (portSt s p).state == .recover)

/-- DOWN to HELLO where the link is UP and EN is 1 (R30). -/
def maybeHello (p : Nat) (s : State) : State :=
  let x := sess s p
  if x.state == .down && !x.refused && linkUp s p && attEn s p then startHello p s else s

/-- Refuse the peer: DOWN until the link retrains or EN is written 0 and then 1 (R30). -/
def refuseHello (p ev : Nat) (s : State) : State :=
  raiseEpb p ev (modSess p (fun x => { x with state := .down, refused := true }) s)

/-- The peer HELLO fixes the session (R30, R31, R36, R41). -/
def openSess (p : Nat) (m : AttMsg) (s : State) : State :=
  let minor := beField m.payload 1 1
  let caps := if minor = 0 then 0 else beField m.payload 2 2
  let o := epbBase p
  let deleg := caps.testBit 0 && bitAt s o 5
  let s := modSess p (fun x => { x with
    state := .up, minor := BitVec.ofNat 1 minor, deleg := deleg, acq := caps.testBit 1 && bitAt s o 6,
    atom128 := deleg && caps.testBit 2, rspCrd := beField m.payload 4 2, inbCrd := beField m.payload 6 2,
    rxMsn := 0, txMsn := 0, nakSent := false, unacked := [], blocked := [], waitEnd := false }) s
  emitAtt p (helloMsg (sess s p) minor .done) s

/-! ### Requests outstanding -/

def outOf (s : State) (p id : Nat) : Option OutReq := (sess s p).out.find? (fun r => r.id == id)

def modOut (p id : Nat) (f : OutReq → OutReq) (s : State) : State :=
  modSess p (fun x => { x with out := modFirst (fun r => r.id == id) f x.out }) s

/-- WRITE, WRITE_FLAG, ATOMIC, COMMIT and MOVE: what marks and flags wait for (R45, R46, R90). -/
def storeKind (o : BitVec 8) : Bool := decide (2 ≤ o.toNat ∧ o.toNat ≤ 6)

/-- The home endpoint of a page as far as it is known: of its slot, or the DEST of its FVA. -/
def PageRes.home (r : PageRes) : Option Nat :=
  match r.slot with
  | some w => some (slotW w).endpoint
  | none => if r.key.f then none else some r.key.sel.toNat

/-- An endpoint's memory is a home within a scope around the accelerator of A-port `p` (R93). -/
def epInScope (s : State) (p scope e : Nat) : Bool :=
  if scope = 0 then e == slotEp s p
  else if scope = 1 then
    (if e < 0x4800 then e / 72 == s.fab.rack.toNat else (e - 0x4800) / 8 == s.fab.rack.toNat)
  else true

/-- A mark or flag accepted as number `id` at `scope` waits for request `r` (R46, R90). -/
def covers (s : State) (p id scope : Nat) (r : OutReq) : Bool :=
  decide (r.id < id) && !r.gone && storeKind r.msg.opc &&
  (r.msg.opc == 6 || r.pages.any (fun g =>
    match g.home with | some e => epInScope s p scope e | none => true))

/-- Something the mark or flag waits for is still outstanding. -/
def covered (s : State) (p id scope : Nat) : Bool := (sess s p).out.any (covers s p id scope)

/-- The READ data of a request from its answers, in ascending order of position. -/
def gather (data : List (Nat × Bytes)) (len : Nat) : Bytes :=
  let put := fun (bs : Bytes) (d : Nat × Bytes) => bs.take d.1 ++ d.2 ++ bs.drop (d.1 + d.2.length)
  (data.foldl put (List.replicate len 0)).take len

/-- The answer that ends a request: MARK_DONE, whose LEN is 0, for a RELEASE_MARK, COMPLETION with the request's LEN
for every other (R34, R42, R46). -/
def endMsg (m : AttMsg) (st : Status) (payload : Bytes) : AttMsg :=
  { opc := (if m.opc == 8 then 0x21 else 0x20), tag := m.tag, len := (if m.opc == 8 then 0 else m.len)
    status := BitVec.ofNat 8 st.code, payload := payload }

/-- End a request on its link: ACQUIRE_MARK first where it applies (R48), then its one answer; how long a RELEASE_MARK took is kept (R103); a failed
store-kind request marks the flags behind it that are translating or held (R91). The cluster counts a request that ends
with UNMAPPED (R80). -/
def finishReq (p id : Nat) (st : Status) (payload : Bytes) (s : State) : State :=
  match outOf s p id with
  | none => s
  | some r =>
    let fail := st != .done && storeKind r.msg.opc
    let s := if st == .unmapped then bump (cntXltUnmappedCnt (p / 8)) s else s
    let s := if r.phase == .mark && !r.gone then peakTo (cntEpbMarkNs p) ((now s - r.since) / 1024) s else s
    let s := modSess p (fun x => { x with out :=
      ((x.out.filter (fun q => !(q.id == id))).map (fun q =>
        if fail && q.msg.opc == 3 && (q.phase == .translate || q.phase == .held) && covers s p q.id q.msg.scope.toNat r then { q with failed := true } else q)) }) s
    if r.gone then s
    else
      let x := sess s p
      let s := if x.acq && r.msg.acq && (r.msg.opc == 1 || r.msg.opc == 4 || r.msg.opc == 5) then
          sendAtt p { opc := 0x22, tag := r.msg.tag, scope := r.msg.scope } s
        else s
      let s := sendAtt p (endMsg r.msg st payload) s
      if st == .malformed then raiseEpb p evEpbAttMalformedRx s else s

/-! ### From slots to frames -/

/-- The slots of a request all of whose pages are resolved. -/
def OutReq.ws (r : OutReq) : List SlotW := r.pages.filterMap (fun g => g.slot.map slotW)

def OutReq.segs (r : OutReq) : List Seg := segments r.msg.addr.toNat r.msg.len.toNat r.ws

/-- READ, WRITE and WRITE_FLAG with COMB = 0 of a tenant in per-destination FIFO mode travel in the
ordered stream to their destination (R88). -/
def ordered (s : State) (p : Nat) (m : AttMsg) : Bool :=
  portFifo s p && (m.opc == 2 || m.opc == 3 || (m.opc == 1 && !m.comb))

/-- Issue the frames of a translated request: one fabric request per destination endpoint (R43, R129). -/
def issueReq (p id : Nat) (s : State) : State :=
  match outOf s p id with
  | none => s
  | some r =>
    let segs := r.segs
    let eps := (segs.map (·.ep)).eraseDups
    let s := modOut p id (fun r => { r with phase := .issued, left := eps.length }) s
    each eps (fun e s =>
      let sid : StreamId := ⟨BitVec.ofNat 16 (slotEp s p), BitVec.ofNat 16 e, ordered s p r.msg,
        BitVec.ofNat 12 (portTenant s p)⟩
      let fs := (segs.filter (fun g => g.ep == e)).flatMap (segFrames s sid r.msg)
      sendReq (.attach p id) sid r.msg.opc (markEnds fs) s) s

/-- The request is translated and waits: a WRITE_FLAG under R90, or any for its turn in its ordered stream. -/
def OutReq.waitsTurn (r : OutReq) : Bool := r.phase == .held || r.phase == .ready

/-- An earlier request of the same ordered stream has not been issued yet: the stream's PSNs follow the order of acceptance
(R88). One whose destination is not known yet may be of the stream. -/
def ordWaits (s : State) (p : Nat) (r : OutReq) : Bool :=
  ordered s p r.msg && (sess s p).out.any (fun q =>
    decide (q.id < r.id) && !q.gone && ordered s p q.msg && (q.phase == .translate || q.waitsTurn) &&
    q.pages.any (fun g => match g.home with | none => true | some e => r.segs.any (fun x => x.ep == e)))

/-- Let held WRITE_FLAGs and requests of ordered streams go on, in order of acceptance: a flag whose prerequisite failed
ends with ABORTED, what waits for nothing more is issued (R88, R90, R91). -/
def releaseFlags (p : Nat) (s : State) : State :=
  let ids := ((sess s p).out.filter OutReq.waitsTurn).map (·.id)
  each ids (fun id s =>
    match outOf s p id with
    | some r =>
      if r.phase == .held && r.failed then finishReq p id .aborted [] (trace 0x68 p 0 srcHw (bump (cntEpbFlagAbortCnt p) s))
      else if (r.phase == .held && covered s p id r.msg.scope.toNat) || ordWaits s p r then s else issueReq p id s
    | none => s) s

/-- End a request and let what waited for it go on. -/
def endOut (p id : Nat) (st : Status) (payload : Bytes) (s : State) : State :=
  releaseFlags p (finishReq p id st payload s)

/-- All pages of a request have their slots: checks 6 to 9, then issue, or a wait under R88 or R90 (R70, R72). -/
def translated (p id : Nat) (s : State) : State :=
  match outOf s p id with
  | none => s
  | some r =>
    let st := slotChecks s r.msg.opc.toNat r.ws
    if st != .done then endOut p id st [] s
    else if r.msg.opc == 3 then releaseFlags p (modOut p id (fun r => { r with phase := .held }) s)
    else if ordered s p r.msg then releaseFlags p (modOut p id (fun r => { r with phase := .ready }) s)
    else issueReq p id s

/-- Look up the pages a request still lacks: hits fill in, misses start bucket reads (R67 to R70). DESIGN CHOICE, unsafe
(log 22): the translator serves whatever XLT_CTRL.EN is, to which R80 gives no effect beyond its name. -/
def lookup (p id : Nat) (s : State) : State :=
  match outOf s p id with
  | none => s
  | some r =>
    let c := p / 8
    let find := fun (g : PageRes) => match g.slot with
      | some w => some w
      | none => (cacheFind s c g.key).map (fun e => (e.w0, e.w1))
    let hits := (r.pages.filter (fun g => g.slot.isNone && (find g).isSome)).length
    let pages := r.pages.map (fun g => { g with slot := find g })
    let s := each ((r.pages.filter (fun g => g.slot.isNone)).map (·.key)) (fun k s => cacheTouch c k s) s
    let s := bumpBy (cntXltHitCnt c) hits (modOut p id (fun r => { r with pages := pages }) s)
    let open_ := pages.filter (fun g => g.slot.isNone)
    if open_.isEmpty then translated p id s
    else if open_.any (fun g => (tableOf s c g.key.tenant.toNat).isNone) then
      endOut p id .unmapped [] s
    else each open_ (fun g s => startMiss p g.key s) s

/-- The oldest bucket read of a cluster returns; what it finds is counted (R67, R69, R238, R241). -/
def bucketReturn (c : Nat) (ecc : Ecc) (s : State) : State :=
  match missesOf s c with
  | [] => s
  | m :: rest =>
    let res := bucketResult s c m.key ecc
    let s := sysFound (bucketAddr s c m.key.tenant.toNat m.key.f m.key.sel.toNat m.key.vpn.toNat) ecc (setMisses c rest s)
    let s := match res with | .ok w => cacheFill m.port m.key w s | .error _ => s
    let waits := ((List.range 8).map (fun i => c * 8 + i)).flatMap (fun p =>
      ((sess s p).out.filter (fun r => r.phase == .translate)).map (fun r => (p, r.id)))
    each waits (fun pi s =>
      match outOf s pi.1 pi.2 with
      | none => s
      | some r =>
        if r.pages.any (fun g => g.key == m.key && g.slot.isNone) then
          match res with
          | .ok w =>
            let pages := modAll (fun (g : PageRes) => g.key == m.key) (fun g => { g with slot := some w }) r.pages
            lookup pi.1 pi.2 (modOut pi.1 pi.2 (fun r => { r with pages := pages }) s)
          | .error st =>
            endOut pi.1 pi.2 st [] s
        else lookup pi.1 pi.2 s) s

/-- A fabric request of an Attach request has ended. -/
def attachEnded (p id : Nat) (f : FabReq) (s : State) : State :=
  match outOf s p id with
  | none => s
  | some r =>
    let data := f.data.filterMap (fun d => (segPos r.segs f.sid.dst.toNat d.1).map (fun pos => (pos, d.2)))
    let r' := { r with left := r.left - 1, status := worse r.status f.status, data := r.data ++ data }
    let s := modOut p id (fun _ => r') s
    if r'.left = 0 then
      let st := r'.status
      let carries := (st == .done && (r.msg.opc == 1 || r.msg.opc == 4 || r.msg.opc == 5)) || st == .commitLost
      endOut p id st (if carries then gather r'.data r.msg.len.toNat else []) s
    else s

/-! ### The request checks at the source (R35, R44, R72) -/

/-- Operand types an atomic operation allows (R44). -/
def atopTypes : Nat → List Nat
  | 0 => [0, 1, 2] | 1 => [0, 1] | 2 => [1, 3] | 3 => [0, 1, 4, 5] | 4 => [0, 1, 4, 5]
  | 5 => [0, 1] | 6 => [0, 1] | 7 => [0, 1] | _ => []

/-- Operand size of an ATOP, 0 for a reserved combination (R44). -/
def atopSize (a : Nat) : Nat :=
  if (atopTypes (a / 16)).contains (a % 16) then [4, 8, 4, 16, 4, 8].getD (a % 16) 0 else 0

/-- The fields that must be 0 in a request are 0, and SCOPE is no reserved code (R32, R35). -/
def reqFieldsOk (m : AttMsg) : Bool :=
  !m.ord && m.rsv1 == 0 && m.rsvTag == 0 && m.rsvLen == 0 && m.status == 0 && m.scope != 3 &&
  decide (m.len.toNat ≤ 4096)

/-- The format of a load, store, atomic, COMMIT or RELEASE_MARK (R34, R35, R44, R119). -/
def reqFormat (m : AttMsg) : Bool :=
  let n := m.len.toNat
  let a := m.addr.toNat
  reqFieldsOk m &&
  (match m.opc.toNat with
   | 1 => m.atop == 0 && decide (1 ≤ n) && m.payload.isEmpty
   | 2 => m.atop == 0 && decide (1 ≤ n) && m.payload.length == n
   | 3 => m.atop == 0 && decide (1 ≤ n ∧ a % 128 + n ≤ 128) && m.payload.length == n
   | 4 => let z := atopSize m.atop.toNat
          z != 0 && n == z && a % z == 0 &&
          m.payload.length == (if m.atop.toNat / 16 = 2 then 2 * z else z)
   | 5 => m.atop == 0 && n == 8 && a % 8 == 0 && m.payload.length == 8 && leNat m.payload != 0
   | 8 => m.atop == 0 && n == 0 && m.payload.isEmpty
   | _ => false)

/-- Checks 0 to 4 of R72 for a load, store, atomic or COMMIT whose opcode must be `opc`. -/
def reqCheck (s : State) (p opc : Nat) (m : AttMsg) : Status :=
  if !portBound s p then .fenced
  else if m.opc.toNat ≠ opc ∨ !reqFormat m then .malformed
  else if opc = 8 then .done
  else if !fvaOk m.addr.toNat then .malformed
  else planeCheck s (requiredPlane m.addr.toNat opc m.comb (portFifo s p) (slotEp s p) (planeMask s p))
    (m.addr.toNat.testBit 63) (planeMask s p)

/-! ### Taking a message (R37, R39, R40, R54) -/

/-- Whether a message is taken. -/
inductive Arrival where
  | take | ignore
  | reply (nak : Bool) (msn : BitVec 16) (st : Status) (viol : Bool)
  deriving DecidableEq, Repr

/-- Units a message may still cost: of its class, what was granted less what is not yet returned (R37, R40). -/
def credited (x : Session) (isDone : Bool) : Nat := if isDone then x.inrCrd - x.inrUsed else x.reqCrd - x.reqUsed

/-- What R37 and R54 do with an arriving message with a good CRC-32. -/
def arrival (s : State) (p : Nat) (m : AttMsg) : Arrival :=
  let x := sess s p
  let isDone := m.opc == 0x30
  if x.state == .up || (x.state == .fenced && isDone && !x.waitEnd) then
    if m.msn == x.rxMsn then
      if attUnits m ≤ credited x isDone then .take
      else .reply true x.rxMsn .done true
    else if 32768 ≤ (m.msn - x.rxMsn).toNat then .reply false (x.rxMsn - 1) .done false
    else .ignore
  else if x.state == .fenced then .reply true x.rxMsn .fenced false
  else .ignore

/-- e advances, the message's units are spent and ACCEPT covers it (R37, R39, R40). -/
def acceptMsg (p : Nat) (m : AttMsg) (s : State) : State :=
  let u := attUnits m
  emitAtt p { opc := 0x3D, msn := m.msn } (modSess p (fun x => { x with
    rxMsn := x.rxMsn + 1, nakSent := false
    reqUsed := if m.opc == 0x30 then x.reqUsed else x.reqUsed + u
    inrUsed := if m.opc == 0x30 then x.inrUsed + u else x.inrUsed }) s)

/-- A message's units come back in a CREDIT (R40). -/
def giveCredit (p : Nat) (m : AttMsg) (s : State) : State :=
  let u := attUnits m
  let a := if m.opc == 0x30 then u else u * 2 ^ 48
  emitAtt p { opc := 0x3F, addr := BitVec.ofNat 64 a } (modSess p (fun x => { x with
    reqUsed := if m.opc == 0x30 then x.reqUsed else x.reqUsed - u
    inrUsed := if m.opc == 0x30 then x.inrUsed - u else x.inrUsed }) s)

/-- The withheld units of a request still in custody come back, unless its session is over (R40, R187). -/
def giveBack (p id : Nat) (m : AttMsg) (s : State) : State :=
  match outOf s p id with
  | some r => if r.gone then s else giveCredit p m s
  | none => s

/-- A message arrives; where it is accepted, `k` goes on with it, its credits still out. -/
def onAccept (p : Nat) (m : AttMsg) (k : State → State) (s : State) : State :=
  match arrival s p m with
  | .take => k (acceptMsg p m s)
  | .ignore => s
  | .reply nak msn st viol =>
    if nak then
      sendAttNak p msn st (if viol then raiseEpb p evEpbAttCreditViol s else s)
    else emitAtt p { opc := 0x3D, msn := msn } s

/-- A message arrives; where it is taken, `k` goes on with it. -/
def onMsg (p : Nat) (m : AttMsg) (k : State → State) (s : State) : State :=
  onAccept p m (fun s => k (giveCredit p m s)) s

/-- A message with a bad CRC-32 is discarded; ATTACH_NAK goes once until a good message with MSN = e
arrives (R37). DESIGN CHOICE, safe (log 78): on a FENCED port too its STATUS is DONE, so that a corrupt INB_DONE is resent;
R37 and R54 do not say which. -/
def corruptAt (p : Nat) (s : State) : State :=
  let x := sess s p
  if (x.state == .up || x.state == .fenced) && !x.nakSent then
    sendAttNak p x.rxMsn .done (modSess p (fun x => { x with nakSent := true }) s)
  else s

/-- Put a request into the Oseno's custody in a phase, and give its number. -/
def addOut (p : Nat) (m : AttMsg) (ph : Phase) (pages : List PageRes) (s : State) : State :=
  modSess p (fun x => { x with
    nextOut := x.nextOut + 1
    out := x.out ++ [{ id := x.nextOut, msg := m, phase := ph, pages := pages, since := now s }] }) s

/-- The number the next request of a link takes. -/
def nextOut (s : State) (p : Nat) : Nat := (sess s p).nextOut

/-- Count a request that ends at checks 3 and 4 of R72: `past` says that it passed the checks before them (R80, R147). -/
def notePlane (p : Nat) (st : Status) (past : Bool) (s : State) : State :=
  if st == .malformed && past then bump (cntEpbPlaneCnt p) s
  else if st == .targetUnreachable then bump cntTrnUnreachCnt s else s

/-- A load, store, atomic or COMMIT is taken (rows READ to COMMIT). -/
def takeReq (opc p : Nat) (m : AttMsg) (s : State) : State :=
  onMsg p m (fun s =>
    let id := nextOut s p
    let st := reqCheck s p opc m
    let pages := if st == .done then (pagesOf (portTenant s p) m.addr.toNat m.len.toNat).map (fun k => { key := k }) else []
    let s := addOut p m .translate pages (notePlane p st (m.opc.toNat == opc && reqFormat m && fvaOk m.addr.toNat) s)
    if st == .done then lookup p id s else endOut p id st [] s) s

/-- A RELEASE_MARK is taken: refused at once, or it waits (R46). -/
def takeMark (p : Nat) (m : AttMsg) (s : State) : State :=
  onMsg p m (fun s =>
    let id := nextOut s p
    let st := reqCheck s p 8 m
    let s := addOut p { m with opc := 8 } .mark [] s
    if st == .done then s else endOut p id st [] s) s

/-- The mark of a tag has waited out what it covers: MARK_DONE with DONE (R46). -/
def markDone (p : Nat) (tag : BitVec 13) (s : State) : State :=
  match (sess s p).out.find? (fun r => r.phase == .mark && r.msg.tag == tag) with
  | none => s
  | some r =>
    if covered s p r.id r.msg.scope.toNat then s
    else endOut p r.id .done [] s

/-! ### Custody of what the Oseno sends (R38, R39) -/

/-- An ACCEPT with MSN m acknowledges every message up to and including m. -/
def acceptTo (p : Nat) (msn : BitVec 16) (s : State) : State :=
  let x := sess s p
  if (x.state == .up || x.state == .fenced) && x.unacked.any (fun u => u.1 == msn) then
    setSess p { x with unacked := (x.unacked.dropWhile (fun u => !(u.1 == msn))).drop 1 } s
  else s

/-- Resend the copies from MSN `e` on, in order. -/
def resendFrom (p : Nat) (ms : List (BitVec 16 × AttMsg)) (s : State) : State :=
  each ms (fun m s => emitAtt p m.2 (bump (cntEpbResendCnt p) s)) s

/-- What the session loses when it leaves UP or FENCED by loss of the link, LOST or EN = 0: requests that
have no frames under way are abandoned, the others finish without a COMPLETION (R30, R47). DESIGN CHOICE, unsafe (log 78): REV
keeps the last session's revision, DELEG, ACQ and ATOM128 read 0; R56 does not say what REV shows then. -/
def sessLeave (p : Nat) (to_ : AttState) (s : State) : State :=
  modSess p (fun x => { x with
    state := to_, deleg := false, acq := false, atom128 := false, rspCrd := 0, inbCrd := 0, unacked := [],
    blocked := [], toLink := [], nakSent := false, halted := false, waitEnd := false
    out := (x.out.filter (fun r => r.phase == .issued || r.phase == .moving || r.phase == .coll)).map
      (fun r => { r with gone := true }) }) s

end Sys2Proof.Machine
end

