-- ==== Sys2Proof/Machine/Digest.lean ====
section
/-!
DEFINITION. SHA-384, the digest the spec names for Almanac images (R157), transform programs (R226), images and Catalogues
(R340, R372), measured regions (R256) and evidence (R328). Its computation is FIPS 180-4's (PRESUMED, assumption 12), written
from what that standard says its constants are: fractional parts of roots of primes.
-/

namespace Sys2Proof.Machine
open Sys2Proof

/-! ### The constants, from the primes -/

/-- The primes below 410: the first 80. -/
def smallPrimes : List Nat :=
  (List.range 410).filter (fun n => decide (1 < n) && (List.range 21).all (fun d => decide (d < 2 ∨ n < d * d ∨ 0 < n % d)))

/-- The first 64 bits of the fractional part of the `k`-th root of `n`, found bit by bit from the top. -/
def rootBits (k n : Nat) : BitVec 64 :=
  BitVec.ofNat 64 ((List.range 69).foldl (fun r i =>
    let r' := r + 2 ^ (68 - i)
    if r' ^ k ≤ n * 2 ^ (64 * k) then r' else r) 0)

/-- The constant of each of the 80 rounds: the primes' cube roots. -/
def roundConsts : List (BitVec 64) := smallPrimes.map (rootBits 3)

/-- The words SHA-384 starts from: the square roots of the ninth to the sixteenth prime. -/
def startWords : List (BitVec 64) := ((smallPrimes.drop 8).take 8).map (rootBits 2)

/-! ### Compressing a block -/

/-- A word turned right by each distance of a list, the turns and `x` itself shifted by `sh` (if any) added bitwise. -/
def turns (rs : List Nat) (sh : Option Nat) (x : BitVec 64) : BitVec 64 :=
  let last := match sh with | some k => x.ushiftRight k | none => 0
  (rs.map (fun r => x.ushiftRight r ||| x.shiftLeft (64 - r))).foldr (· ^^^ ·) last

/-- A block under compression: the next 16 schedule words, and the words that each round puts in front of the two halves of
the working state, newest first. -/
structure Compress where
  sched : List (BitVec 64)
  up    : List (BitVec 64)
  low   : List (BitVec 64)
  deriving DecidableEq, Repr

/-- Word `i` of a list, 0 past its end. -/
abbrev wordAt (xs : List (BitVec 64)) (i : Nat) : BitVec 64 := xs.getD i 0

/-- One round: a new word for each half, and the schedule moves on by one word. -/
def compressRound (c : Compress) (k : BitVec 64) : Compress :=
  let w := wordAt c.sched
  let u := wordAt c.up
  let l := wordAt c.low
  let pick := l 2 ^^^ (l 0 &&& (l 1 ^^^ l 2))
  let most := (u 0 &&& u 1) ||| (u 2 &&& (u 0 ||| u 1))
  let add := l 3 + turns [14, 18, 41] none (l 0) + pick + k + w 0
  { sched := c.sched.drop 1 ++ [turns [19, 61] (some 6) (w 14) + w 9 + turns [1, 8] (some 7) (w 1) + w 0]
    up := (add + turns [28, 34, 39] none (u 0) + most) :: c.up.take 3
    low := (u 3 + add) :: c.low.take 3 }

/-- The digest words after a block of 128 bytes. -/
def compressBlock (h : List (BitVec 64)) (blk : Bytes) : List (BitVec 64) :=
  let words := (List.range 16).map (fun i => BitVec.ofNat 64 (beField blk (8 * i) 8))
  let c := roundConsts.foldl compressRound { sched := words, up := h.take 4, low := h.drop 4 }
  (List.range 8).map (fun i => wordAt h i + wordAt (c.up ++ c.low) i)

/-! ### The digest -/

/-- A message made up to whole blocks: a 1 bit, zeros, and its length in bits in 16 bytes. -/
def padded (m : Bytes) : Bytes :=
  m ++ 0x80 :: List.replicate ((240 - (m.length + 1) % 128) % 128) 0 ++ beBytes 16 (8 * m.length)

/-- SHA-384 of a byte string: 48 bytes. -/
def sha384 (m : Bytes) : Bytes :=
  let p := padded m
  let h := (List.range (p.length / 128)).foldl (fun h i => compressBlock h (slice p (128 * i) 128)) startWords
  (h.take 6).flatMap (fun w => beBytes 8 w.toNat)

end Sys2Proof.Machine
end

