-- ==== Sys2Proof/Machine/Number.lean ====
section
/-!
DEFINITION. The arithmetic of the part: binary32 as R108 and R220 give it, the element formats of R207
with their conversions in (R209) and out (R217 to R220), stochastic rounding (R218), MX blocks (R208,
R219), the combining tree (R213), the steps of a program (R224) and the atomic operations of R108.
-/

namespace Sys2Proof.Machine
open Sys2Proof

/-! ### Floating formats -/

/-- A value: NaN, an infinity, or m × 2^e with a sign. -/
inductive Num where
  | nan
  | inf (neg : Bool)
  | fin (neg : Bool) (m : Nat) (e : Int)
  deriving DecidableEq, Repr

/-- How a format uses its largest exponent: as IEEE 754, as E4M3 (one NaN code), or not specially. -/
inductive Special where
  | ieee | e4m3 | none
  deriving DecidableEq, Repr

/-- A floating format: exponent and mantissa bits, bias, special codes, largest finite code, and whether a
finite overflow saturates (R207, R220). -/
structure Fmt where
  eb : Nat
  mb : Nat
  bias : Int
  sp : Special
  maxCode : Nat
  sat : Bool
  deriving DecidableEq, Repr

abbrev fmt32 : Fmt := ⟨8, 23, 127, .ieee, 0x7F7FFFFF, false⟩
abbrev fmtBf16 : Fmt := ⟨8, 7, 127, .ieee, 0x7F7F, false⟩
abbrev fmt16 : Fmt := ⟨5, 10, 15, .ieee, 0x7BFF, false⟩
abbrev fmtE4M3 : Fmt := ⟨4, 3, 7, .e4m3, 0x7E, true⟩
abbrev fmtE5M2 : Fmt := ⟨5, 2, 15, .ieee, 0x7B, true⟩
abbrev fmtE3M2 : Fmt := ⟨3, 2, 3, .none, 0x1F, true⟩
abbrev fmtE2M3 : Fmt := ⟨2, 3, 1, .none, 0x1F, true⟩
abbrev fmtE2M1 : Fmt := ⟨2, 1, 1, .none, 0x7, true⟩

/-- The value of a code. -/
def Fmt.decode (f : Fmt) (v : Nat) : Num :=
  let neg := v.testBit (f.eb + f.mb)
  let ex := bitsOf v f.mb f.eb
  let ma := bitsOf v 0 f.mb
  let top := ex == 2 ^ f.eb - 1
  if top && f.sp == .ieee then (if ma = 0 then .inf neg else .nan)
  else if top && f.sp == .e4m3 && ma == 2 ^ f.mb - 1 then .nan
  else if ex = 0 then .fin neg ma (1 - f.bias - f.mb)
  else .fin neg (2 ^ f.mb + ma) (ex - f.bias - f.mb)

/-- Rounding: nearest even, toward zero, or stochastic with its 32 random bits (R217, R218). -/
inductive RMode where
  | rne | rtz | stoch (r : Nat)
  deriving DecidableEq, Repr

/-- Drop `d` bits of `m` under a rounding mode. -/
def roundShift (md : RMode) (m d : Nat) : Nat :=
  let n := m / 2 ^ d
  let rem := m % 2 ^ d
  match md with
  | .rtz => n
  | .rne => if 2 ^ d < 2 * rem ∨ (2 * rem = 2 ^ d ∧ n % 2 = 1 ∧ 0 < d) then n + 1 else n
  | .stoch r => if r * 2 ^ d < rem * 2 ^ 32 then n + 1 else n

/-- The sign bit of a code. -/
def Fmt.signBit (f : Fmt) (neg : Bool) : Nat := if neg then 2 ^ (f.eb + f.mb) else 0

/-- The code of +Inf; for E4M3 its NaN. -/
def Fmt.infCode (f : Fmt) : Nat := (2 ^ f.eb - 1) * 2 ^ f.mb

/-- The quiet NaN a conversion gives (R220). -/
def Fmt.nanCode (f : Fmt) : Nat :=
  match f.sp with
  | .ieee => f.infCode + 2 ^ (f.mb - 1)
  | _ => 2 ^ (f.eb + f.mb) - 1

/-- Magnitude code of m × 2^e (m > 0), and whether it saturated. -/
def Fmt.roundMag (f : Fmt) (md : RMode) (m : Nat) (e : Int) : Nat × Bool :=
  let l : Int := Nat.log2 m + e
  let emin : Int := 1 - f.bias - f.mb
  let q : Int := max (l - f.mb) emin
  let code := fun (md : RMode) =>
    let n := if q ≤ e then m * 2 ^ (e - q).toNat else roundShift md m (q - e).toNat
    (q - emin).toNat * 2 ^ f.mb + n
  -- beyond the largest finite value, for the formats that saturate: not rounded at all (R218, R220)
  let exact := decide (e ≥ q) || m % 2 ^ (q - e).toNat == 0
  let t := code .rtz
  let beyond := decide (f.maxCode < t) || (t == f.maxCode && !exact)
  if f.sat then (if beyond then (f.maxCode, true) else (code md, false))
  else
    let c := code md
    if f.maxCode < c then (match md with | .rtz => (f.maxCode, true) | _ => (f.infCode, false)) else (c, false)

/-- Convert a value into a format: the code, and whether it saturated (R217 to R220). -/
def Fmt.encode (f : Fmt) (md : RMode) : Num → Nat × Bool
  | .nan => (f.nanCode, false)
  | .inf neg => (match f.sp with | .ieee => f.signBit neg + f.infCode | _ => f.nanCode, false)
  | .fin neg m e =>
    if m = 0 then (f.signBit neg, false)
    else let r := f.roundMag md m e; (f.signBit neg + r.1, r.2)

/-! ### binary32 -/

def dec32 (v : BitVec 32) : Num := fmt32.decode v.toNat
def enc32 (n : Num) : BitVec 32 := BitVec.ofNat 32 (fmt32.encode .rne n).1

/-- The exact sum. -/
def Num.add : Num → Num → Num
  | .nan, _ | _, .nan => .nan
  | .inf a, .inf b => if a = b then .inf a else .nan
  | .inf a, .fin .. | .fin .., .inf a => .inf a
  | .fin s m e, .fin t n d =>
    if m = 0 ∧ n = 0 then .fin (s && t) 0 0
    else
      let q := min e d
      let x : Int := (if s then -1 else 1) * (m * 2 ^ (e - q).toNat : Nat) +
        (if t then -1 else 1) * (n * 2 ^ (d - q).toNat : Nat)
      .fin (decide (x < 0)) x.natAbs q

/-- The exact product. -/
def Num.mul : Num → Num → Num
  | .nan, _ | _, .nan => .nan
  | .inf a, .inf b => .inf (a != b)
  | .inf a, .fin s m _ | .fin s m _, .inf a => if m = 0 then .nan else .inf (a != s)
  | .fin s m e, .fin t n d => .fin (s != t) (m * n) (e + d)

/-- binary32 addition, rounded to nearest even (R108, R213, R220). -/
def add32 (a b : BitVec 32) : BitVec 32 := enc32 ((dec32 a).add (dec32 b))

/-- binary32 multiplication, rounded to nearest even (R210). -/
def mul32 (a b : BitVec 32) : BitVec 32 := enc32 ((dec32 a).mul (dec32 b))

def isNan32 (a : BitVec 32) : Bool := dec32 a == .nan

/-- A number that orders the codes of non-NaN values, −0 below +0. -/
def key32 (a : BitVec 32) : Int :=
  let m : Int := bitsOf a.toNat 0 31
  if a.getLsbD 31 then -m - 1 else m

def max32 (a b : BitVec 32) : BitVec 32 :=
  if isNan32 a || isNan32 b then 0x7FC00000 else if key32 a < key32 b then b else a

def min32 (a b : BitVec 32) : BitVec 32 :=
  if isNan32 a || isNan32 b then 0x7FC00000 else if key32 b < key32 a then b else a

/-! ### Element formats (R207) -/

/-- The plain floating formats by code. -/
def plainFmt : Nat → Option Fmt
  | 0 => some fmt32 | 1 => some fmtBf16 | 2 => some fmt16 | 3 => some fmtE4M3 | 4 => some fmtE5M2
  | _ => none

/-- The element formats of the MX codes; MXINT8 has none. -/
def mxFmt : Nat → Option Fmt
  | 0x10 => some fmtE4M3 | 0x11 => some fmtE5M2 | 0x12 => some fmtE3M2 | 0x13 => some fmtE2M3
  | 0x14 => some fmtE2M1 | _ => none

def isFloatTy (t : Nat) : Bool := decide (t ≤ 4)
def isMxTy (t : Nat) : Bool := decide (0x10 ≤ t ∧ t ≤ 0x15)
def isTy (t : Nat) : Bool := decide (t ≤ 5) || isMxTy t

/-- Bytes of an element of a format that is not MX. -/
def elemBytes (t : Nat) : Nat := if t = 1 ∨ t = 2 then 2 else if t = 3 ∨ t = 4 then 1 else 4

/-- Bits per element within an MX block. -/
def mxBits (t : Nat) : Nat := if t = 0x12 ∨ t = 0x13 then 6 else if t = 0x14 then 4 else 8

/-- Bytes of an MX block of 32 elements, the scale included (R208). -/
def mxBlock (t : Nat) : Nat := 1 + 4 * mxBits t

/-- emax of R207. -/
def mxEmax (t : Nat) : Int := if t = 0x10 then 8 else if t = 0x11 then 15 else if t = 0x12 then 4
  else if t = 0x13 ∨ t = 0x14 then 2 else 0

/-- Bytes of `n` elements. -/
def tyBytes (t n : Nat) : Nat := if isMxTy t then ceilDiv n 32 * mxBlock t else n * elemBytes t

/-- The value of an MX element code under scale byte `sc` (R207, R209). -/
def mxDecode (t sc code : Nat) : BitVec 32 :=
  if sc = 0xFF then 0x7FC00000
  else
    let k : Int := sc - 127
    match mxFmt t with
    | some f =>
      match f.decode code with
      | .fin s m e => enc32 (.fin s m (e + k))
      | .inf s => enc32 (.inf s)
      | .nan => 0x7FC00000
    | none =>
      let i : Int := if 128 ≤ code then (code : Int) - 256 else code
      enc32 (.fin (decide (i < 0)) i.natAbs (k - 6))

/-- The elements of a byte string as binary32 words; INT32 words stay as they are (R208, R209). -/
def unpack (t : Nat) (bs : Bytes) : List (BitVec 32) :=
  if isMxTy t then
    (List.range (bs.length / mxBlock t)).flatMap (fun b =>
      let sc := leField bs (b * mxBlock t) 1
      let body := leField bs (b * mxBlock t + 1) (mxBlock t - 1)
      (List.range 32).map (fun k => mxDecode t sc (bitsOf body (k * mxBits t) (mxBits t))))
  else
    let w := elemBytes t
    (List.range (bs.length / w)).map (fun i =>
      let v := leField bs (i * w) w
      match plainFmt t with
      | some f => if f = fmt32 then BitVec.ofNat 32 v else enc32 (f.decode v)
      | none => BitVec.ofNat 32 v)

/-- The elements of a byte string as raw bits (AND, OR, XOR; R210). -/
def unpackRaw (t : Nat) (bs : Bytes) : List (BitVec 32) :=
  let w := elemBytes t
  (List.range (bs.length / w)).map (fun i => BitVec.ofNat 32 (leField bs (i * w) w))

def packRaw (t : Nat) (vs : List (BitVec 32)) : Bytes := vs.flatMap (fun v => leBytes (elemBytes t) v.toNat)

/-- The result of a conversion out, with its counts of saturated values and NaN elements. -/
structure Packed where
  bytes : Bytes
  sats  : Nat := 0
  nans  : Nat := 0
  deriving DecidableEq, Repr

/-- ⌊log2 |v|⌋ of a nonzero finite value. -/
def floorLog2 : Num → Int
  | .fin _ m e => Nat.log2 m + e
  | _ => 0

/-- Round v / 2^x to an integer code of MXINT8: the element times 2^6, saturating at ±127 (R219). -/
def mxInt8 (md : RMode) (x : Int) : Num → Nat × Bool
  | .fin s m e =>
    let q : Int := x - 6
    let n := if q ≤ e then m * 2 ^ (e - q).toNat else roundShift md m (q - e).toNat
    let k := Nat.min n 127
    ((if s then (256 - k) % 256 else k), decide (127 < n))
  | _ => (0, false)

/-- One MX block of results; `md` gives the rounding mode of element k (R219). -/
def packMx (t : Nat) (md : Nat → RMode) (vs : List (BitVec 32)) : Packed :=
  let ns := vs.map dec32
  let bad := ns.any (fun n => match n with | .fin .. => false | _ => true)
  if bad then { bytes := 0xFF :: List.replicate (mxBlock t - 1) 0, nans := vs.length }
  else
    let tops := (ns.filter (fun n => match n with | .fin _ m _ => m != 0 | _ => false)).map floorLog2
    let x : Int := match tops with
      | [] => -127
      | y :: ys => max (-127) (min 127 (ys.foldl max y - mxEmax t))
    let codes := ns.mapIdx (fun k n =>
      match mxFmt t with
      | some f => (match n with | .fin s m e => f.encode (md k) (.fin s m (e - x)) | _ => (0, false))
      | none => mxInt8 (md k) x n)
    let body := codes.foldr (fun c acc => acc * 2 ^ mxBits t + c.1) 0
    { bytes := BitVec.ofInt 8 (x + 127) :: leBytes (mxBlock t - 1) body
      sats := (codes.filter (·.2)).length }

/-- Cut a list into runs of `n`. -/
def runsOf {α : Type} : Nat → Nat → List α → List (List α)
  | 0, _, _ => []
  | fuel + 1, n, xs => if xs.isEmpty then [] else xs.take n :: runsOf fuel n (xs.drop n)

/-- Convert binary32 words to a format (R217 to R220): `md` gives the rounding mode of element k. -/
def packTy (t : Nat) (md : Nat → RMode) (vs : List (BitVec 32)) : Packed :=
  if isMxTy t then
    (runsOf (vs.length / 32 + 1) 32 vs).mapIdx (fun b ws => packMx t (fun k => md (32 * b + k)) ws) |>.foldl
      (fun acc p => { bytes := acc.bytes ++ p.bytes, sats := acc.sats + p.sats, nans := acc.nans + p.nans }) { bytes := [] }
  else match plainFmt t with
    | none => { bytes := vs.flatMap (fun v => leBytes 4 v.toNat) }
    | some f =>
      let cs := vs.mapIdx (fun k v => (f.encode (md k) (dec32 v), v))
      let isNan := fun (c : Nat) => f.decode c == .nan
      { bytes := cs.flatMap (fun c => leBytes (elemBytes t) c.1.1)
        sats := (cs.filter (fun c => c.1.2)).length
        nans := (cs.filter (fun c => isNan c.1.1)).length }

/-! ### The stochastic generator (R218) -/

/-- 32 random bits for a value. -/
def srBits (handle seq plane lo point index : Nat) : Nat :=
  let m := 2 ^ 64
  let x := (index + point * 2 ^ 48) % m
  let x := Nat.xor x ((handle * 2 ^ 32 + seq) * 0x9E3779B97F4A7C15 % m)
  let x := Nat.xor x ((plane * 2 ^ 16 + lo) * 0xC2B2AE3D27D4EB4F % m)
  let x := Nat.xor x (x / 2 ^ 30) * 0xBF58476D1CE4E5B9 % m
  let x := Nat.xor x (x / 2 ^ 27) * 0x94D049BB133111EB % m
  let x := Nat.xor x (x / 2 ^ 31)
  x / 2 ^ 32

/-! ### Combining (R210, R213) -/

/-- `add` of R213 for a RED_OP over one element: FP32, INT32 (`int`) or raw bits. -/
def redOp (op : Nat) (int : Bool) (a b : BitVec 32) : BitVec 32 :=
  if op = 6 then a &&& b else if op = 7 then a ||| b else if op = 8 then a ^^^ b
  else if int then
    if op = 4 then (if a.toInt < b.toInt then b else a)
    else if op = 5 then (if b.toInt < a.toInt then b else a) else a + b
  else if op = 4 then max32 a b else if op = 5 then min32 a b else add32 a b

/-- combine of R213 over a list: the left part takes ceil(n / 2) values. -/
def combineTree {α : Type} (f : α → α → α) (d : α) : Nat → List α → α
  | 0, xs => xs.headD d
  | fuel + 1, xs =>
    match xs with
    | [] => d
    | [x] => x
    | _ =>
      let k := ceilDiv xs.length 2
      f (combineTree f d fuel (xs.take k)) (combineTree f d fuel (xs.drop k))

/-- Combine vectors elementwise by the tree of R213. -/
def combineVec (f : BitVec 32 → BitVec 32 → BitVec 32) (vs : List (List (BitVec 32))) : List (BitVec 32) :=
  combineTree (fun a b => List.zipWith f a b) [] vs.length vs

/-- −0, the identity of round-to-nearest-even addition (R223). -/
abbrev negZero : BitVec 32 := 0x80000000

/-! ### Program steps (R224) -/

/-- One step of a program on a chunk's values; `mats` are its matrices, row-major. -/
def progStep (mats : List (List (BitVec 32))) (st : Nat × Nat × BitVec 32 × BitVec 32)
    (vs : List (BitVec 32)) : List (BitVec 32) :=
  if st.1 = 3 then vs.map (fun v => add32 (mul32 v st.2.2.1) st.2.2.2)
  else if st.1 = 4 then vs.map (fun v => min32 (max32 v st.2.2.1) st.2.2.2)
  else if st.1 = 6 then
    let m := mats.getD st.2.1 []
    (runsOf (vs.length / 32 + 1) 32 vs).flatMap (fun xs =>
      (List.range 32).map (fun j =>
        combineTree add32 0 32 (List.zipWith mul32 ((m.drop (32 * j)).take 32) xs)))
  else vs

/-! ### Atomic operations (R44, R108) -/

/-- The new word of an atomic on `old`, both of the operand's length, given ATOP and operand bytes. -/
def atomicNew (atop : Nat) (old operand : Bytes) : Bytes :=
  let n := old.length
  let w := 8 * n
  let a := leNat old
  let b := leNat (operand.take n)
  let op := atop / 16
  let ty := atop % 16
  let signed := ty = 0 ∨ ty = 1
  let toI := fun (x : Nat) => if 2 ^ (w - 1) ≤ x then (x : Int) - 2 ^ w else (x : Int)
  let lt := fun (x y : Nat) => if signed then decide (toI x < toI y) else decide (x < y)
  let v :=
    if op = 0 then
      (if ty = 2 then (add32 (BitVec.ofNat 32 a) (BitVec.ofNat 32 b)).toNat else (a + b) % 2 ^ w)
    else if op = 1 then b
    else if op = 2 then (if a = b then leNat ((operand.drop n).take n) else a)
    else if op = 3 then (if lt b a then b else a)
    else if op = 4 then (if lt a b then b else a)
    else if op = 5 then Nat.land a b else if op = 6 then Nat.lor a b else Nat.xor a b
  leBytes n v

/-- The new word of a COMMIT of `c` (R119). -/
def commitNew (old c : Bytes) : Bytes := if leNat old = 0 then c else old

end Sys2Proof.Machine
end

