-- ==== Sys2Proof/Machine/Home.lean ====
section
/-!
DEFINITION. The home points: key checks (R74, R122), holding and arriving pages (R250), line serialisers
(R110, R111), combining (R113 to R118), atomics (R107 to R109), inbound requests (R49, R50, R52), the
Stacks and Annex lines (R240 to R243) and the answers to request frames (R85, R104, R121, R122).
-/

namespace Sys2Proof.Machine
open Sys2Proof

/-! ### Where a frame is served -/

/-- The home point of a request frame to a local endpoint. -/
def homeOf (f : Frame) : Nat :=
  if f.dst.toNat < 0x4800 then f.dst.toNat % 72 else if f.space = 3 then hpHost else hpMem

/-- The frame stores: WRITE, WRITE_FLAG and their held forms (R104, R254). -/
def isStoreOpc (o : BitVec 8) : Bool := o == 2 || o == 3 || o == 0x50 || o == 0x51
def isAtomOpc (o : BitVec 8) : Bool := o == 4 || o == 0x52
def isCommitOpc (o : BitVec 8) : Bool := o == 5 || o == 0x53

/-- The bytes a request frame touches: the word of an ATOMIC, whose LEN counts both values of a CAS, and LEN of every other
(R44, R104, R125). -/
def spanOf (f : Frame) : Nat := if isAtomOpc f.opc then atopSize f.atop.toNat else f.len.toNat

/-! ### Key checks -/

/-- The right a request opcode needs (R74). -/
def needOf (o : BitVec 8) : Need := if o == 1 then .r else if o == 2 || o == 3 then .w else .a

/-- The offset limit of a SPACE (R59), less the system partition, which no descriptor covers (R64, R238). -/
def spaceLimit (space : Nat) : Nat :=
  if space = 1 then sysPart else if space = 2 then 1536 * 2 ^ 30 else 2 ^ 44

/-- The measured region of an index of this node's fabric-memory endpoint (R256). -/
def measuredAt (s : State) (keyidx : Nat) : Option Measured :=
  s.mov.measured.find? (fun m => m.keyidx.toNat == keyidx)

/-- The frame writes a line of a COPY that a move engine of another node runs (R254). -/
def farCopy (f : Frame) : Bool := f.opc == 2 && decide (0x4800 ≤ f.src.toNat)

/-- The access is a frame of a COPY from another node. -/
def isFarCopy (s : State) (a : Access) : Bool :=
  a.own == 0 && !a.cxl && a.reply.isNone && a.frame.dst.toNat == memEp s && farCopy a.frame

/-- A COPY from another node may begin in a measured region: at its pointer, with nothing of another one under way or written
beyond the pointer (R256). -/
def measFirst (s : State) (m : Measured) (f : Frame) : Bool :=
  f.first && f.offset == m.base + m.ptr && m.ahead.isEmpty &&
  !s.home.accesses.any (fun a => isFarCopy s a && a.frame.keyidx == f.keyidx)

/-- The frame goes on with the COPY that was admitted last: its share lies as far from the first frame's as its PSN (R129,
R256). -/
def measRuns (m : Measured) (f : Frame) : Bool :=
  match m.run with
  | some x => x.1 == fwdSid f && !f.first && decide (0 < psnDiff f.psn x.2.1) &&
      decide ((f.offset / 512 : Nat) - (x.2.2 / 512 : Nat) = psnDiff f.psn x.2.1)
  | none => false

/-- A frame of a COPY, not its first, arrives while its first may still be on its way: no PSN between its own and the one at
which its request begins is missing, else it waits (R256; DEDUCED, unsafe, log 115). -/
def measEarly (s : State) (m : Measured) (f : Frame) : Bool :=
  farCopy f && !f.first && !m.sealed && !measRuns m f && decide (m.base + m.ptr < f.offset) &&
  (match recvOf s (fwdSid f) f.psn with
   | some r =>
     let back := (List.range (Nat.min 1024 (psnDiff f.psn r.e).toNat)).map (fun i => f.psn - BitVec.ofNat 32 (i + 1))
     let known := fun (p : BitVec 32) => r.seen.contains (psnDiff p r.e).toNat
     -- the nearest PSN behind it that is missing or begins a request
     match back.find? (fun p => !known p || r.starts.contains p) with
     | some p => !known p
     | none => false
   | none => false)

/-- The region key check of a frame (R74), with the rule of measured regions: only a COPY's write that begins at the
region's pointer is admitted as a store (R256). -/
def keyCheck (s : State) (f : Frame) : Status :=
  match readRegion s f.dst.toNat f.keyidx with
  | none => .accessDenied
  | some d =>
    if !d.admits f.tenant.toNat f.keytag f.space f.offset (spanOf f) (needOf f.opc) ||
        decide (spaceLimit f.space < f.offset + (spanOf f)) then .accessDenied
    else if d.meas && f.opc != 1 then
      match measuredAt s f.keyidx with
      | some m => if farCopy f && !m.sealed && (measFirst s m f || measRuns m f) then .done else .accessDenied
      | none => .accessDenied
    else .done

/-! ### Accesses, lines and slots -/

def accOf (s : State) (id : Nat) : Option Access := s.home.accesses.find? (fun a => a.id == id)

def modAcc (id : Nat) (f : Access → Access) (s : State) : State :=
  { s with home := { s.home with accesses := modFirst (fun a => a.id == id) f s.home.accesses } }

def dropAcc (id : Nat) (s : State) : State :=
  { s with home := { s.home with accesses := s.home.accesses.filter (fun a => !(a.id == id)) } }

/-- The line of a byte of a fabric address. -/
def lineOf (off : Nat) : Nat := off / 128 * 128

def lineAt (s : State) (h line : Nat) : Option HotLine := s.home.hot.find? (fun l => l.home == h && l.line == line)

def modLine (h line : Nat) (f : HotLine → HotLine) (s : State) : State :=
  { s with home := { s.home with hot := modFirst (fun l => l.home == h && l.line == line) f s.home.hot } }

/-- The share of a limit one tenant may use: MEM and HOST serialisers are divided in isolated tenancy (R311). -/
def shareOf (s : State) (h x : Nat) : Nat := if s.ten.shared || decide (h < hpMem) then x else x / Nat.max 1 s.ten.slots

/-- Hot lines that count against a part's limit: of its home, and in isolated tenancy of its tenant. -/
def hotUsed (s : State) (h : Nat) (tenant : BitVec 12) : Nat :=
  let mine := fun (l : HotLine) => s.ten.shared || decide (h < hpMem) ||
    (l.busy ++ l.wait).any (fun p => match accOf s p.access with | some a => a.frame.tenant == tenant | none => false)
  (s.home.hot.filter (fun l => l.home == h && mine l)).length

/-- Request slots in use likewise. -/
def slotsUsed (s : State) (h : Nat) (tenant : BitVec 12) : Nat :=
  let mine := fun (p : Part) => s.ten.shared || decide (h < hpMem) ||
    (match accOf s p.access with | some a => a.frame.tenant == tenant | none => false)
  (((s.home.hot.filter (fun l => l.home == h)).flatMap (·.wait)).filter mine).length

def hotLimit (s : State) (h : Nat) : Nat := shareOf s h (if h = hpHost then 64 else 256)
def slotLimit (s : State) (h : Nat) : Nat := shareOf s h (if h < hpMem then 2048 else if h = hpMem then 8192 else 512)

/-- Parts of an access not yet issued. -/
def unissued (s : State) (id : Nat) : Bool :=
  s.home.hot.any (fun l => l.wait.any (fun p => p.access == id)) || s.home.queue.any (fun x => x.2.access == id)

/-- An ordered stream keeps a part back: an earlier request of the stream has parts not issued; a read also
waits for the INB_DONE of earlier writes; at MEM and HOST every earlier request must be applied, one held while its page
moves and one that waits at an arriving page included. A held store that goes on at its new home waits for no request there
that itself waits for held stores (R88, R99, R111, R250). -/
def orderHeld (s : State) (a : Access) : Bool :=
  a.frame.ord && (s.home.accesses.any (fun b =>
    decide (b.id < a.id) && b.home == a.home && fwdSid b.frame == fwdSid a.frame &&
    (unissued s b.id || decide (hpMem ≤ a.home) ||
      (a.op == .read && b.op == .write && (sess s a.home).inb.any (fun r => r.access == b.id)))) ||
    s.mov.held.any (fun x => decide (x.id < a.id) && fwdSid x.frame == fwdSid a.frame) ||
    (a.reply.isNone && s.mov.arrWait.any (fun x => decide (x.1 < a.id) && fwdSid x.2.2 == fwdSid a.frame)))

/-! ### Inbound requests (R49, R50, R52) -/

/-- The pieces of R50 over parts in ascending order, as runs of parts. -/
def pieces (parts : List Part) : List (List Part) :=
  parts.foldl (fun acc p =>
    match acc.getLast? with
    | none => [[p]]
    | some run =>
      let first := (run.headD p).off
      let fin := (run.getLast?.map (fun q => q.off + q.len)).getD p.off
      if p.off = fin ∧ p.off + p.len ≤ lineOf first + 512 ∧ p.off % 4096 ≠ 0 then acc.dropLast ++ [run ++ [p]]
      else acc ++ [[p]]) []

/-- A tag of the INB tag space that is free. -/
def freeTag (x : Session) : Option (BitVec 13) :=
  ((List.range 8192).find? (fun i => !x.inb.any (fun r => r.tag == x.nextTag + BitVec.ofNat 13 i))).map
    (fun i => x.nextTag + BitVec.ofNat 13 i)

/-- The atomic is delegated to the accelerator (R52, R107). -/
def delegated (x : Session) (a : Access) : Bool :=
  x.deleg && (!(isAtomOpc a.frame.opc && a.frame.atop == 0x23) || x.atom128)

/-- The inbound message of a run of parts, tag aside. -/
def inbMsg (x : Session) (a : Access) (run : List Part) : AttMsg :=
  let off := (run.headD { access := 0, src := 0, ord := false, off := 0, len := 0 }).off
  let len := (run.map (·.len)).sum
  let addr := BitVec.ofNat 64 (off % 2 ^ 44)
  let l := BitVec.ofNat 13 len
  match a.op with
  | .read => { opc := 0x28, addr := addr, len := l }
  | .write => { opc := 0x29, ord := a.frame.ord, addr := addr, len := l
                payload := slice a.frame.payload (off - a.frame.fpa) len }
  | .atomic =>
    if delegated x a then { opc := 0x2A, addr := addr, len := l, atop := a.frame.atop, payload := a.frame.payload }
    else { opc := 0x28, addr := addr, len := l }
  | .commit =>
    if delegated x a then
      { opc := 0x2A, addr := addr, len := l, atop := 0x21, payload := List.replicate 8 0 ++ a.frame.payload }
    else { opc := 0x28, addr := addr, len := l }

/-- The run of parts needs a locked read-modify-write here (R109). -/
def lockedRmw (x : Session) (a : Access) : Bool := (a.op == .atomic || a.op == .commit) && !delegated x a

/-- An inbound message can be sent now: session UP, credits, tags, and nothing waiting before it. -/
def inbReady (s : State) (p : Nat) (m : AttMsg) : Bool :=
  let x := sess s p
  x.state == .up && canSend x m && decide (x.inb.length < 8192) && !x.blocked.any (fun b => isInbOpc b.opc)

/-- Send an inbound request that serves an access. -/
def sendInb (p : Nat) (m : AttMsg) (access off len : Nat) (locked : Bool) (s : State) : State :=
  match freeTag (sess s p) with
  | none => s
  | some t =>
    let s := modSess p (fun x => { x with nextTag := t + 1, inb := x.inb ++ [{
      tag := t, opc := m.opc, access := access, off := off, len := len, locked := locked }] }) s
    sendAtt p { m with tag := t } s

/-! ### The host tier (R404) -/

/-- The host address of a span of the host tier: the first valid window that holds every byte. -/
def hostAddr (s : State) (off len : Nat) : Option Nat :=
  (List.range 8).findSome? (fun n =>
    let o := cxlBase + 0x100 + n * 0x20
    let lo := fieldOf s (o + 4) 0 23 * 2 ^ 21
    let hi := lo + fieldOf s (o + 8) 0 23 * 2 ^ 21
    if bitAt s o 0 && decide (lo ≤ off ∧ off + len ≤ hi) then
      some ((word s (o + 0xC)).toNat + 2 ^ 32 * (word s (o + 0x10)).toNat + (off - lo)) else none)

/-! ### Answers -/

/-- Answer a served request frame: a store's success is acknowledgeable, every other outcome is an RSP
(R85, R122, R130). -/
def respond (f : Frame) (st : Status) (payload : Bytes) (s : State) : State :=
  let h := homeOf f
  let s := if h < 72 ∧ st = .dataError then bump (cntEpbDerrCnt h) s else s
  let s := if h < 72 ∧ st = .commitLost then bump (cntEpbCommitLostCnt h) s else s
  if isStoreOpc f.opc && st == .done then ackable (fwdSid f) f.psn f.ce s
  else answer f st (if st == .done || st == .commitLost then payload else []) s

/-- The RSP payload of a finished access: the bytes read, in ascending order. -/
def accData (a : Access) : Bytes :=
  if a.op == .write then []
  else gather (a.data.map (fun d => (d.1 - a.frame.fpa, d.2))) (spanOf a.frame)

/-- The outcome of a COMMIT that found `old` (R119). -/
def commitStatus (a : Access) : Status :=
  if a.status == .done && a.op == .commit && decide (leNat (accData a) ≠ 0) then .commitLost else a.status

/-- Take the parts of an access out of every line and queue. -/
def dropParts (id : Nat) (s : State) : State :=
  let keep_ := fun (p : Part) => !(p.access == id)
  { s with home := { s.home with
    hot := (s.home.hot.map (fun l => { l with busy := l.busy.filter keep_, wait := l.wait.filter keep_ })).filter
      (fun l => !(l.busy.isEmpty && l.wait.isEmpty))
    queue := s.home.queue.filter (fun x => keep_ x.2) } }

/-- A held store is over. -/
def dropHeld (id : Nat) (s : State) : State :=
  { s with mov := { s.mov with held := s.mov.held.filter (fun x => !(x.id == id)) } }

/-- WPTR of a session moves past its leading records that are visible (R276). -/
def mirAdvance (n : Nat) : Nat → State → State
  | 0, s => s
  | k + 1, s =>
    match s.sw.mirOpen.find? (fun x => x.1 == n) with
    | some x =>
      if x.2.2 then mirAdvance n k { s with sw := { s.sw with
        mirOpen := s.sw.mirOpen.erase x, mirVis := tput 0 s.sw.mirVis n x.2.1 } }
      else s
    | none => s

/-- A record of mirror session `n` is over: its bytes leave the session's reserve, and WPTR moves on over the records that are
visible with none before them still under way; one whose store failed is passed over (R274, R276). -/
def mirEnd (n : Nat) (f : Frame) (st : Status) (s : State) : State :=
  let used := tget 0 s.sw.mirUse n - f.payload.length
  let base := match readRegion s (memEp s) f.keyidx with | some d => d.base / 128 | none => 0
  let mine := fun (x : Nat × Nat × Bool) => x.1 == n && x.2.1 == (f.fpa % 2 ^ 44 + f.payload.length) / 128 - base && !x.2.2
  let open_ := s.sw.mirOpen
  let open_ := if st == .done then modFirst mine (fun x => (x.1, x.2.1, true)) open_
    else match open_.find? mine with | some x => open_.erase x | none => open_
  let s := { s with sw := { s.sw with mirUse := tput 0 s.sw.mirUse n used, mirOpen := open_ } }
  mirAdvance n open_.length (if st == .done then bump (cntSwcMirRecCnt n) s else s)

/-- The end of an access of a frame, a mirror record or the control host. -/
def finishAcc (a : Access) (s : State) : State :=
  let s := dropParts a.id (dropAcc a.id s)
  let st := commitStatus a
  if 25 ≤ a.own then
    let reply := (a.own - 25, a.frame.src.toNat, a.frame.crc.toNat, st)
    { s with coll := { s.coll with writes := s.coll.writes ++ [reply] } }
  else if 9 ≤ a.own then
    let reply := (a.own - 9, a.frame.offset, st, accData a)
    let s := dropHeld a.id s
    { s with mov := { s.mov with hostDone := s.mov.hostDone ++ [reply] } }
  else if 0 < a.own then mirEnd (a.own - 1) (a.reply.getD a.frame) st (dropHeld a.id s)
  else if a.cxl then
    if a.op == .read then emit (.cxlMem (if st == .done then some (accData a) else none)) s
    else emit .cxlMemDone s
  else match a.reply with
    | some f => respond f st (accData a) (dropHeld a.id s)
    | none => respond a.frame st (accData a) s

/-- The old value each member of an issued FADD entry gets: v plus the sum of the operands before its own, formed left to
right; `sum` is that sum so far (R114, R115). -/
def faddReturns (atop : Nat) (v : Bytes) : Option Bytes → List Bytes → List Bytes
  | _, [] => []
  | none, x :: xs => v :: faddReturns atop v (some x) xs
  | some a, x :: xs => atomicNew atop v a :: faddReturns atop v (some (atomicNew atop a x)) xs

/-- One part of an access is over; at the last one the access ends, and a combining entry hands each
member its share (R116, R117). -/
def partOver (id off : Nat) (st : Status) (data : Bytes) (s : State) : State :=
  match accOf s id with
  | none => s
  | some a =>
    let a' := { a with left := a.left - 1, status := worse a.status st,
                       data := if data.isEmpty then a.data else a.data ++ [(off, data)] }
    let s := modAcc id (fun _ => a') s
    if a'.left ≠ 0 then s
    else match a'.combine with
      | none => finishAcc a' s
      | some k =>
        let s := dropParts id (dropAcc id s)
        match s.home.comb.find? (fun e => e.num == k) with
        | none => s
        | some e =>
          let s := { s with home := { s.home with comb := s.home.comb.filter (fun x => !(x.num == k)) } }
          let n := e.members.length - 1
          let s := bumpBy (if e.fadd then cntCmbFaddMergedCnt else cntCmbRdMergedCnt) n s
          let whole := accData a'
          let outs := if e.fadd then faddReturns e.atop.toNat whole none (e.members.map (·.2.2.1))
            else e.members.map (fun m => slice whole (m.2.2.2.1 - lineOf m.2.2.2.1) m.2.2.2.2)
          each (e.members.zip outs) (fun mo s =>
            match accOf s mo.1.1 with
            | none => s
            | some b =>
              let b' := { b with left := b.left - 1, status := worse b.status a'.status,
                                 data := if a'.status == .done then b.data ++ [(mo.1.2.2.2.1, mo.2)] else b.data }
              let s := modAcc b.id (fun _ => b') s
              if b'.left = 0 then finishAcc b' s else s) s

/-! ### Combining entries -/

/-- SWC_CMB_TEN_n of a tenant. -/
def cmbSlot (s : State) (tenant : Nat) : Option Nat :=
  (List.range 64).find? (fun n => let o := cmbBase + 0x100 + n * 4; bitAt s o 0 && fieldOf s o 4 12 == tenant)

/-- The part of an access is combinable (R113, R115). DESIGN CHOICE, safe (log 25): a held FADD, applied at its new home by
HOLD_RELEASE or HOLD_ATOMIC (R250, R254), is never combined; R113 does not speak of held ones. -/
def combinable (s : State) (a : Access) : Bool :=
  let relaxed := match cmbSlot s a.frame.tenant.toNat with | some n => bitAt s (cmbBase + 0x100 + n * 4) 1 | none => false
  a.own == 0 && !a.cxl && a.combine.isNone && a.reply.isNone &&
  ((a.frame.opc == 1 && a.frame.comb && bitAt s cmbBase 0) ||
   (a.frame.opc == 4 && bitAt s cmbBase 1 && (a.frame.atop == 0 || a.frame.atop == 1 || (a.frame.atop == 2 && relaxed))))

/-- The entry table and the tenant's quota have room for one more (R118). -/
def combRoom (s : State) (tenant : BitVec 12) : Bool :=
  decide (s.home.comb.length < 8192) &&
  (s.ten.shared ||
    (match cmbSlot s tenant.toNat with
     | some n => decide ((s.home.comb.filter (fun e => e.tenant == tenant)).length < fieldOf s (cmbBase + 0x100 + n * 4) 16 14)
     | none => false))

/-- The combining key of a part (R113). -/
def combKey (a : Access) (p : Part) : Nat := if a.frame.opc == 1 then lineOf p.off else p.off

/-- The entry a part may join. -/
def combEntry (s : State) (h : Nat) (a : Access) (p : Part) : Option CombEntry :=
  s.home.comb.find? (fun e => !e.issued && e.home == h && e.tenant == a.frame.tenant &&
    e.fadd == (a.frame.opc == 4) && e.addr == combKey a p && (!e.fadd || e.atop == a.frame.atop) &&
    decide (e.members.length < 64))

/-- The frame of the request an entry issues: the whole line, or one FADD whose operand is put in at issue. -/
def combFrame (a : Access) (p : Part) : Frame :=
  if a.frame.opc == 1 then
    { a.frame with len := 128, payload := [], mid := midOf (lineOf p.off) a.frame.keyidx a.frame.keytag }
  else a.frame

/-- Open a combining entry for a part: its own access, and the part that stands for it. -/
def openEntry (h : Nat) (a : Access) (p : Part) (s : State) : State × Part :=
  let id := s.home.nextAcc
  let k := s.home.nextComb
  let f := combFrame a p
  let e : CombEntry := {
    num := k, home := h, tenant := a.frame.tenant, fadd := a.frame.opc == 4, addr := combKey a p
    atop := a.frame.atop, access := id, members := [(a.id, p.src, a.frame.payload, p.off, p.len)] }
  let acc : Access := {
    id := id, home := h, frame := f, op := (if e.fadd then .atomic else .read), left := 1, combine := some k }
  let s := { s with home := { s.home with
    nextAcc := id + 1, nextComb := k + 1, comb := s.home.comb ++ [e], accesses := s.home.accesses ++ [acc] } }
  (peakTo cntCmbPeak s.home.comb.length s,
   { access := id, src := p.src, ord := false, off := f.fpa, len := (spanOf f), since := p.since })

/-- SWC_CMB_CTRL.WAIT is 0 (R113). -/
def noWait (s : State) : Bool := fieldOf s cmbBase 8 8 == 0

/-- The entry a part stands for. -/
def entryOfPart (s : State) (p : Part) : Option CombEntry :=
  match accOf s p.access with
  | some a => (match a.combine with | some k => s.home.comb.find? (fun e => e.num == k) | none => none)
  | none => none

/-- An entry is issued: it admits no more members, and its FADD adds every operand (R114). -/
def closeEntry (p : Part) (s : State) : State :=
  match entryOfPart s p with
  | none => s
  | some e =>
    let s := { s with home := { s.home with comb := modFirst (fun x => x.num == e.num) (fun x => { x with issued := true }) s.home.comb } }
    let s := if e.members.length = 64 then bump cntCmbFaninFullCnt s else s
    if e.fadd then
      match e.members.map (·.2.2.1) with
      | x :: xs =>
        let sum := xs.foldl (fun acc y => atomicNew e.atop.toNat acc y) x
        modAcc e.access (fun a => { a with frame := { a.frame with payload := sum } }) s
      | [] => s
    else s

/-! ### Issue -/

/-- Mark a part issued on its line. -/
def markBusy (h : Nat) (p : Part) (s : State) : State :=
  let line := lineOf p.off
  match lineAt s h line with
  | some _ => modLine h line (fun l => { l with busy := l.busy ++ [p], lastSrc := p.src }) s
  | none => { s with home := { s.home with hot := s.home.hot ++ [{ home := h, line := line, lastSrc := p.src, busy := [p] }] } }

/-- Record the wait of a part that held a slot, in units of 4 ns (R124). -/
def noteWait (h : Nat) (p : Part) (s : State) : State :=
  if h < 72 then peakTo (cntEpbWait h) ((now s - p.since) / 16) s else s

/-- Issue a run of parts of one access at its home point; at an accelerator home each piece of R50 is one
inbound request. The caller has checked that it can go. -/
def issueRun (h : Nat) (a : Access) (run : List Part) (s : State) : State :=
  let s := each run (fun p s => closeEntry p (markBusy h p s)) s
  let a := (accOf s a.id).getD a
  if h < hpMem then
    let x := sess s h
    let locked := lockedRmw x a
    each (pieces run) (fun ps s =>
      let off := (ps.headD { access := 0, src := 0, ord := false, off := 0, len := 0 }).off
      let s := if locked then bump (cntEpbLockedCnt h) (modLine h (lineOf off) (fun l => { l with locked := true }) s)
        else if a.op == .atomic || a.op == .commit then bump (cntEpbDelegCnt h) s else s
      sendInb h (inbMsg (sess s h) a ps) a.id off (ps.map (·.len)).sum locked s) s
  else if h = hpHost then
    each run (fun p s =>
      match (if dmaOn s then hostAddr s (p.off % 2 ^ 44) p.len else none) with
      | none =>
        partOver p.access p.off .tierFailed [] (modLine h (lineOf p.off) (fun l => { l with busy := l.busy.erase p }) s)
      | some addr =>
        let lock := a.op == .atomic || a.op == .commit
        let s := if lock then modLine h (lineOf p.off) (fun l => { l with locked := true }) s else s
        let acc : HostAcc := ⟨p, lock, a.op == .write⟩
        let s := { s with home := { s.home with host := s.home.host ++ [acc] } }
        if a.op == .write then
          emit (.hostRead addr 0) (emit (.hostWrite addr (slice a.frame.payload (p.off - a.frame.fpa) p.len)) s)
        else emit (.hostRead addr p.len) s) s
  else s

/-- A part can be issued now as far as its home is concerned. -/
def canIssue (s : State) (h : Nat) (a : Access) (p : Part) : Bool :=
  !orderHeld s a && (if h < hpMem then inbReady s h (inbMsg (sess s h) a [p]) else true)

/-- An entry may be issued as far as its hold is concerned: WAIT is 0, the hold has run out, or its fan-in is 64 (R113). -/
def holdOver (s : State) (e : CombEntry) : Bool := noWait s || e.ripe || e.members.length == 64

/-- A part in the queue stands for a combining entry in its hold: it waits for its own row and for no room (R113). -/
def inHold (s : State) (h : Nat) (p : Part) : Bool :=
  (lineAt s h (lineOf p.off)).isNone && (match entryOfPart s p with | some e => !holdOver s e | none => false)

/-- Parts of a tenant wait in its unscheduled queue for a slot or a hot line of the home: later ones wait behind them
(R110). -/
def tenantQueued (s : State) (h : Nat) (tenant : BitVec 12) : Bool :=
  s.home.queue.any (fun x => x.1 == h && !inHold s h x.2 &&
    (match accOf s x.2.access with | some a => a.frame.tenant == tenant | none => false))

/-- Put a part into a slot of its hot line, or into the queue when no slot or hot line is free or the tenant's earlier parts
wait there (R110); `more` hot lines are taken beside those in use. DESIGN CHOICE, unsafe (log 116): on a line none of whose
sources has been served, the source of the part that waits there first counts as the one served last; R111 does not say where
its round robin starts. -/
def waitPart (h : Nat) (tenant : BitVec 12) (more : Nat) (p : Part) (s : State) : State :=
  if tenantQueued s h tenant then { s with home := { s.home with queue := s.home.queue ++ [(h, p)] } }
  else slotPart h tenant more p s
where
  slotPart (h : Nat) (tenant : BitVec 12) (more : Nat) (p : Part) (s : State) : State :=
  let line := lineOf p.off
  let p := { p with since := now s }
  match lineAt s h line with
  | some _ =>
    if slotsUsed s h tenant < slotLimit s h then modLine h line (fun l => { l with wait := l.wait ++ [p] }) s
    else { s with home := { s.home with queue := s.home.queue ++ [(h, p)] } }
  | none =>
    if hotUsed s h tenant + more < hotLimit s h ∧ slotsUsed s h tenant < slotLimit s h then
      { s with home := { s.home with hot := s.home.hot ++ [{ home := h, line := line, lastSrc := p.src, wait := [p] }] } }
    else { s with home := { s.home with queue := s.home.queue ++ [(h, p)] } }

/-- Enter one part: it joins or opens an entry, is issued with the parts collected so far, or waits
(R110, R113). Answers the parts of this access to issue together; each of them will make a line hot. DESIGN CHOICE, unsafe
(log 118): BYPASS_CNT counts each line part of a multi-line READ that finds no entry; R124 speaks of requests. -/
def enterPart (h : Nat) (a : Access) (acc : State × List Part) (p : Part) : State × List Part :=
  let s := acc.1
  let cold := (lineAt s h (lineOf p.off)).isNone &&
    !s.home.queue.any (fun x => x.1 == h && lineOf x.2.off == lineOf p.off && !inHold s h x.2)
  let more := acc.2.length
  let go := fun (s : State) (b : Access) (q : Part) =>
    cold && !tenantQueued s h a.frame.tenant && decide (hotUsed s h a.frame.tenant + more < hotLimit s h) && canIssue s h b q
  if combinable s a then
    match combEntry s h a p with
    | some e =>
      let join_ := fun (x : CombEntry) => { x with members := x.members ++ [(a.id, p.src, a.frame.payload, p.off, p.len)] }
      ({ s with home := { s.home with comb := modFirst (fun x => x.num == e.num) join_ s.home.comb } }, acc.2)
    | none =>
      if combRoom s a.frame.tenant then
        let r := openEntry h a p s
        let b := (accOf r.1 r.2.access).getD a
        if noWait r.1 && go r.1 b r.2 then (issueRun h b [r.2] r.1, acc.2)
        else if !noWait r.1 && cold then ({ r.1 with home := { r.1.home with queue := r.1.home.queue ++ [(h, r.2)] } }, acc.2)
        else (waitPart h a.frame.tenant more r.2 r.1, acc.2)
      else
        let s := bump cntCmbBypassCnt s
        if go s a p then (s, acc.2 ++ [p]) else (waitPart h a.frame.tenant more p s, acc.2)
  else if go s a p then (s, acc.2 ++ [p]) else (waitPart h a.frame.tenant more p s, acc.2)

/-- The line parts of an access of `len` bytes (R83). -/
def partsOf (id : Nat) (src : BitVec 16) (ord : Bool) (fpa len : Nat) : List Part :=
  let first := fpa / 128
  let last := (fpa + len - 1) / 128
  (List.range (last + 1 - first)).map (fun i =>
    let lo := Nat.max fpa ((first + i) * 128)
    let hi := Nat.min (fpa + len) ((first + i + 1) * 128)
    { access := id, src := src, ord := ord, off := lo, len := hi - lo })

/-- What a frame does at its home. -/
def opOf (o : BitVec 8) : HomeOp :=
  if isStoreOpc o then .write else if isAtomOpc o then .atomic else if isCommitOpc o then .commit else .read

/-- Draw the number of an access. -/
def drawAcc (s : State) : State := { s with home := { s.home with nextAcc := s.home.nextAcc + 1 } }

/-- Start an access under a number drawn for it: its parts are issued, combined or queued. The parts issued at this moment go
together. -/
def startAs (id h : Nat) (f : Frame) (cxl : Bool) (own : Nat) (reply : Option Frame) (s : State) : State :=
  let parts := partsOf id f.src f.ord f.fpa (spanOf f)
  let a : Access := { id := id, home := h, frame := f, op := opOf f.opc, left := parts.length,
                      cxl := cxl, own := own, reply := reply }
  let s := { s with home := { s.home with accesses := s.home.accesses ++ [a] } }
  let r := parts.foldl (enterPart h a) (s, [])
  if r.2.isEmpty then r.1
  else if h < hpMem then
    let x := sess r.1 h
    let need := ((pieces r.2).map (fun ps => attUnits (inbMsg x a ps))).sum
    if need ≤ x.inbCrd ∧ x.inb.length + (pieces r.2).length ≤ 8192 then issueRun h a r.2 r.1
    else each r.2 (fun p s => waitPart h f.tenant 0 p s) r.1
  else issueRun h a r.2 r.1

/-- Start an access. -/
def startAcc (h : Nat) (f : Frame) (cxl : Bool) (own : Nat) (reply : Option Frame) (s : State) : State :=
  startAs s.home.nextAcc h f cxl own reply (drawAcc s)

/-- Check 3 of R122: the home is reachable. -/
def homeReach (s : State) (h : Nat) (f : Frame) : Status :=
  if h < hpMem then (if (sess s h).state == .up then .done else .targetLost)
  else if h = hpHost then (if dmaOn s && (hostAddr s f.offset (spanOf f)).isSome then .done else .tierFailed)
  else if (partsOf 0 0 false f.fpa (spanOf f)).any (fun p => offsetOut s f.space (p.off % 2 ^ 44)) then .tierFailed
  else .done

/-- Serve a frame that passed its checks, as access `id` (R104). -/
def homeStart (id : Nat) (f : Frame) (s : State) : State :=
  let h := homeOf f
  let st := homeReach s h f
  if st != .done then respond f st [] s else startAs id h f false 0 none s

/-! ### Pages under move (R250, R251) -/

/-- The FPA of R59 as one number: endpoint, SPACE and OFFSET. -/
def fpaWord (ep fpa : Nat) : Nat := ep * 2 ^ 48 + fpa % 2 ^ 48

/-- The held store lies in, or waits for, the part of a home point's hold buffer that a tenant's stores take: each slot's own in
isolated tenancy, one for all in shared (R311, R313). -/
def holdMine (s : State) (h : Nat) (t : BitVec 12) (x : HeldStore) : Bool :=
  x.home == h && (s.ten.shared || x.frame.tenant == t)

/-- Bytes of stores in a tenant's part of the hold buffer of a home point. -/
def holdUsed (s : State) (h : Nat) (t : BitVec 12) : Nat :=
  ((s.mov.held.filter (fun x => holdMine s h t x && !x.waits && !x.sent)).map (fun x => x.frame.size)).sum

/-- A tenant's part of the hold buffer of a home point (R251, R310, R311). -/
def holdCap (s : State) (h : Nat) : Nat :=
  (if h = hpHost then 262144 else 4194304) / (if s.ten.shared then 1 else Nat.max 1 s.ten.slots)

/-- The hold buffer of a home point takes `n` bytes more of a tenant: its part has room, and nothing waits for it. -/
def holdTakes (s : State) (h : Nat) (t : BitVec 12) (n : Nat) : Bool :=
  decide (holdUsed s h t + n ≤ holdCap s h) && !s.mov.held.any (fun x => holdMine s h t x && x.waits)

/-- Hold a store as access `id`, of a frame, a mirror session or move engine e (`own`, R253): it waits in the tenant's
unscheduled queue when the buffer is full (R251). -/
def holdStore (id own : Nat) (f : Frame) (s : State) : State :=
  let h := homeOf f
  let full := !holdTakes s h f.tenant f.size
  let s := { s with mov := { s.mov with held := s.mov.held ++ [{ id := id, frame := f, home := h, waits := full, own := own }] } }
  if full then s else bump cntMovHeldCnt s

/-- A waiting store is the first for its part of the hold buffer, and that part has room for it (R251). -/
def holdFits (s : State) (x : HeldStore) : Bool :=
  x.waits && (s.mov.held.find? (fun y => holdMine s x.home x.frame.tenant y && y.waits)).map (·.id) == some x.id &&
  decide (holdUsed s x.home x.frame.tenant + x.frame.size ≤ holdCap s x.home)

/-- Stores that waited for the hold buffer of a home point enter it in order, as far as their tenants' parts have room (R251,
R311). -/
def holdFeed : Nat → Nat → State → State
  | 0, _, s => s
  | n + 1, h, s =>
    match s.mov.held.find? (fun x => x.home == h && holdFits s x) with
    | none => s
    | some x =>
      let take_ := modFirst (fun (y : HeldStore) => y.id == x.id) (fun y => { y with waits := false })
      holdFeed n h (bump cntMovHeldCnt { s with mov := { s.mov with held := take_ s.mov.held } })

/-- A held store is over: its frame is answered, its mirror session or its engine hears of it (R250, R253). -/
def heldOver (x : HeldStore) (st : Status) (payload : Bytes) (s : State) : State :=
  let s := dropHeld x.id s
  if x.own = 0 then respond x.frame st payload s
  else if x.own < 9 then mirEnd (x.own - 1) x.frame st s
  else
    let reply := (x.own - 9, x.frame.offset, st, ([] : Bytes))
    { s with mov := { s.mov with hostDone := s.mov.hostDone ++ [reply] } }

/-- The held form of an operation (R254). -/
def holdOpc (o : BitVec 8) : BitVec 8 := if o = 2 then 0x50 else if o = 3 then 0x51 else if o = 4 then 0x52 else 0x53

/-- Apply or forward a held store at the page's new home (R250, R254). -/
def forwardHeld (p : PageMove) (x : HeldStore) (s : State) : State :=
  let f := x.frame
  let at_ := (p.new + (f.fpa - p.page)) % 2 ^ 48
  let ep := p.new / 2 ^ 48
  let mark := modFirst (fun (y : HeldStore) => y.id == x.id) (fun y => { y with sent := true, waits := false })
  let s := whenS x.waits (bump cntMovHeldCnt) { s with mov := { s.mov with held := mark s.mov.held } }
  if ep = memEp s then
    let g := { f with mid := midOf at_ 0 0 }
    let st := homeReach s (homeOf g) g
    if st != .done then heldOver x st [] s else startAs x.id (homeOf g) g false x.own (some f) s
  else
    let sid : StreamId := ⟨BitVec.ofNat 16 (memEp s), BitVec.ofNat 16 ep, true, f.tenant⟩
    let g : Frame := { f with
      opc := holdOpc f.opc, ord := true, src := sid.src, dst := sid.dst, mid := midOf at_ 0 0, comb := false
      first := true, last := true, retx := false, ce := false, cls := 2 }
    sendReq (.forward x.id (homeOf f == hpHost)) sid g.opc [g] s

/-- Hold a store that reaches an old copy, and send it on to the new home at once (R99, R250). -/
def passHeld (id own : Nat) (p : PageMove) (f : Frame) (s : State) : State :=
  let s := holdStore id own f s
  match s.mov.held.find? (fun x => x.id == id) with
  | some x => forwardHeld p x s
  | none => s

/-- A frame past its key check, as access `id`, meets pages under move: requests to an arriving page wait, stores to a
holding page are held, and stores that reach an old copy after its flip go on to the new home, so that no
store reaches the old copy (R99, R250); all others are served, and so is the copying engine of another node. -/
def homePage (id : Nat) (f : Frame) (s : State) : State :=
  let isHold := decide (0x50 ≤ f.opc.toNat ∧ f.opc.toNat ≤ 0x53)
  let waits := match pageOver s.mov.arriving f with
    | some p => !(farCopy f && f.src.toNat == p.runner)
    | none => false
  if isHold then homeStart id f s
  else if waits then { s with mov := { s.mov with arrWait := s.mov.arrWait ++ [(id, 0, f)] } }
  else if f.opc == 1 then homeStart id f s
  else if (pageOver s.mov.holding f).isSome then holdStore id 0 f s
  else match pageOver s.mov.oldPages f with
    | some p => passHeld id 0 p f s
    | none => homeStart id f s

/-- `homePage` for a frame that comes now. -/
def servePage (f : Frame) (s : State) : State := homePage s.home.nextAcc f (drawAcc s)

/-! ### Receiving and reordering (R137) -/

/-- e moves on by one PSN. -/
def RecvCtx.next (r : RecvCtx) : RecvCtx :=
  { r with e := r.e + 1, seen := (r.seen.filter (fun d => d != 0)).map (fun d => d - 1) }

/-- e moves past every leading seen PSN of a relaxed stream. -/
def RecvCtx.leading : Nat → RecvCtx → RecvCtx
  | 0, r => r
  | n + 1, r => if r.seen.contains 0 then RecvCtx.leading n r.next else r

/-- A PSN of the window is marked seen. -/
def RecvCtx.see (psn : BitVec 32) (r : RecvCtx) : RecvCtx := { r with seen := insertNat (psnDiff psn r.e).toNat r.seen }

/-- The PSN lies behind e or has been seen. -/
def RecvCtx.knows (psn : BitVec 32) (r : RecvCtx) : Bool :=
  decide (psnDiff psn r.e < 0) || r.seen.contains (psnDiff psn r.e).toNat

/-- A frame the receive context lets through is applied: a skip counts as applied (R138), any other goes to its home. -/
def applyHome (f : Frame) (s : State) : State :=
  let t := now s
  let s := modRecv (fwdSid f) f.psn (fun r => { r with lastTick := t }) s
  if f.opc == 0 then ackable (fwdSid f) f.psn f.ce s else servePage f s

/-- The frame held at e does not read from its cells: it is discarded, and its PSN is free for the copy that is sent again
(R262). -/
def lostHeld (r : RecvCtx) (s : State) : State :=
  let e := if r.sid.dst.toNat < 0x4800 then r.sid.dst.toNat % 72 else egMem
  raiseSwc evSwcEccDrop e (bump cntSwcEccDropCnt (modRecv r.sid r.e (fun x => { x with
    seen := x.seen.filter (fun d => d != 0), held := x.held.filter (fun g => !(g.psn == r.e))
    bad := x.bad.filter (fun p => !(p == r.e)) }) s))

/-- Frames held on an ordered stream are applied while the frame at e is held (R137), and those of a successor
session once its predecessor has applied every PSN below PREV_END (R140); a PSN that was answered without being held is
passed, and a frame whose cells do not read is lost (R262). -/
def releaseOrd : Nat → StreamId → State → State
  | 0, _, s => s
  | n + 1, sid, s =>
    match s.trn.recv.find? (fun r => r.sid == sid && r.seen.contains 0 && !predOpen s r) with
    | none => s
    | some r =>
      if r.bad.contains r.e then releaseOrd n sid (lostHeld r s)
      else
      let s := modRecv sid r.e (fun r => { r.next with held := r.held.filter (fun g => !(g.psn == r.e)) }) s
      match r.held.find? (fun f => f.psn == r.e) with
      | none => releaseOrd n sid s
      | some f => releaseOrd n sid (applyHome f s)

/-- Everything held on a stream that may be applied now. -/
def releaseStream (sid : StreamId) (s : State) : State :=
  releaseOrd (((s.trn.recv.filter (fun r => r.sid == sid)).map (fun r => r.seen.length)).sum + 1) sid s

/-- A PSN that is answered without being applied or held counts as applied: e passes it (R137). -/
def passPsn (f : Frame) (s : State) : State :=
  if f.ord then releaseStream (fwdSid f) (modRecv (fwdSid f) f.psn (RecvCtx.see f.psn) s)
  else modRecv (fwdSid f) f.psn (fun r => (r.see f.psn).leading 1025) s

/-- A request frame whose PSN was seen before: its result record again; a relaxed READ is read again; any other
frame already acknowledged is acknowledged again (R132). DESIGN CHOICE, unsafe (log 119): a relaxed READ that CUM covers fits
two bullets of R132 and is read again. -/
def duplicate (f : Frame) (r : RecvCtx) (s : State) : State :=
  match r.results.find? (fun x => x.1 == f.psn) with
  | some x => submit x.2 s
  | none =>
    if f.opc == 1 && !f.ord then servePage f s
    else if decide (psnDiff f.psn r.cum < 0) || r.acked.contains f.psn then ackable (fwdSid f) f.psn f.ce s
    else s

/-- Count a suppressed duplicate: of the transport, and of the port whose inbound stream it is (R103, R147). -/
def noteDup (f : Frame) (s : State) : State :=
  let s := bump cntTrnDupCnt s
  if f.dst.toNat < 0x4800 then bump (cntEpbDupCnt (f.dst.toNat % 72)) s else s

/-- The receive context of a stream handles a frame that has passed its checks (R137): `apply` is what a relaxed frame does
at once. A stream without a context gets a CLOSE. -/
def windowed (apply : State → State) (f : Frame) (s : State) : State :=
  match recvOf s (fwdSid f) f.psn with
  | none => submit (closeBack s (fwdSid f) f.psn) s
  | some r =>
    if r.knows f.psn then duplicate f r (noteDup f s)
    else if 1024 ≤ psnDiff f.psn r.e then submit (nakFrame s f .busy) s
    else if f.ord then
      releaseStream (fwdSid f) (modRecv (fwdSid f) f.psn (fun r => { r.see f.psn with held := r.held ++ [f] }) s)
    else apply (modRecv (fwdSid f) f.psn (fun r => (r.see f.psn).leading 1025) s)

/-- A request frame fails its key check: it is counted and answered, and its PSN passed (R122, R137). -/
def denyKey (f : Frame) (st : Status) (s : State) : State :=
  let s := if f.dst.toNat < 0x4800 then bump (cntEpbKeyCnt (f.dst.toNat % 72)) s else s
  answer f st [] (passPsn f s)

/-- A frame of a COPY into a measured region that comes too early for its key check (R256). -/
def comesEarly (s : State) (f : Frame) : Bool :=
  match readRegion s f.dst.toNat f.keyidx, measuredAt s f.keyidx with
  | some d, some m => f.dst.toNat == memEp s && d.meas && measEarly s m f
  | _, _ => false

/-- The first frame of a COPY into a measured region is admitted: the frames that follow it are of this COPY (R256). -/
def measBegin (f : Frame) (s : State) : State :=
  match measuredAt s f.keyidx with
  | some m =>
    if f.dst.toNat == memEp s && farCopy f && measFirst s m f then
      let set := modFirst (fun (x : Measured) => x.num == m.num) (fun x => { x with run := some (fwdSid f, f.psn, f.offset) })
      { s with mov := { s.mov with measured := set s.mov.measured } }
    else s
  | none => s

/-- A frame whose descriptor is at hand: its home may have been fenced meanwhile; then the key check, then its stream's
window (R74, R122, R137). -/
def homeEnter (f : Frame) (s : State) : State :=
  let st := keyCheck s f
  if epFenced s f.dst.toNat then submit (nakFrame s f .fenced) s
  else if comesEarly s f then
    if s.mov.measWait.any (fun g => fwdSid g == fwdSid f && g.psn == f.psn) then s
    else { s with mov := { s.mov with measWait := s.mov.measWait ++ [f] } }
  else if st != .done then denyKey f st s
  else windowed (applyHome f) f (measBegin f s)

/-- Frames that came too early and no longer do go to their key check, in the order they came (R256). -/
def wakeMeas (s : State) : State :=
  let due := s.mov.measWait.filter (fun f => !comesEarly s f)
  each due homeEnter { s with mov := { s.mov with measWait := s.mov.measWait.filter (comesEarly s) } }

/-! ### Descriptor caches (R74, R311) -/

/-- The cache a frame's descriptor lies in: its A-cluster's, or 9 for MEM. -/
def rgnCacheOf (f : Frame) : Nat := if f.dst.toNat < 0x4800 then f.dst.toNat % 72 / 8 else 9

/-- Home point whose descriptor reads a frame waits for. -/
def rgnHome (f : Frame) : Nat := if f.dst.toNat < 0x4800 then f.dst.toNat % 72 else hpMem

def rgnCached (s : State) (f : Frame) : Bool :=
  (tget [] s.xlat.rgnCache (rgnCacheOf f)).any (fun e => e.1 == f.dst.toNat && e.2.1 == f.keyidx)

/-- Cache a descriptor; a full share gives up its oldest entry (not specified: assumption 9). -/
def rgnFill (f : Frame) (s : State) : State :=
  let c := rgnCacheOf f
  let es := tget [] s.xlat.rgnCache c
  let mine := fun (e : Nat × Nat × Nat) =>
    s.ten.shared || (if c < 9 then e.1 == f.dst.toNat else e.2.2 == f.tenant.toNat)
  let cap := if s.ten.shared then 4096 else if c < 9 then 512 else 4096 / Nat.max 1 s.ten.slots
  let es := if (es.filter mine).length < cap then es
    else match es.find? mine with | some e => es.erase e | none => es
  { s with xlat := { s.xlat with rgnCache := tput [] s.xlat.rgnCache c (es ++ [(f.dst.toNat, f.keyidx, f.tenant.toNat)]) } }

/-- A request frame reaches its key check: at once when the descriptor is cached, else after its read (R74, R137). A
duplicate that is only answered or acknowledged again needs none, so that a record is sent unchanged (R132; DEDUCED,
log 89); nor do a skip and the stores another home forwards (R138, R254). -/
def homeArrive (f : Frame) (s : State) : State :=
  let again := match recvOf s (fwdSid f) f.psn with
    | some r => r.knows f.psn && !(f.opc == 1 && !f.ord)
    | none => false
  let h := rgnHome f
  if again || f.opc == 0 || decide (0x50 ≤ f.opc.toNat ∧ f.opc.toNat ≤ 0x53) then windowed (applyHome f) f s
  else if rgnCached s f then homeEnter f s
  else { s with xlat := { s.xlat with rgnMiss := tput [] s.xlat.rgnMiss h (tget [] s.xlat.rgnMiss h ++ [f]) } }

/-- The oldest descriptor read of a home point returns: a failed read acts as V = 0 (R74, R238), and what it finds is
counted (R241). -/
def rgnReturn (h : Nat) (ecc : Ecc) (s : State) : State :=
  match tget [] s.xlat.rgnMiss h with
  | [] => s
  | f :: rest =>
    let s := { s with xlat := { s.xlat with rgnMiss := tput [] s.xlat.rgnMiss h rest } }
    let bad := match regionAt s f.dst.toNat f.keyidx with | some x => sysReadFails s x ecc | none => true
    let s := sysFound (regionAt s f.dst.toNat f.keyidx) ecc s
    let s := if bad then denyKey f .accessDenied s else homeEnter f (rgnFill f s)
    -- frames that waited for this descriptor go on in order
    rest.foldl (fun s g =>
      let ws := tget [] s.xlat.rgnMiss h
      if rgnCached s g && ws.contains g then
        homeEnter g { s with xlat := { s.xlat with rgnMiss := tput [] s.xlat.rgnMiss h (ws.erase g) } }
      else s) s

/-! ### The serialiser's turns (R111) -/

/-- The first part of each source, in the order of arrival. -/
def sourceHeads : List (BitVec 16) → List Part → List Part
  | _, [] => []
  | seen, p :: ps => if seen.contains p.src then sourceHeads seen ps else p :: sourceHeads (p.src :: seen) ps

/-- Parts of a line that compete for the turn: the first of each source, an entry only once its hold is over, and of an
ordered stream only what R88 and R111 let go. A source whose first part may not go yet has no turn (R111). -/
def eligible (s : State) (l : HotLine) : List Part :=
  if l.locked then []
  else (sourceHeads [] l.wait).filter (fun p =>
    match accOf s p.access with
    | some a => !orderHeld s a && (match entryOfPart s p with | some e => holdOver s e | none => true)
    | none => false)

/-- The part that has the turn is issued once its home takes it: an inbound request waits for credits, and a locked
read-modify-write for what still executes on the line (R98, R109, R111). -/
def turnReady (s : State) (h : Nat) (l : HotLine) (a : Access) (p : Part) : Bool :=
  canIssue s h a p && (decide (hpMem ≤ h) || !lockedRmw (sess s h) a || l.busy.isEmpty)

/-- Round robin over sources in ascending endpoint, from the one after the source served last. -/
def nextTurn (last : BitVec 16) (ps : List Part) : Option Part :=
  let key := fun (p : Part) => (p.src - last - 1).toNat
  match ps with
  | [] => none
  | p :: qs => some (qs.foldl (fun b q => if key q < key b then q else b) p)

/-- Parts waiting for slots or lines take those that are free, each tenant's in arrival order (R110); an entry in its hold
stays until its own row (R113). -/
def feedQueue (h : Nat) (s : State) : State :=
  ((s.home.queue.filter (fun x => x.1 == h)).foldl (fun (acc : State × List (BitVec 12)) x =>
    let s := acc.1
    match accOf s x.2.access with
    | none => acc
    | some a =>
      let t := a.frame.tenant
      let cold := (lineAt s h (lineOf x.2.off)).isNone
      let out := { s with home := { s.home with queue := s.home.queue.erase x } }
      if acc.2.contains t || inHold s h x.2 then acc
      else if cold && decide (hotUsed s h t < hotLimit s h) && canIssue s h a x.2 then (issueRun h a [x.2] out, acc.2)
      else if slotsUsed s h t < slotLimit s h ∧ (!cold ∨ hotUsed s h t < hotLimit s h) then
        (waitPart.slotPart h t 0 x.2 out, acc.2)
      else (s, t :: acc.2)) (s, [])).1

/-- One turn of a line: the chosen part is issued, or keeps the turn until its home takes it (R111). -/
def lineTurn (h line : Nat) (s : State) : State :=
  match lineAt s h line with
  | none => s
  | some l =>
    match nextTurn l.lastSrc (eligible s l) with
    | none => s
    | some p =>
      match accOf s p.access with
      | none => s
      | some a =>
        if turnReady s h l a p then
          feedQueue h (issueRun h a [p] (noteWait h p (modLine h line (fun l => { l with wait := l.wait.erase p }) s)))
        else s

/-- An entry's hold has run out, or its fan-in is 64: it is issued at once where its line is not hot, else it has the turn of
its line when that falls to it (R113). -/
def entryTurn (k : Nat) (s : State) : State :=
  match s.home.comb.find? (fun e => e.num == k && !e.issued) with
  | none => s
  | some e =>
    let ripen := modFirst (fun (x : CombEntry) => x.num == k) (fun x => { x with ripe := true })
    let t := { s with home := { s.home with comb := ripen s.home.comb } }
    match s.home.queue.find? (fun x => x.2.access == e.access), accOf s e.access with
    | some x, some a =>
      let out := { t with home := { t.home with queue := t.home.queue.erase x } }
      if (lineAt s e.home (lineOf x.2.off)).isNone && canIssue out e.home a x.2 && !tenantQueued out e.home e.tenant &&
          decide (hotUsed s e.home e.tenant < hotLimit s e.home) then
        issueRun e.home a [x.2] out
      else if inHold s e.home x.2 then waitPart e.home e.tenant 0 x.2 out else t
    | _, some a =>
      match lineAt t e.home (lineOf a.frame.fpa) with
      | some l =>
        match nextTurn l.lastSrc (eligible t l) with
        | some p => if p.access = e.access then lineTurn e.home l.line t else t
        | none => t
      | none => t
    | _, none => s

/-- A part finishes on its line: the line stays hot while anything executes or waits (R110). -/
def partDone (h : Nat) (p : Part) (st : Status) (data : Bytes) (s : State) : State :=
  let line := lineOf p.off
  let s := modLine h line (fun l => { l with busy := l.busy.erase p }) s
  let s := partOver p.access p.off st data s
  let s := { s with home := { s.home with hot := s.home.hot.filter (fun l => !(l.busy.isEmpty && l.wait.isEmpty)) } }
  feedQueue h s

/-! ### The Stacks and the Annex (R240 to R243) -/

def tierRead (s : State) (space off n : Nat) : Bytes := memRead (if space = 1 then s.home.stk else s.home.anx) off n

def tierWrite (space off : Nat) (bs : Bytes) (s : State) : State :=
  if space = 1 then { s with home := { s.home with stk := memWrite s.home.stk off bs } }
  else { s with home := { s.home with anx := memWrite s.home.anx off bs } }

/-- A key slot fails its parity check: the unit it serves goes out of service (R320). -/
def keyFaultAt (space off : Nat) (s : State) : State :=
  let s := raiseSec evSecKeyFault space s
  if space = 1 then
    let g := off / (9088 * 2 ^ 20)
    each (List.range 8) (fun i s => channelFail (g * 8 + i) s) s
  else channelFail (128 + off / (96 * 2 ^ 30)) s

/-- Execute one line part at MEM: what it reads, writes and answers (R85, R106, R109, R119, R121). -/
def memPart (a : Access) (p : Part) (ecc : Ecc) (keyFault : Bool) (s : State) : State × Status × Bytes :=
  let space := p.off / 2 ^ 44
  let off := p.off % 2 ^ 44
  let reads := !(a.op == .write && p.len == 128)
  if offsetOut s space off then (s, .tierFailed, [])
  else if keyFault then (keyFaultAt space off s, .tierFailed, [])
  else if reads && keysGone s space off then (s, .dataError, [])
  else if reads && (poisoned s space off || ecc == .uncorrectable) then (foundUe space off s, .dataError, [])
  else
    let s := if reads && ecc == .corrected then foundCe space off s else s
    let old := tierRead s space off p.len
    match a.op with
    | .read => (s, .done, old)
    | .write =>
      let s := tierWrite space off (slice a.frame.payload (p.off - a.frame.fpa) p.len) s
      ((if reads then s else clearPoison space off s), .done, [])
    | .atomic => (tierWrite space off (atomicNew a.frame.atop.toNat old a.frame.payload) s, .done, old)
    | .commit => (tierWrite space off (commitNew old a.frame.payload) s, .done, old)

/-- A measured region takes bytes a COPY wrote at its pointer, and is sealed at its end (R256). -/
def feedMeasured (num : Nat) (bs : Bytes) (s : State) : State :=
  match s.mov.measured.find? (fun m => m.num == num) with
  | none => s
  | some m =>
    let m' := { m with ptr := m.ptr + bs.length, fed := m.fed ++ bs }
    let full := decide (m'.length ≤ m'.ptr)
    let m' := if full then { m' with sealed := true, digest := sha384 m'.fed } else m'
    let s := { s with mov := { s.mov with measured := modFirst (fun x => x.num == num) (fun _ => m') s.mov.measured } }
    if full then raiseMov evMovSealed num s else s

/-- Feed what lies ahead of a region's pointer without a gap, in order. -/
def feedAhead : Nat → Nat → State → State
  | 0, _, s => s
  | n + 1, num, s =>
    match s.mov.measured.find? (fun m => m.num == num) with
    | none => s
    | some m =>
      match m.ahead.find? (fun x => x.1 == m.base + m.ptr) with
      | none => s
      | some x =>
        let cut := modFirst (fun (y : Measured) => y.num == num) (fun y => { y with ahead := y.ahead.erase x })
        feedAhead n num (feedMeasured num x.2 { s with mov := { s.mov with measured := cut s.mov.measured } })

/-- A frame of a COPY from another node into a measured region is over: the pointer moves on with what has been written from
it on without a gap, and what lies beyond a line that failed is forgotten once nothing of the COPY is under way (R256). -/
def measFeed (a : Access) (st : Status) (s : State) : State :=
  if isFarCopy s a then
    match measuredAt s a.frame.keyidx with
    | none => s
    | some m =>
      let put := modFirst (fun (y : Measured) => y.num == m.num) (fun y =>
        if st == .done && !y.sealed then { y with ahead := y.ahead ++ [(a.frame.offset, a.frame.payload)] } else y)
      let s := feedAhead (m.ahead.length + 1) m.num { s with mov := { s.mov with measured := put s.mov.measured } }
      let busy := s.home.accesses.any (fun b => b.id != a.id && isFarCopy s b && b.frame.keyidx == a.frame.keyidx)
      let drop_ := modFirst (fun (y : Measured) => y.num == m.num) (fun y => { y with ahead := [] })
      if busy then s else { s with mov := { s.mov with measured := drop_ s.mov.measured } }
  else s

/-- The oldest access executing at MEM on a line completes. -/
def memDone (line : Nat) (ecc : Ecc) (keyFault : Bool) (s : State) : State :=
  match lineAt s hpMem line with
  | none => s
  | some l =>
    match l.busy with
    | [] => s
    | p :: _ =>
      match accOf s p.access with
      | none => s
      | some a =>
        let r := memPart a p ecc keyFault s
        let s := if a.left = 1 then measFeed a (worse a.status r.2.1) r.1 else r.1
        partDone hpMem p r.2.1 r.2.2 s

/-! ### The host tier (R24, R109, R121, R404) -/

/-- A host-tier part ends. -/
def hostOver (x : HostAcc) (st : Status) (data : Bytes) (s : State) : State :=
  partDone hpHost x.part st data
    (modLine hpHost (lineOf x.part.off) (fun l => { l with locked := if x.locked then false else l.locked }) s)

/-- The oldest host-tier access in flight completes; the read of a read-modify-write goes on with its write, and the
zero-length read behind it, when the value changes (R85, R109). -/
def hostComplete (o : DmaOutcome) (s : State) : State :=
  match s.home.host with
  | [] => s
  | x :: rest =>
    let s := { s with home := { s.home with host := rest } }
    match accOf s x.part.access with
    | none => s
    | some a =>
      match o with
      | .poisoned => hostOver x .dataError [] (bump cntCxlPoisonCnt s)
      | .refusedByHost => hostOver x .tierFailed [] (bump cntCxlDmaErrCnt s)
      | .ok data =>
        let old := slice data 0 x.part.len
        if x.isWrite then hostOver x .done [] s
        else if !x.locked then hostOver x .done old s
        else
          let new := if a.op == .commit then commitNew old a.frame.payload else atomicNew a.frame.atop.toNat old a.frame.payload
          match (if dmaOn s then hostAddr s (x.part.off % 2 ^ 44) x.part.len else none) with
          | none => hostOver x .tierFailed [] s
          | some addr =>
            if new = old then hostOver x .done old s
            else
              let s := modAcc a.id (fun a => { a with data := [(x.part.off, old)] }) s
              emit (.hostRead addr 0) (emit (.hostWrite addr new)
                { s with home := { s.home with host := s.home.host ++ [{ x with isWrite := true }] } })

/-- The link to the host is gone: every host-tier access in flight ends with TIER_FAILED. -/
def hostLost (s : State) : State :=
  each (List.range s.home.host.length) (fun _ s =>
    match s.home.host with
    | [] => s
    | x :: rest => hostOver x .tierFailed [] { s with home := { s.home with host := rest } }) s

/-! ### Inbound answers (R49, R109) -/

/-- The parts of an access that an inbound request serves. -/
def partsIn (s : State) (h id off len : Nat) : List Part :=
  (s.home.hot.filter (fun l => l.home == h)).flatMap (fun l =>
    l.busy.filter (fun p => p.access == id && decide (off ≤ p.off ∧ p.off < off + len)))

/-- End the parts an inbound request served. -/
def inbOver (h : Nat) (r : InbReq) (st : Status) (data : Bytes) (s : State) : State :=
  each (partsIn s h r.access r.off r.len) (fun p s =>
    partDone h p st (if data.isEmpty then [] else slice data (p.off - r.off) p.len)
      (modLine h (lineOf p.off) (fun l => { l with locked := if r.locked then false else l.locked }) s)) s

/-- The status an INB_DONE carries for the home: DONE, DATA_ERROR or MALFORMED (R49, R117). DESIGN CHOICE, safe (log 78): any
other STATUS, which R49 does not allow and gives no effect, is taken as DATA_ERROR. -/
def inbStatus (m : AttMsg) : Status :=
  if m.status.toNat = Status.done.code then .done
  else if m.status.toNat = Status.malformed.code then .malformed else .dataError

/-- An INB_DONE that names an outstanding inbound request finishes it; the read of a locked
read-modify-write goes on with its write when the value changes (R109). -/
def inbFinish (h : Nat) (r : InbReq) (m : AttMsg) (s : State) : State :=
  let s := modSess h (fun x => { x with inb := x.inb.filter (fun q => !(q.tag == r.tag)) }) s
  let st := inbStatus m
  match accOf s r.access with
  | none => s
  | some a =>
    if st != .done then inbOver h r st [] s
    else if r.opc == 0x28 && r.locked then
      let old := slice m.payload 0 r.len
      let new := if a.op == .commit then commitNew old a.frame.payload else atomicNew a.frame.atop.toNat old a.frame.payload
      if new = old then inbOver h r .done old s
      else
        let s := modAcc a.id (fun a => { a with data := [(r.off, old)] }) s
        sendInb h { opc := 0x29, addr := BitVec.ofNat 64 (r.off % 2 ^ 44), len := BitVec.ofNat 13 r.len, payload := new }
          a.id r.off r.len true s
    else if r.opc == 0x29 then inbOver h r .done [] s
    else inbOver h r .done (slice m.payload 0 r.len) s

/-- The frames an access answers: its own, or its members' (R117). -/
def accFrames (s : State) (a : Access) : List Access :=
  match a.combine with
  | none => [a]
  | some k =>
    match s.home.comb.find? (fun e => e.num == k) with
    | some e => e.members.filterMap (fun m => accOf s m.1)
    | none => []

/-- End accesses at an A-port without service: with an RSP, or with a NAK for FENCED (R51, R54, R122). -/
def dropHome (h : Nat) (st : Status) (which : Access → Bool) (s : State) : State :=
  let as := s.home.accesses.filter (fun a => a.home == h && which a)
  each as (fun a s =>
    let fs := accFrames s a
    let s := dropParts a.id (dropAcc a.id s)
    let s := match a.combine with
      | some k => { s with home := { s.home with comb := s.home.comb.filter (fun e => !(e.num == k)) } }
      | none => s
    each fs (fun b s =>
      if (accOf s b.id).isNone && a.combine.isSome then s
      else
        let s := dropParts b.id (dropAcc b.id s)
        if 0 < b.own ∨ b.cxl ∨ b.reply.isSome then finishAcc { b with status := st } s
        else if st == .fenced then submit (nakFrame s b.frame .fenced) s else respond b.frame st [] s) s) s

/-- Every inbound request of a session that left UP or FENCED ends, and with it the fabric requests at this
home (R51, R122 check 3). -/
def inboundLost (h : Nat) (s : State) : State :=
  dropHome h .targetLost (fun _ => true) (modSess h (fun x => { x with inb := [] }) s)

/-- An A-port's session ends by loss of its link, LOST or EN = 0 (R30). -/
def sessDown (p : Nat) (to_ : AttState) (s : State) : State :=
  inboundLost p (sessLeave p to_ s)

/-- The tag of an inbound request that still waits for INB credits: it has not been sent. -/
def inbUnsent (x : Session) (tag : BitVec 13) : Bool := x.blocked.any (fun b => isInbOpc b.opc && b.tag == tag)

/-- The result writes of collective context `c` that have not left for their member are dropped; those that have end without
counting for any instance (R198). -/
def cutResults (c : Nat) (s : State) : State :=
  let mine := fun (a : Access) => a.own == 25 + c
  let ids := (s.home.accesses.filter mine).map (·.id)
  if ids.isEmpty then s
  else
    let unsent := fun (h : Nat) => (sess s h).inb.filter (fun q => ids.contains q.access && inbUnsent (sess s h) q.tag)
    let kept := fun (h : Nat) (p : Part) => !(unsent h).any (fun q => q.access == p.access && decide (q.off ≤ p.off ∧ p.off < q.off + q.len))
    let hot := (s.home.hot.map (fun l => { l with
      busy := l.busy.filter (kept l.home), wait := l.wait.filter (fun p => !ids.contains p.access) })).filter
        (fun l => !(l.busy.isEmpty && l.wait.isEmpty))
    let under := fun (id : Nat) => ((hot.flatMap (·.busy)).filter (fun p => p.access == id)).length
    let accs := (s.home.accesses.filter (fun a => !mine a || decide (0 < under a.id))).map (fun a =>
      if mine a then { a with own := 25 + 4096, left := under a.id } else a)
    let homes := ((s.home.accesses.filter mine).map (·.home)).eraseDups
    let s := each homes (fun h s =>
      let tags := (unsent h).map (·.tag)
      modSess h (fun x => { x with
        inb := x.inb.filter (fun q => !tags.contains q.tag)
        blocked := x.blocked.filter (fun b => !(isInbOpc b.opc && tags.contains b.tag)) }) s)
      { s with home := { s.home with hot := hot, accesses := accs, queue := s.home.queue.filter (fun x => !ids.contains x.2.access) } }
    each homes feedQueue s

/-- Fence an A-port (R54): every outstanding request ends with FENCED, nothing new is sent, and inbound
requests already sent are waited for, for every member of a combining entry too (R117). -/
def fencePort (p : Nat) (s : State) : State :=
  let x := sess s p
  if x.state != .up then s
  else
    let ids := (x.out.filter (fun r => !r.gone)).map (·.id)
    let s := each ids (fun id s => finishReq p id .fenced [] s) s
    let reqs := (s.trn.reqs.filter (fun r => match r.origin with | .attach q _ => q == p | _ => false)).map (·.id)
    let s := freeSource (slotEp s p) (each reqs (fun id s => endReq id .fenced s) s)
    let s := modSess p (fun x => { x with inb := x.inb.filter (fun r => !inbUnsent x r.tag) }) s
    let sent := (sess s p).inb.map (·.access)
    let joined := (s.home.comb.filter (fun e => sent.contains e.access)).flatMap (fun e => e.members.map (·.1))
    let s := dropHome p .fenced (fun a => !(sent ++ joined).contains a.id) s
    let s := modSess p (fun x => { x with
      state := .fenced, waitEnd := x.inb.isEmpty, blocked := x.blocked.filter (fun b => !isInbOpc b.opc) }) s
    if (sess s p).waitEnd then freeTarget (slotEp s p) s else s

/-- The wait of a fence for INB_DONE ends (R54): what is still outstanding ends with FENCED. -/
def fenceEnd (p : Nat) (s : State) : State :=
  let x := sess s p
  if x.state == .fenced && !x.waitEnd then
    freeTarget (slotEp s p) (dropHome p .fenced (fun _ => true) (modSess p (fun x => { x with waitEnd := true, inb := [] }) s))
  else s

end Sys2Proof.Machine
end

