-- ==== Sys2Proof/Machine/Mailbox.lean ====
section
/-!
DEFINITION. The mailbox (R414 to R418): taking a command of a channel, the checks of R415 that come
before a command's own, its output and its end.
-/

namespace Sys2Proof.Machine
open Sys2Proof

/-- Core indices of R334: the management complex is cores 0 to 3, cluster core c is 7 + c. -/
abbrev coreSec : Nat := 4
abbrev corePower : Nat := 5
abbrev coreSched : Nat := 6

/-- The management complex runs and can serve commands (R337, R348). -/
def mgmtRuns (s : State) : Bool := (List.range 4).all (fun n => coreSt s n == .running)

/-! ### Commands and their inputs (R416) -/

/-- Every command code of R416. -/
def mbxKnown (op : Nat) : Bool :=
  [0x01, 0x02, 0x03, 0x04, 0x05, 0x06, 0x07, 0x08, 0x10, 0x11, 0x12, 0x13, 0x20, 0x21, 0x22, 0x23, 0x24, 0x25,
   0x30, 0x31, 0x32, 0x33, 0x40, 0x41, 0x42, 0x43, 0x50].contains op

/-- IN_LEN fits the command: its fixed length, or what its variable part allows (R416, R371, R157, R226). -/
def mbxLenOk (op n : Nat) : Bool :=
  match op with
  | 0x01 => n == 12 | 0x02 => n == 0 | 0x03 => n == 12 | 0x04 => n == 1 | 0x05 => n == 1
  | 0x06 => decide (1 ≤ n) | 0x07 => n == 36 | 0x08 => n == 0
  | 0x10 => n == 24 | 0x11 => n == 2 | 0x12 => n == 13 | 0x13 => n == 13
  | 0x20 => decide (4 ≤ n) && (n - 4) % 132 == 0 && decide (1 ≤ (n - 4) / 132 ∧ (n - 4) / 132 ≤ 64)
  | 0x21 => n == 36 | 0x22 => n == 2 | 0x23 => n == 3 | 0x24 => n == 3 | 0x25 => n == 0
  | 0x30 => decide (1 ≤ n) | 0x31 => n == 4 | 0x32 => decide (5 ≤ n) | 0x33 => n == 1
  | 0x40 => n == 68 | 0x41 => n == 1 | 0x42 => n == 1 | 0x43 => n == 18 | 0x50 => n == 16
  | _ => false

/-- IN_LEN is at most 4 KiB inline and 48 MiB by DMA (R414, R423). -/
def mbxSizeOk (x : Chanl) : Bool := decide (x.inLen.toNat ≤ (if x.inDma then 50331648 else 4096))

/-- The feature bit a command needs (R352, R416). -/
def mbxFeature (op : Nat) (inp : Bytes) : Option Nat :=
  if op = 4 then (if beField inp 0 1 = 1 then some 1 else none)
  else if op = 7 then (if beField inp 32 1 = 1 then some 7 else none)
  else if 0x10 ≤ op ∧ op ≤ 0x13 then some 6
  else if 0x20 ≤ op ∧ op ≤ 0x22 then some 9
  else if op = 0x30 ∨ op = 0x31 then some 4
  else if op = 0x32 ∨ op = 0x33 then some 5
  else if 0x40 ≤ op ∧ op ≤ 0x42 then some 3
  else if op = 0x43 then some 2
  else if op = 0x50 then some 8
  else none

/-- The features this device offers: bits 0 to 9 (R352). -/
abbrev ownFeatures : BitVec 64 := 0x3FF

/-- What may run before NEGOTIATE has completed (R351). -/
def mbxBefore (op : Nat) (inp : Bytes) : Bool :=
  op == 1 || op == 2 || op == 3 || (op == 4 && beField inp 0 1 == 0) || op == 5 || (op == 7 && beField inp 32 1 == 0)

/-- What may run before READY (R384): no tenant admission, no load of an Almanac or a program, no hitless activation. DEDUCED
(log 108): what STANDBY refuses the states before it refuse too, in which less works (R383). -/
def mbxEarly (op : Nat) (inp : Bytes) : Bool :=
  !(op == 0x10 || op == 0x30 || op == 0x32 || (op == 4 && beField inp 0 1 == 1))

/-- Check 1 of R415: the readiness state permits the command (R370, R375, R383, R384). -/
def mbxState (s : State) (op : Nat) (inp : Bytes) : Bool :=
  let evid0 := op == 7 && beField inp 32 1 == 0
  match s.fab.state with
  | .reset | .sprout | .recovery => false
  | .faulted => if s.fab.cause == 1 then op == 1 || op == 2 || evid0 || op == 6 else op != 0x25
  | .ready => op != 0x25
  | .standby => mbxEarly op inp
  | .config | .init | .discover => op != 0x25 && mbxEarly op inp

/-- The tenant slot a TEN_ADMIT or TEN_RELEASE names, and the tenant. -/
def tenNames (s : State) (op : Nat) (inp : Bytes) : Nat × Option Nat :=
  let t := beField inp 0 2
  (t, if op = 0x10 then some (beField inp 2 1) else slotOfTenant s t)

/-- Two commands conflict (R417); the inputs are given as far as they name anything. -/
def mbxClash (s : State) (a : Nat) (x : Bytes) (b : Nat) (y : Bytes) : Bool :=
  let fw := fun n => decide (3 ≤ n ∧ n ≤ 6)
  let ten := fun n => decide (n = 0x10 ∨ n = 0x11)
  let bind_ := fun n => decide (n = 0x12 ∨ n = 0x13)
  let pair := fun m n => (a == m && b == n) || (a == n && b == m)
  let sameSlot := (tenNames s a x).2.isSome && (tenNames s a x).2 == (tenNames s b y).2
  a == 1 || b == 1 || (fw a && fw b) ||
  (ten a && ten b && (beField x 0 2 == beField y 0 2 || sameSlot)) ||
  (pair 0x30 0x31 && (if a = 0x30 then beField x 8 4 == beField y 0 4 else beField x 0 4 == beField y 8 4)) ||
  (pair 0x32 0x33 && beField x 0 1 == beField y 0 1) ||
  (pair 0x41 0x42 && beField x 0 1 == beField y 0 1) ||
  (pair 0x23 0x24 && beField x 0 2 == beField y 0 2) ||
  ((bind_ a && (bind_ b || ten b) || ten a && bind_ b) && beField x 0 2 == beField y 0 2)

/-- Some command that conflicts runs on another channel. -/
def mbxConflict (s : State) (c op : Nat) (inp : Bytes) : Bool :=
  (List.range 4).any (fun d => d != c && (chan s d).busy && (chan s d).started &&
    mbxClash s op inp (chan s d).opcode.toNat (chan s d).named)

/-- The checks of R415, in their order. -/
def mbxCheck (s : State) (c op : Nat) (inp : Bytes) : Status :=
  if !mbxState s op inp then .busy
  else if !mbxKnown op || !mbxSizeOk (chan s c) || !mbxLenOk op (chan s c).inLen.toNat then .malformed
  else match s.fw.agreed with
    | none => if !mbxBefore op inp then .version else if mbxConflict s c op inp then .busy else .done
    | some feats =>
      if (match mbxFeature op inp with | some b => !feats.getLsbD b | none => false) then .version
      else if mbxConflict s c op inp then .busy else .done

/-! ### Running a command -/

/-- The input of a channel: its buffer, or what host memory gave by DMA (R414). -/
def mbxInput (x : Chanl) (dma : Bytes) : Bytes :=
  if x.inDma then slice dma 0 x.inLen.toNat else memRead x.inBuf 0 (Nat.min x.inLen.toNat 4096)

/-- A command ends: BUSY falls, DONE rises, STATUS and OUT_LEN are set, the output is delivered and the
channel's vector is raised (R414). The result of a command that saw PERST_N or the link go down is lost
(R418). -/
def mbxEndLen (c : Nat) (st : Status) (len : Nat) (out : Bytes) (s : State) : State :=
  let x := chan s c
  let closed := { x with busy := false, started := false, lost := false, named := [] }
  if !x.busy then s
  else if x.lost then setChan c closed s
  else
    let s := if x.outDma && !out.isEmpty then dmaWrite x.outAddr.toNat out s else s
    let buf := if x.outDma then x.outBuf else memWrite x.outBuf 0 out
    let s := setChan c { closed with done := true, status := BitVec.ofNat 8 st.code, outLen := BitVec.ofNat 26 len, outBuf := buf } s
    if x.done then s else riseVec (1 + c) s

def mbxEnd (c : Nat) (st : Status) (out : Bytes) (s : State) : State := mbxEndLen c st out.length out s

/-- The output of `n` bytes fits (R414). -/
def mbxFits (s : State) (c n : Nat) : Bool :=
  let x := chan s c
  if x.outDma then decide (n ≤ x.outCap.toNat) else decide (n ≤ 4096)

/-- End with an output, or with MALFORMED and the length needed before any effect (R414). -/
def mbxAnswer (c : Nat) (out : Bytes) (eff : State → State) (s : State) : State :=
  if mbxFits s c out.length then mbxEnd c .done out (eff s) else mbxEndLen c .malformed out.length [] s

/-- The row of a command runs: channel `c` is BUSY with this opcode and the management complex serves it; ALM_LOAD waits for the
schedule core too (R337).
`f` carries out the command's own checks and effect on its input. -/
def mbxRun (c op : Nat) (dma : Bytes) (f : Bytes → State → State) (s : State) : State :=
  let x := chan s c
  if !x.busy || x.started || x.opcode.toNat != op || !mgmtRuns s || (op == 0x30 && coreSt s coreSched != .running) then s
  else
    let inp := mbxInput x dma
    let st := mbxCheck s c op inp
    if st != .done then mbxEnd c st [] (if op == 4 then traceFw 0x0A 0 s else s)   -- an activation refused (R355)
    else if x.inDma && !dmaOn s then mbxEnd c .tierFailed [] (bump cntCxlDmaErrCnt s)
    else f inp (modChan c (fun x => { x with started := true, named := inp.take 128 }) s)

/-- GO (R414): BUSY is set. An opcode outside R416 has no command to run, so it ends at once (R415). -/
def mbxGo (c : Nat) (s : State) : State :=
  let s := modChan c (fun x => { x with busy := true, started := false, lost := false, named := [] }) s
  let op := (chan s c).opcode.toNat
  if mbxKnown op then s
  else mbxEnd c (if mbxState s op [] then .malformed else .busy) [] s

/-- Every channel's running command is cut off from its result (R418). -/
def mbxLose (s : State) : State :=
  each (List.range 4) (fun c s => if (chan s c).busy then modChan c (fun x => { x with lost := true }) s else s) s

/-- A watchdog restarts the management complex: a command under way ends with BUSY, and what it started has no
channel left to answer (R337). -/
def mbxAbortAll (s : State) : State :=
  let s := each (List.range 4) (fun c s => if (chan s c).busy && (chan s c).started then mbxEnd c .busy [] s else s) s
  let orphan := fun (m : Move) => match m.origin with | .chan _ => { m with origin := .chan 4 } | _ => m
  { s with
    xlat := { s.xlat with changes := s.xlat.changes.filter (fun x => decide (4 ≤ x.id)) }
    ten := { s.ten with ten := s.ten.ten.map (fun x => (x.1, { x.2 with relChan := none })) }
    mov := { s.mov with moves := s.mov.moves.map orphan }
    fw := { s.fw with actDone := s.fw.actDone || s.fw.actChan.isSome } }

/-! ### Waiting for other Osenos (R76, R78) -/

/-- The racks this device knows: its own and those of the adverts it holds (R380). -/
def knownRacks (s : State) : List Nat := (s.fab.rack.toNat :: s.fab.db.map (fun a => a.node.toNat / 8)).eraseDups

/-- The nodes of the eight Osenos of a rack, this one left out (R64, R73). -/
def rackNodes (s : State) (r : Nat) : List Nat := ((List.range 8).map (fun p => 8 * r + p)).filter (fun n => n != nodeId s)

/-- The nodes of the other Osenos that hold, or may hold, a copy of a tenant's table: every Oseno of every known rack
(R64, R76). -/
def tableNodes (s : State) : List Nat := (knownRacks s).flatMap (rackNodes s)

/-- Send a message to nodes. -/
def ctlNodes (nodes : List Nat) (m : Ctl) (s : State) : State :=
  emits (nodes.map (fun n => Emit.ctl (BitVec.ofNat 11 n) m)) s

/-- Send a change to other Osenos and wait for their confirmations as number `id`. -/
def startChange (id kind : Nat) (nodes : List Nat) (m : Ctl) (s : State) : State :=
  let cs := s.xlat.changes.filter (fun x => !(x.id == id)) ++ [{ id := id, nodes := nodes, kind := kind }]
  ctlNodes nodes m { s with xlat := { s.xlat with changes := cs } }

def changeOf (s : State) (id : Nat) : Option PendChange := s.xlat.changes.find? (fun x => x.id == id)

def dropChange (id : Nat) (s : State) : State :=
  { s with xlat := { s.xlat with changes := s.xlat.changes.filter (fun x => !(x.id == id)) } }

/-- A change of a mailbox channel that every Oseno has confirmed ends its command (R76). -/
def changeDone (c : Nat) (s : State) : State :=
  match changeOf s c with
  | some x => if x.nodes.isEmpty then mbxEnd c .done [] (dropChange c s) else s
  | none => s

end Sys2Proof.Machine
end

