-- ==== Sys2Proof/Machine/Move.lean ====
section
/-!
DEFINITION. The move engines (R245 to R257): MOVE descriptors, engines, the pages of a COPY or a RELOCATE,
the store hold and its release, fault records, and the changes of mappings and regions that other Osenos
confirm (R76 to R78).
-/

namespace Sys2Proof.Machine
open Sys2Proof

/-! ### Descriptors (R245, R246) -/

/-- The fields of a MOVE descriptor. -/
structure MoveDesc where
  op  : Nat
  src : Nat
  dst : Nat
  len : Nat
  skey : Nat
  stag : Nat
  dkey : Nat
  dtag : Nat
  deriving DecidableEq, Repr

def parseMove (bs : Bytes) : MoveDesc :=
  { op := beField bs 0 1, src := beField bs 8 8, dst := beField bs 16 8, len := beField bs 24 8
    skey := beField bs 32 2, stag := beField bs 34 4, dkey := beField bs 38 2, dtag := beField bs 40 4 }

def MoveDesc.reloc (d : MoveDesc) : Bool := d.op == 0x20

/-- The F bit of an FVA. -/
abbrev fBit (a : Nat) : Bool := a.testBit 63
/-- HPLANE of an FVA with F = 1 (R57). -/
abbrev hplane (a : Nat) : Nat := bitsOf a 60 3

/-- The plane a descriptor fixes, if any (R246). -/
def MoveDesc.plane (d : MoveDesc) : Option Nat :=
  if fBit d.src then some (hplane d.src)
  else if d.reloc then none
  else if fBit d.dst then some (hplane d.dst) else none

/-- Check 1 of R248: the format and constraints of R245. -/
def moveFormat (bs : Bytes) : Bool :=
  let d := parseMove bs
  let mib := 2 ^ 21
  bs.length == 64 && allZero (slice bs 1 7) && allZero (slice bs 44 20) && decide (1 ≤ d.len ∧ d.len ≤ 2 ^ 40) &&
  (if d.op = 0x20 then
    let space := bitsOf d.dst 44 4
    let ep := bitsOf d.dst 48 16
    fBit d.src && d.src % mib == 0 && d.len % mib == 0 && d.dst % mib == 0 &&
    decide (1 ≤ space ∧ space ≤ 3 ∧ 0x4800 ≤ ep ∧ ep < 0x5000) && (ep - 0x4800) % 8 == hplane d.src &&
    decide (d.dst % 2 ^ 44 + d.len ≤ 2 ^ 44)
   else if d.op = 0x21 then
    d.src % 128 == 0 && d.dst % 128 == 0 && d.len % 128 == 0 && (fBit d.src || fBit d.dst) &&
    (!(fBit d.src && fBit d.dst) ||
      (hplane d.src == hplane d.dst && decide (d.src + d.len ≤ d.dst ∨ d.dst + d.len ≤ d.src)))
   else false)

/-- Check 2 of R72 for a MOVE: the FVA layouts. -/
def moveFvas (d : MoveDesc) : Bool := fvaOk d.src && (d.reloc || fvaOk d.dst)

/-! ### MOVEs and engines -/

def moveOf (s : State) (id : Nat) : Option Move := s.mov.moves.find? (fun m => m.id == id)

def modMove (id : Nat) (f : Move → Move) (s : State) : State :=
  { s with mov := { s.mov with moves := modFirst (fun m => m.id == id) f s.mov.moves } }

/-- The MOVE an engine runs. -/
def engineMove (s : State) (e : Nat) : Option Move := s.mov.moves.find? (fun m => m.engine == some e)

/-- A MOVE joins the waiting MOVEs (R247). -/
def addMove (o : MoveOrigin) (tenant : BitVec 12) (desc : Bytes) (late : Bool) (s : State) : State :=
  let m : Move := { id := s.mov.nextMove, origin := o, tenant := tenant, desc := desc, late := late }
  { s with mov := { s.mov with moves := s.mov.moves ++ [m], nextMove := s.mov.nextMove + 1 } }

/-- A MOVE ends with a status, reported to where it came from (R71, R165, R246). -/
def endMove (m : Move) (st : Status) (s : State) : State :=
  let s := { s with mov := { s.mov with moves := s.mov.moves.filter (fun x => !(x.id == m.id)) } }
  let s := bump (if st = .done then cntMovDoneCnt else cntMovFailCnt) s
  match m.origin with
  | .attach p id => endOut p id st [] s
  | .chan c => mbxEnd c st [] s
  | .peer node c => emit (.ctl node (.moveEnded c st)) s
  | .almanac job iter d =>
    let st := if m.late && st == .done then Status.late else st
    -- JOB_ID 0 stands for a load that is gone (R157, R165)
    if job == 0 then s
    else { s with mov := { s.mov with doneDesc := s.mov.doneDesc ++ [(job, iter, d, st)] } }

/-- An Almanac MOVE is submitted when its entry fires; one of another plane than the device's own ends there (R246). -/
def almMove (job : BitVec 32) (iter d : Nat) (tenant : BitVec 12) (desc : Bytes) (late : Bool) (s : State) : State :=
  let id := s.mov.nextMove
  let s := addMove (.almanac job iter d) tenant desc late
    { s with mov := { s.mov with doneDesc := s.mov.doneDesc.filter (fun x => !(x.1 == job && x.2.1 == iter && x.2.2.1 == d)) } }
  if (parseMove desc).plane = some s.fab.plane.toNat then s
  else match moveOf s id with
    | some m => endMove m .malformed s
    | none => s

/-- Check 3 of R248: the tenant's port is bound and not fenced, the tenant is not being scrubbed. -/
def moveFenced (s : State) (m : Move) : Bool :=
  let slot := match slotOfTenant s m.tenant.toNat with
    | some n => (tenSlot s n).state == .active || (tenSlot s n).state == .admitting
    | none => false
  match m.origin with
  | .attach p _ => !portBound s p || (sess s p).state == .fenced || !slot
  | _ => !slot

/-- Checks 1 to 3 of R248. -/
def moveStartCheck (s : State) (m : Move) : Status :=
  if !moveFormat m.desc then .malformed
  else if (parseMove m.desc).plane ≠ some s.fab.plane.toNat then .malformed
  else if moveFenced s m then .fenced else .done

/-- The engine may serve the tenant (R247, R261). -/
def engineFor (s : State) (e : Nat) (tenant : BitVec 12) : Bool :=
  let o := movBase + 0x100 + e * 4
  s.ten.shared || (bitAt s o 0 && fieldOf s o 4 12 == tenant.toNat)

/-- The MOVE a free engine takes: the oldest of its tenant; in shared tenancy of the next tenant in round robin. -/
def nextMove (s : State) (e : Nat) : Option Move :=
  let ms := s.mov.moves.filter (fun m => m.engine.isNone && engineFor s e m.tenant)
  if s.ten.shared then
    let key := fun (m : Move) => (m.tenant - s.mov.lastTen - 1).toNat
    match ms with
    | [] => none
    | m :: rest => some (rest.foldl (fun b x => if key x < key b then x else b) m)
  else ms.head?

/-- An engine frees and the next waiting MOVE starts, while the engines are in service (R247, R261: MOV_CTRL.EN). -/
def startMove (e : Nat) (s : State) : State :=
  if (engineMove s e).isSome || !bitAt s movBase 0 then s
  else match nextMove s e with
    | none => s
    | some m =>
      let s := { s with mov := { s.mov with lastTen := m.tenant } }
      let st := moveStartCheck s m
      if st != .done then endMove m st s else modMove m.id (fun m => { m with engine := some e }) s

/-! ### Pages -/

/-- Count a bucket read that `moveSlot` makes for a page, at the cluster whose table it reads (R80), and what it finds
(R241). -/
def noteRead (k : PageKey) (ecc : Ecc) (s : State) : State :=
  match (List.range 9).find? (fun c => (tableOf s c k.tenant.toNat).isSome) with
  | none => s
  | some c =>
    if (cacheFind s c k).isSome then s
    else sysFound (bucketAddr s c k.tenant.toNat k.f k.sel.toNat k.vpn.toNat) ecc (bump (cntXltMissCnt c) s)

/-- The slot for a page of a move: from a translation cache that hits (as in the example of chapter 10), else from a bucket
read. DESIGN CHOICE, unsafe (log 120): the cache is that of the first cluster with a table for the tenant, and a move neither
fills it nor makes its entry recently used; R68 and R71 name neither. -/
def moveSlot (s : State) (k : PageKey) (ecc : Ecc) : Except Status (BitVec 64 × BitVec 64) :=
  match (List.range 9).find? (fun c => (tableOf s c k.tenant.toNat).isSome) with
  | none => .error .unmapped
  | some c => match cacheFind s c k with
    | some e => .ok (e.w0, e.w1)
    | none => bucketResult s c k ecc

/-- The FPA word a slot gives an FVA (R59, R60). -/
def slotFpa (w : BitVec 64 × BitVec 64) (a : Nat) : Nat := fpaWord ((slotW w).fpaOf a).1 ((slotW w).fpaOf a).2

def epOf (x : Nat) : Nat := x / 2 ^ 48
def spaceOf (x : Nat) : Nat := bitsOf x 44 4
def offOf (x : Nat) : Nat := x % 2 ^ 44

/-- The FPA is in the Stacks or Annex of this node. -/
def inTier (s : State) (x : Nat) : Bool := epOf x == memEp s && (spaceOf x == 1 || spaceOf x == 2)
/-- The FPA is in this node's host tier. -/
def inHost (s : State) (x : Nat) : Bool := epOf x == memEp s && spaceOf x == 3

/-- The ranges of two pages of this node meet. -/
def meets (p : PageMove) (x n : Nat) : Bool := decide (p.page < x % 2 ^ 48 + n ∧ x % 2 ^ 48 < p.page + p.size)

/-- Some page of the list meets `n` bytes at an FPA of this node. -/
def underMove (s : State) (ps : List PageMove) (x n : Nat) : Bool :=
  epOf x == memEp s && ps.any (fun p => meets p x n)

/-- `n` bytes at an FPA of this node lie in a valid CXL.mem window (R253, R257). -/
def inWindow (s : State) (x n : Nat) : Bool :=
  inTier s x && (List.range 16).any (fun i =>
    let o := stkBase + 0x400 + i * 0x10
    let lo := (word s (o + 8)).toNat * 2 ^ 21
    let hi := lo + (word s (o + 12)).toNat * 2 ^ 21
    bitAt s o 0 && fieldOf s o 1 1 + 1 == spaceOf x && decide (lo < offOf x + n ∧ offOf x < hi))

/-- The region key check at a side of a MOVE on this node (check 7): a descriptor that cannot be read denies (R238). A side on
another node is checked there: by the frames of a read or write (R254), and for both rights that a RELOCATE needs at its
source when that page is marked (R250). -/
def sideKey (s : State) (tenant x n key tag : Nat) (needs : List Need) : Bool :=
  if epOf x ≠ memEp s then true
  else match goodRegion s (memEp s) key with
    | some d => needs.all (fun k => d.admits tenant tag (spaceOf x) (offOf x) n k) &&
        decide (offOf x + n ≤ spaceLimit (spaceOf x))
    | none => false

/-- Check 8 of R248: measured regions and windows. -/
def sideRules (s : State) (d : MoveDesc) (x y n : Nat) : Bool :=
  let meas := fun a key => epOf a == memEp s && (match goodRegion s (memEp s) key with | some r => r.meas | none => false)
  if d.reloc then !meas x d.skey && !meas y d.dkey && !inWindow s x n && !inWindow s y n
  else !meas y d.dkey ||
    (match measuredAt s d.dkey with | some r => !r.sealed && offOf y == r.base + r.ptr | none => false)

/-- Checks 8 and 9 of R72 towards an endpoint. -/
def epCheck (s : State) (e : Nat) : Status :=
  if quarantined s e then .targetLost else if epFenced s e then .fenced else .done

/-- `epCheck` over several endpoints: a lost one counts before a fenced one. -/
def epsCheck (s : State) (es : List Nat) : Status :=
  let st := es.map (epCheck s)
  if st.any (· == .targetLost) then .targetLost else if st.any (· == .fenced) then .fenced else .done

/-- The endpoints a descriptor names itself: an address with F = 0 its accelerator, the DST of a RELOCATE its node (R57,
R245). Those of other addresses are known once a page is translated. -/
def moveEps (d : MoveDesc) : List Nat :=
  (if fBit d.src then [] else [bitsOf d.src 48 15]) ++
  (if d.reloc then [epOf d.dst] else if fBit d.dst then [] else [bitsOf d.dst 48 15])

/-- Checks 5 to 8 of R248 for a page, after checks 8 and 9 of R72. -/
def pageCheck (s : State) (m : Move) (ws wd : Option (BitVec 64 × BitVec 64)) (x y n : Nat) : Status :=
  let d := parseMove m.desc
  let slots := (ws.toList ++ wd.toList).map slotW
  let st := epsCheck s [epOf x, epOf y]
  let big := match ws with | some w => (slotW w).big | none => false
  if st != .done then st
  else if slots.any (fun w => !w.wf) then .malformed
  else if d.reloc && big && !((d.src + m.pos) % 2 ^ 30 == 0 && (d.dst + m.pos) % 2 ^ 30 == 0 && decide (m.pos + 2 ^ 30 ≤ d.len)) then
    .malformed
  else if !(match ws with | some w => (slotW w).r && (!d.reloc || (slotW w).w) | none => true) then .accessDenied
  else if !(match wd with | some w => (slotW w).w | none => true) then .accessDenied
  else if !sideKey s m.tenant.toNat x n d.skey d.stag (if d.reloc then [.r, .w] else [.r]) then .accessDenied
  else if !sideKey s m.tenant.toNat y n d.dkey d.dtag [.w] then .accessDenied
  else if !sideRules s d x y n then .accessDenied
  else .done

/-! ### Fault records (R255) -/

/-- Records a tenant may hold open. -/
def faultLimit (s : State) : Nat := if s.ten.shared then 64 else 64 / Nat.max 1 (admittedN s)

/-- A MOVE meets a page with no pinned mapping. -/
def moveFault (m : Move) (k : PageKey) (s : State) : State :=
  match s.mov.faults.find? (fun r => r.key == k) with
  | some r => modMove m.id (fun m => { m with phase := .parked r.num }) s
  | none =>
    let mine := (s.mov.faults.filter (fun r => r.key.tenant == k.tenant)).length
    match (List.range 64).find? (fun i => !s.mov.faults.any (fun r => r.num == i)) with
    | some i =>
      if mine < faultLimit s then
        let s := { s with mov := { s.mov with faults := s.mov.faults ++ [{ num := i, key := k, since := now s }] } }
        raiseMov evMovFault i (modMove m.id (fun m => { m with phase := .parked i }) s)
      else endMove m .unmapped (bump cntMovFaultFullCnt s)
    | none => endMove m .unmapped (bump cntMovFaultFullCnt s)

/-- The MOVEs parked on a record. -/
def parkedOn (s : State) (r : Nat) : List Move := s.mov.moves.filter (fun m => m.phase == .parked r)

/-- A record closes and its MOVEs translate again (MOV_RESUME). -/
def resumeFault (r : Nat) (s : State) : State :=
  let ms := parkedOn s r
  let s := { s with mov := { s.mov with faults := s.mov.faults.filter (fun x => !(x.num == r)) } }
  each ms (fun m s => modMove m.id (fun m => { m with phase := .start }) s) s

/-- A record closes and its MOVEs end with UNMAPPED. -/
def failFault (r : Nat) (s : State) : State :=
  let ms := parkedOn s r
  let s := { s with mov := { s.mov with faults := s.mov.faults.filter (fun x => !(x.num == r)) } }
  each ms (fun m s => endMove m .unmapped s) s

/-! ### Reading and writing a part -/

/-- The lines of a tier before the first one that cannot be read, and whether there is one: out of
service, poisoned, or found uncorrectable now (`bad` names that line of the part). -/
def readTier (s : State) (x n : Nat) (bad : Option Nat) : Bytes × Option Nat :=
  let fails := fun i => offsetOut s (spaceOf x) (offOf x + 128 * i) || poisoned s (spaceOf x) (offOf x + 128 * i) ||
    bad == some i
  match (List.range (n / 128)).find? fails with
  | some i => (tierRead s (spaceOf x) (offOf x) (128 * i), some i)
  | none => (tierRead s (spaceOf x) (offOf x) n, none)

/-- Write lines to a tier, up to the first that is out of service. -/
def writeTier (x : Nat) (bs : Bytes) (s : State) : State × Nat :=
  let k := match (List.range (bs.length / 128)).find? (fun i => offsetOut s (spaceOf x) (offOf x + 128 * i)) with
    | some i => 128 * i
    | none => bs.length
  let s := tierWrite (spaceOf x) (offOf x) (bs.take k) s
  (each (List.range (k / 128)) (fun i s => clearPoison (spaceOf x) (offOf x + 128 * i) s) s, k)

/-- The bytes of a tier's range become zero. -/
def zeroRange (space off n : Nat) (s : State) : State :=
  let keep_ := fun (x : Nat × Byte) => !decide (off ≤ x.1 ∧ x.1 < off + n)
  let poison := s.home.poison.filter (fun k => !(k / 2 ^ 44 == space && decide (off ≤ k % 2 ^ 44 ∧ k % 2 ^ 44 < off + n)))
  { s with home := { s.home with
    stk := if space = 1 then s.home.stk.filter keep_ else s.home.stk
    anx := if space = 2 then s.home.anx.filter keep_ else s.home.anx
    poison := poison } }

/-- The FPA lies on this node. -/
def onNode (s : State) (x : Nat) : Bool := epOf x == memEp s

/-- A page under move at its old home, and at its new one. -/
def oldMark (old new size runner : Nat) : PageMove := { page := old % 2 ^ 48, size := size, new := new, runner := runner }
def newMark (new size runner : Nat) : PageMove := { page := new % 2 ^ 48, size := size, new := new, runner := runner }

/-- Mark a page holding at its old home and arriving at its new one, where they are here (R250). -/
def markPage (old new size runner : Nat) (s : State) : State :=
  { s with mov := { s.mov with
    holding := if onNode s old then s.mov.holding ++ [oldMark old new size runner] else s.mov.holding
    arriving := if onNode s new then s.mov.arriving ++ [newMark new size runner] else s.mov.arriving } }

/-- The page at an FPA of this node is marked by this runner. -/
def marked (s : State) (ps : List PageMove) (x runner : Nat) : Bool :=
  onNode s x && ps.any (fun p => p.page == x % 2 ^ 48 && p.runner == runner)

/-- Remove the marks of a page under move. -/
def clearMarks (old new runner : Nat) (s : State) : State :=
  { s with mov := { s.mov with
    holding := s.mov.holding.filter (fun p => !(onNode s old && p.page == old % 2 ^ 48 && p.runner == runner))
    arriving := s.mov.arriving.filter (fun p => !(onNode s new && p.page == new % 2 ^ 48 && p.runner == runner)) } }

/-- The holding of a page here ends with its release: stores that still reach the old copy go on to the new home, until the
page is written over (R99, R250, R252). -/
def endHolding (p : PageMove) (old runner : Nat) (s : State) : State :=
  let s := clearMarks old 0 runner s
  if onNode s old then { s with mov := { s.mov with oldPages := s.mov.oldPages ++ [p] } } else s

/-- The page a MOVE relocates, as a page under move at its old home. -/
def movePageOf (m : Move) : PageMove := oldMark m.src m.dst m.n 0

/-- The stores held for a page. -/
def heldFor (s : State) (p : PageMove) : List HeldStore :=
  s.mov.held.filter (fun x => decide (p.page ≤ x.frame.fpa ∧ x.frame.fpa < p.page + p.size))

/-- Stores accepted before a page was marked that are still being applied to it: the copy waits for them (R99, R250). -/
def storesUnder (s : State) (p : PageMove) : Bool :=
  s.home.accesses.any (fun a => a.op != .read && a.frame.dst.toNat == memEp s && meets p a.frame.fpa (spanOf a.frame))

/-- Requests that waited at an arriving page are served. -/
def wakeArriving (s : State) : State :=
  let ws := s.mov.arrWait
  let s := { s with mov := { s.mov with arrWait := [] } }
  each ws (fun x s => if x.2.1 = 0 then homePage x.1 x.2.2 s else recordPage x.1 x.2.1 x.2.2 s) s
where
  /-- A mirror session's record that waited goes on. -/
  recordPage (id own : Nat) (f : Frame) (s : State) : State :=
    if (pageOver s.mov.arriving f).isSome then { s with mov := { s.mov with arrWait := s.mov.arrWait ++ [(id, own, f)] } }
    else if (pageOver s.mov.holding f).isSome then holdStore id own f s
    else match pageOver s.mov.oldPages f with
      | some p => passHeld id own p f s
      | none => if homeReach s hpMem f = .done then startAs id hpMem f false own none s else mirEnd (own - 1) f .tierFailed s

/-- A held store is applied at the old home after all. -/
def heldBack (x : HeldStore) (s : State) : State :=
  let s := whenS x.waits (bump cntMovHeldCnt) (dropHeld x.id s)
  if x.own = 0 then homeStart x.id x.frame s
  else if homeReach s x.home x.frame = .done then startAs x.id x.home x.frame false x.own none s
  else heldOver x .tierFailed [] s

/-- A page's move is given up at the homes here that its runner has marked: held stores are applied at the old home, the new
copy is discarded, so that its lines read as zero again, and the marks go (R244, R248, R252; DEDUCED, log 27). -/
def giveUpPage (old new size runner : Nat) (s : State) : State :=
  let hs := if marked s s.mov.holding old runner then heldFor s (oldMark old new size 0) else []
  let s := if inTier s new && marked s s.mov.arriving new runner then zeroRange (spaceOf new) (offOf new) size s else s
  wakeArriving (each hs heldBack (clearMarks old new runner s))

/-- The nodes of the homes of a page under move that are not this one. -/
def farNodes (s : State) (m : Move) : List Nat :=
  (([m.src, m.dst].filter (fun x => !onNode s x)).map (fun x => epOf x - 0x4800)).eraseDups

/-- A page's move is given up, here and at its homes elsewhere (R248, R252). -/
def dropPage (m : Move) (s : State) : State :=
  ctlNodes (farNodes s m) (.mapChange (.page .giveUp m.src m.dst m.n)) (giveUpPage m.src m.dst m.n (memEp s) s)

/-- A part of a COPY is written, or a page of a RELOCATE is copied. -/
def partWritten (m : Move) (st : Status) (s : State) : State :=
  let d := parseMove m.desc
  if st != .done then endMove m st (if d.reloc then dropPage m s else s)
  else if d.reloc then modMove m.id (fun m => { m with phase := .copied }) s
  else if d.len ≤ m.pos + m.n then endMove m .done s
  else modMove m.id (fun m => { m with phase := .start, pos := m.pos + m.n, buf := [], data := [], old := false }) s

/-- Frames of an engine's read or write of `n` bytes at an FPA. -/
def engineFrames (s : State) (m : Move) (opc : BitVec 8) (x n key tag : Nat) (bs : Bytes) : List Frame :=
  markEnds ((cutFrames (n / 512 + 2) (offOf x) n).map (fun a =>
    { type := tReq, cls := 2, src := BitVec.ofNat 16 (memEp s), dst := BitVec.ofNat 16 (epOf x), plane := s.fab.plane
      tenant := m.tenant, opc := opc, len := BitVec.ofNat 10 a.2, mid := midOf (spaceOf x * 2 ^ 44 + a.1) key tag
      payload := if opc = 2 then slice bs (a.1 - offOf x) a.2 else [] }))

/-- Issue an engine's read or write that leaves the tiers: to the host tier of this node, or as frames (R246, R254). -/
def engineIssue (m : Move) (opc : BitVec 8) (x n key tag : Nat) (bs : Bytes) (s : State) : State :=
  let e := m.engine.getD 0
  let fs := engineFrames s m opc x n key tag bs
  let ph := if opc = 1 then MovePhase.reading else .writing
  if inHost s x then
    let s := modMove m.id (fun m => { m with phase := ph, left := fs.length }) s
    each fs (fun f s =>
      if homeReach s hpHost f = .done then startAcc hpHost f false (9 + e) none s
      else { s with mov := { s.mov with hostDone := s.mov.hostDone ++ [(e, f.offset, .tierFailed, [])] } }) s
  else
    let sid : StreamId := ⟨BitVec.ofNat 16 (memEp s), BitVec.ofNat 16 (epOf x), false, m.tenant⟩
    sendReq (.engine e 0) sid opc fs (modMove m.id (fun m => { m with phase := ph, left := 1 }) s)

/-- Write what was read to the destination; `st` ends the MOVE after the bytes at hand are written. -/
def partRead (m : Move) (buf : Bytes) (st : Status) (s : State) : State :=
  let d := parseMove m.desc
  let m := { m with buf := buf, status := st, data := [] }
  let s := modMove m.id (fun _ => m) s
  if buf.isEmpty || (d.reloc && st != .done) then partWritten m st s
  else if !d.reloc && (underMove s s.mov.holding m.dst buf.length || underMove s s.mov.oldPages m.dst buf.length) then
    held m buf d.dkey d.dtag s
  else if inTier s m.dst then
    let r := writeTier m.dst buf s
    let s := match measuredAt r.1 d.dkey with
      | some x => if epOf m.dst = memEp s ∧ x.space.toNat = spaceOf m.dst ∧ x.base + x.ptr = offOf m.dst then
          feedMeasured x.num (buf.take r.2) r.1 else r.1
      | none => r.1
    partWritten m (if r.2 < buf.length then .tierFailed else st) s
  else engineIssue m 2 m.dst buf.length d.dkey d.dtag buf s
where
  /-- The writes of a part whose page is holding are held as stores, and go on where its release has begun (R250, R253). -/
  held (m : Move) (buf : Bytes) (key tag : Nat) (s : State) : State :=
    let e := m.engine.getD 0
    let fs := engineFrames s m 2 m.dst buf.length key tag buf
    let s := modMove m.id (fun m => { m with phase := .writing, left := fs.length }) s
    each fs (fun f s =>
      match pageOver s.mov.oldPages f with
      | some p => passHeld s.home.nextAcc (9 + e) p f (drawAcc s)
      | none => holdStore s.home.nextAcc (9 + e) f (drawAcc s)) s

/-- The bytes answered without a gap from the start of a part. -/
def dataPrefix (data : List (Nat × Bytes)) : Nat → Nat → Bytes
  | 0, _ => []
  | fuel + 1, off =>
    match data.find? (fun d => d.1 == off) with
    | some d => if d.2.isEmpty then [] else d.2 ++ dataPrefix data fuel (off + d.2.length)
    | none => []

/-- A read or write of a part that left the tiers has ended; source data that its home finds uncorrectable ends the MOVE with
TIER_FAILED (R248). -/
def partAnswered (e : Nat) (st : Status) (data : List (Nat × Bytes)) (s : State) : State :=
  match engineMove s e with
  | none => s
  | some m =>
    let m := { m with left := m.left - 1, status := worse m.status st, data := m.data ++ data }
    let s := modMove m.id (fun _ => m) s
    if m.left ≠ 0 then s
    else match m.phase with
      | .reading =>
        let st := if m.status == .dataError then .tierFailed else m.status
        partRead m (dataPrefix m.data (m.data.length + 1) (offOf m.src)) st s
      | .writing => partWritten m m.status s
      | _ => s

/-- Two lists of pages under move that a part must wait for (R253). -/
def mustWait (s : State) (d : MoveDesc) (x y n : Nat) : Bool :=
  underMove s s.mov.arriving x n || underMove s s.mov.arriving y n ||
  (d.reloc && (underMove s s.mov.holding x n || underMove s s.mov.holding y n))

/-- An engine reads its part from the tier it lies in here, or sends for it: corrected lines are counted, and a line found
uncorrectable is poisoned and ends the reading (R241, R248, check 9). -/
def copyPart (m : Move) (corr : List Nat) (bad : Option Nat) (s : State) : State :=
  let d := parseMove m.desc
  if inTier s m.src then
    let r := readTier s m.src m.n bad
    let at_ := fun i => offOf m.src + 128 * i
    let upto := match r.2 with | some i => i | none => m.n / 128
    let s := each (corr.filter (fun i => decide (i < upto))) (fun i s => found (spaceOf m.src) (at_ i) .corrected s) s
    let s := match r.2 with
      | some i => if bad = some i then found (spaceOf m.src) (at_ i) .uncorrectable s else s
      | none => s
    partRead m r.1 (if r.2.isSome then .tierFailed else .done) s
  else engineIssue m 1 m.src m.n d.skey d.stag [] s

/-- A RELOCATE's page is marked at both homes; its copy begins once every home elsewhere has confirmed and the stores that
the old home took before have been applied (R99, R250). -/
def markMove (e : Nat) (m : Move) (corr : List Nat) (bad : Option Nat) (s : State) : State :=
  let d := parseMove m.desc
  let s := markPage m.src m.dst m.n (memEp s) s
  let far := farNodes s m
  if far.isEmpty && !(onNode s m.src && storesUnder s (movePageOf m)) then copyPart m corr bad s
  else
    let step := PageStep.start_ m.tenant (BitVec.ofNat 16 d.skey) (BitVec.ofNat 32 d.stag) (BitVec.ofNat 16 d.dkey) (BitVec.ofNat 32 d.dtag)
    let s := modMove m.id (fun m => { m with phase := .draining }) s
    if far.isEmpty then s else startChange (4 + e) 3 far (.mapChange (.page step m.src m.dst m.n)) s

/-- The homes of a marked page are ready for its copy. -/
def drained (s : State) (e : Nat) (m : Move) : Bool :=
  (match changeOf s (4 + e) with | some x => x.nodes.isEmpty | none => true) &&
  !(onNode s m.src && storesUnder s (movePageOf m))

/-- An engine reaches a page: it translates and checks it, and copies or faults (R71, R248); or it finds the page it marked
ready for its copy. -/
def runPage (e : Nat) (tables : Ecc × Ecc) (corr : List Nat) (bad : Option Nat) (s : State) : State :=
  match engineMove s e with
  | none => s
  | some m =>
    if m.phase == .draining then
      if drained s e m then copyPart m corr bad (dropChange (4 + e) s) else s
    else if m.phase != .start then s
    else if moveFenced s m then endMove m .fenced s
    else
      let d := parseMove m.desc
      let a := d.src + m.pos
      let b := d.dst + m.pos
      let ka := pageKeyOf m.tenant.toNat a
      let kb := pageKeyOf m.tenant.toNat b
      let t := noteRead ka tables.1 s
      match moveSlot s ka tables.1 with
      | .error .unmapped => moveFault m ka t
      | .error st => endMove m st t
      | .ok wa =>
        if d.reloc then
          let n := if (slotW wa).big then 2 ^ 30 else 2 ^ 21
          let x := slotFpa wa a
          let st := pageCheck s m (some wa) none x b n
          if st != .done then endMove m st t
          else if mustWait s d x b n then t
          else
            let m := { m with n := n, src := x, dst := b, slot := wa }
            markMove e m corr bad (modMove m.id (fun _ => m) t)
        else
          let t := noteRead kb tables.2 t
          match moveSlot s kb tables.2 with
          | .error .unmapped => moveFault m kb t
          | .error st => endMove m st t
          | .ok wb =>
            let n := Nat.min (d.len - m.pos) (Nat.min (2 ^ 21 - a % 2 ^ 21) (2 ^ 21 - b % 2 ^ 21))
            let x := slotFpa wa a
            let y := slotFpa wb b
            let st := pageCheck s m (some wa) (some wb) x y n
            if st != .done then endMove m st t
            else if mustWait s d x y n then t
            else
              let m := { m with n := n, src := x, dst := y }
              copyPart m corr bad (modMove m.id (fun _ => m) t)

/-- A home of a marked page refuses its move (R248, checks 7 and 8), or has the page under another move: then the engine
translates the page afresh (R253). -/
def pageRefused (e : Nat) (st : Status) (s : State) : State :=
  match engineMove s e with
  | none => s
  | some m =>
    if m.phase != .draining then s
    else if st == .busy then modMove m.id (fun m => { m with phase := .start, old := false }) (dropPage m s)
    else endMove m .accessDenied (dropPage m s)

/-! ### Changes of mappings (R76 to R78) -/

/-- The distinct copies of a tenant's table on this device: k and offset. -/
def tableCopies (s : State) (tenant : Nat) : List (Nat × Nat) :=
  ((List.range 9).filterMap (fun c => tableOf s c tenant)).eraseDups

/-- The pages of two slots of a tenant meet. -/
def SlotW.overlaps (x y : SlotW) : Bool :=
  x.v && y.v && x.tenant == y.tenant && x.f == y.f && x.sel == y.sel &&
  (if x.big || y.big then x.vpn / 512 == y.vpn / 512 else x.vpn == y.vpn)

/-- Drop the cached entries of pages that a changed slot of a bucket covered before or after (R76). -/
def dropChanged (old new : Bytes) (s : State) : State :=
  let changed := ((bucketSlots old).zip (bucketSlots new)).filter (fun p => p.1 != p.2)
  let slots := changed.flatMap (fun p => [p.1, p.2])
  cacheDrop (fun e => slots.any (fun x => x.overlaps (slotW (e.w0, e.w1)))) s

/-- Write one bucket into every copy on this device: a whole line, which replaces a poisoned one (R241). -/
def writeBucket (tenant i : Nat) (bs : Bytes) (s : State) : State :=
  each (tableCopies s tenant) (fun t s =>
    if i < 2 ^ t.1 then
      let x := t.2 + i * 128
      dropChanged (sysRead s x 128) bs (clearPoison 1 (sysPart + x) (sysWrite x bs s))
    else s) s

/-- Every translator's epoch flips: what is translated now belongs to the old mappings (R78). -/
def flipEpoch (s : State) : State :=
  let ep := (List.range 9).foldl (fun t c => tput false t c (!(tget false s.xlat.epoch c))) s.xlat.epoch
  let old := fun (r : OutReq) => if r.pages.any (fun g => g.slot.isSome) then { r with old := true } else r
  let att := s.att.map (fun x => (x.1, { x.2 with out := x.2.out.map old }))
  let under := fun (m : Move) => match m.phase with | .start | .parked _ => m | _ => { m with old := true }
  let sent := fun (r : FabReq) => match r.origin with | .coll _ _ | .forward _ _ => r | _ => { r with old := true }
  let wrote := fun (a : Access) => if 9 ≤ a.own then { a with old := true } else a
  { s with xlat := { s.xlat with epoch := ep }, att := att
           mov := { s.mov with moves := s.mov.moves.map under }
           trn := { s.trn with reqs := s.trn.reqs.map sent }
           home := { s.home with accesses := s.home.accesses.map wrote } }

/-- Requests of a tenant translated under the old epoch that have not ended: of the accelerators, of the move engines, and
those the device issues itself, such as member lists, multicasts and result writes (R78). -/
def oldLeft (s : State) (tenant : Nat) : Bool :=
  s.att.any (fun x => x.2.out.any (fun r => r.old && r.pages.any (fun g => g.key.tenant.toNat == tenant))) ||
  s.mov.moves.any (fun m => m.old && m.tenant.toNat == tenant) ||
  s.trn.reqs.any (fun r => r.old && !r.ended && r.sid.tenant.toNat == tenant) ||
  s.home.accesses.any (fun a => a.old && a.frame.tenant.toNat == tenant)

/-- The slot of a relocated page with its new SPACE, ENDPOINT and PPN (R78). -/
def flippedW1 (w1 : BitVec 64) (new : Nat) : BitVec 64 :=
  let w := w1.toNat
  let keep_ := w % 2 ^ 8 + w / 2 ^ 51 * 2 ^ 51
  BitVec.ofNat 64 (keep_ + spaceOf new * 2 ^ 8 + epOf new * 2 ^ 12 + offOf new / 2 ^ 21 * 2 ^ 28)

/-- The 2 MiB pages of a page's slot: one, or the 512 of a 1 GiB mapping (R78). -/
def slotVpns (w : SlotW) : List Nat :=
  if w.big then (List.range 512).map (fun i => w.vpn / 512 * 512 + i) else [w.vpn]

/-- Rewrite a page's pinned slots in every copy here, from one pair of words to another; answers the
buckets written, for the other Osenos. -/
def rewriteSlot (src to_ : BitVec 64 × BitVec 64) (s : State) : State × List (Nat × Bytes) :=
  let w := slotW src
  let tenant := w.tenant
  match tableCopies s tenant with
  | [] => (s, [])
  | t :: _ =>
    let idx := ((slotVpns w).map (fun v => bucketHash tenant w.f w.sel v t.1)).eraseDups
    idx.foldl (fun (acc : State × List (Nat × Bytes)) i =>
      let old := sysRead acc.1 (t.2 + i * 128) 128
      let put := fun (bs : Bytes) (j : Nat) =>
        let x : SlotW := ⟨leField bs (16 * j) 8, leField bs (16 * j + 8) 8⟩
        if x.w1 == w.w1 && x.overlaps w then bs.take (16 * j + 8) ++ leBytes 8 to_.2.toNat ++ bs.drop (16 * j + 16) else bs
      let new := (List.range 8).foldl put old
      (writeBucket tenant i new acc.1, acc.2 ++ [(i, new)])) (s, [])

/-- PAGE_COPY_DONE: the page's slot is rewritten in every copy (R250). -/
def flipPage (e : Nat) (s : State) : State :=
  match engineMove s e with
  | none => s
  | some m =>
    if m.phase != .copied then s
    else
      let s := flipEpoch s
      let r := rewriteSlot m.slot (m.slot.1, flippedW1 m.slot.2 m.dst) s
      let s := modMove m.id (fun m => { m with phase := .flipping }) r.1
      startChange (4 + e) 0 (tableNodes s) (.mapChange (.buckets m.tenant r.2)) s

/-- A page of a RELOCATE is finished: its new home no longer keeps requests waiting (R250). -/
def pageFinished (m : Move) (s : State) : State :=
  let d := parseMove m.desc
  let s := clearMarks m.src m.dst (memEp s) s
  let s := if onNode s m.dst then s else ctlNodes [epOf m.dst - 0x4800] (.mapChange (.page .settle m.src m.dst m.n)) s
  let s := wakeArriving s
  if d.len ≤ m.pos + m.n then endMove m .done s
  else modMove m.id (fun m => { m with phase := .start, pos := m.pos + m.n, buf := [], data := [], old := false }) s

/-- Every store held for a page under release has been applied, here or, by its confirmation, on the old home's node. -/
def released_ (s : State) (m : Move) : Bool :=
  if onNode s m.src then (heldFor s (movePageOf m)).isEmpty
  else match m.engine.bind (fun e => changeOf s (4 + e)) with | some x => x.nodes.isEmpty | none => true

/-- A confirmation to the device of another node. -/
def confirmTo (node : BitVec 11) (st : Status) (s : State) : State :=
  emit (.ctl node (.mapConfirm (BitVec.ofNat 11 (nodeId s)) st)) s

/-- A confirmation owed for a page is due. -/
def owedDue (s : State) (x : BitVec 11 × Bool × PageMove) : Bool :=
  if x.2.1 then (heldFor s x.2.2).isEmpty else !storesUnder s x.2.2

/-- A held store waits at an old copy to be sent on. -/
def heldLeft (s : State) (x : HeldStore) : Bool := !x.sent && (pageOver s.mov.oldPages x.frame).isSome

/-- Confirmations of another node's drain that have fallen due (R78). -/
def drainDue (s : State) (x : BitVec 11 × BitVec 12) : Bool := !oldLeft s x.2.toNat

/-- Drains whose tenant's old requests have all ended here are confirmed to the devices that run them (R78). -/
def drainsSettle (s : State) : State :=
  let due := s.mov.drains.filter (drainDue s)
  each due (fun x s => confirmTo x.1 .done s)
    { s with mov := { s.mov with drains := s.mov.drains.filter (fun x => !drainDue s x) } }

/-- RELOCATEs whose held stores have all been applied go on, records held at an old copy are sent on, stores enter the hold
buffers where room has freed (R251), frames of a COPY that came early go on where they now can (R256), and
confirmations that have fallen due go to the devices that run the moves or the drains. -/
def movesSettle (s : State) : State :=
  let s := each (s.mov.held.filter (heldLeft s)) (fun x s =>
    match pageOver s.mov.oldPages x.frame with | some p => forwardHeld p x s | none => s) s
  let s := each (s.mov.moves.filter (fun m => m.phase == .releasing)) (fun m s =>
    if released_ s m then pageFinished m s else s) s
  let s := each [hpMem, hpHost] (fun h s => holdFeed s.mov.held.length h s) s
  let due := s.mov.owed.filter (owedDue s)
  let s := { s with mov := { s.mov with owed := s.mov.owed.filter (fun x => !due.contains x) } }
  drainsSettle (wakeMeas (each due (fun x s => confirmTo x.1 .done s) s))

/-- A home on this node refuses a page's move: checks 7 and 8 of R248, at each of its two homes that is here; and while another
move has the page, the second waits (R253). -/
def pageVerdict (s : State) (t old new size skey stag dkey dtag : Nat) : Status :=
  let bars := fun x key => onNode s x &&
    (inWindow s x size || (match goodRegion s (memEp s) key with | some r => r.meas | none => false))
  let under := fun x => underMove s s.mov.holding x size || underMove s s.mov.arriving x size
  if !sideKey s t old size skey stag [.r, .w] || !sideKey s t new size dkey dtag [.w] then .accessDenied
  else if bars old skey || bars new dkey then .accessDenied
  else if under old || under new then .busy
  else .done

/-- A step of a page's move that a device on another node runs, at the homes that are here (R250, R252). -/
def pageStepAt (node : BitVec 11) (st : PageStep) (old new size : Nat) (s : State) : State :=
  let runner := 0x4800 + node.toNat
  let p := oldMark old new size runner
  let owe := fun (b : Bool) (s : State) => { s with mov := { s.mov with owed := s.mov.owed ++ [(node, b, p)] } }
  match st with
  | .start_ t key tag dkey dtag =>
    let v := pageVerdict s t.toNat old new size key.toNat tag.toNat dkey.toNat dtag.toNat
    if v != .done then confirmTo node v s else owe false (markPage old new size runner s)
  | .release =>
    let hs := if onNode s old then heldFor s p else []
    owe true (each hs (forwardHeld p) (endHolding p old runner s))
  | .settle => wakeArriving (clearMarks 0 new runner s)
  | .giveUp => giveUpPage old new size runner { s with mov := { s.mov with owed := s.mov.owed.filter (fun x => !(x.1 == node && x.2.2 == p)) } }

/-- HOLD_RELEASE: the change is confirmed by every copy; held stores go to the new home in order (R250). -/
def releaseHold (e : Nat) (s : State) : State :=
  match engineMove s e with
  | none => s
  | some m =>
    if m.phase != .flipping || (match changeOf s (4 + e) with | some x => !x.nodes.isEmpty | none => false) then s
    else
      let p := movePageOf m
      let s := modMove m.id (fun m => { m with phase := .releasing }) (dropChange (4 + e) s)
      if onNode s m.src then each (heldFor s p) (forwardHeld p) (endHolding p m.src (memEp s) s)
      else startChange (4 + e) 4 [epOf m.src - 0x4800] (.mapChange (.page .release m.src m.dst m.n)) s

/-- RELOCATE_UNDO: the change was not confirmed in time (R252); nor a page's marks by its homes elsewhere. -/
def undoPage (e : Nat) (s : State) : State :=
  match engineMove s e with
  | none => s
  | some m =>
    if match changeOf s (4 + e) with | some x => x.nodes.isEmpty | none => true then s
    else if m.phase == .draining then endMove m .targetUnreachable (dropPage m (dropChange (4 + e) s))
    else if m.phase != .flipping then s
    else
      let r := rewriteSlot (m.slot.1, flippedW1 m.slot.2 m.dst) m.slot s
      let s := ctlNodes (tableNodes s) (.mapChange (.buckets m.tenant r.2)) (dropChange (4 + e) r.1)
      endMove m .targetUnreachable (dropPage m s)

/-- Some request still uses the old mapping of a page. -/
def oldInUse (s : State) (p : PageMove) : Bool :=
  s.att.any (fun x => x.2.out.any (fun r => r.segs.any (fun g => g.ep == memEp s && r.old && meets p g.fpa g.len))) ||
  s.home.accesses.any (fun a => a.frame.dst.toNat == memEp s && meets p a.frame.fpa (spanOf a.frame)) ||
  s.mov.moves.any (fun m => m.old && (meets p m.src m.n && epOf m.src == memEp s || meets p m.dst m.n && epOf m.dst == memEp s))

/-- A page of the host tier is written as zeros by DMA (R252, R404). -/
def zeroHost (off n : Nat) (s : State) : State :=
  match (if dmaOn s then hostAddr s off n else none) with
  | some a => emit (.hostWrite a (List.replicate n 0)) s
  | none => s

/-- OLD_PAGE_RELEASE: the oldest old page is written as zeros (R252). -/
def releaseOld (s : State) : State :=
  match s.mov.oldPages with
  | [] => s
  | p :: rest =>
    if oldInUse s p || !(heldFor s p).isEmpty then s
    else
      let s := { s with mov := { s.mov with oldPages := rest } }
      if p.page / 2 ^ 44 = 3 then zeroHost (p.page % 2 ^ 44) p.size s
      else zeroRange (p.page / 2 ^ 44) (p.page % 2 ^ 44) p.size s

/-! ### Region descriptors (R76, R256) -/

/-- Every cached copy of a descriptor goes (R76). -/
def rgnDrop (ep i : Nat) (s : State) : State :=
  let cut := fun (t : Table (List (Nat × Nat × Nat))) c =>
    tput [] t c ((tget [] t c).filter (fun e => !(e.1 == ep && e.2.1 == i)))
  { s with xlat := { s.xlat with rgnCache := (List.range 10).foldl cut s.xlat.rgnCache } }

/-- Write a descriptor into this device's copy; a measured region's pointer and digest start afresh. DEDUCED (log 23): the
epoch flips here too, since XLT_DRAIN waits for what was translated before the latest RGN_WRITE as well (R78). -/
def writeRegion (ep i : Nat) (bs : Bytes) (s : State) : State :=
  let s := rgnDrop ep i s
  let s := flipEpoch s
  match regionAt s ep i with
  | none => s
  | some x =>
    let s := sysWrite x bs s
    if ep ≠ memEp s then s
    else
      let rest := s.mov.measured.filter (fun m => !(m.keyidx.toNat == i))
      let d := parseRegion bs
      match (List.range 64).find? (fun n => !rest.any (fun m => m.num == n)) with
      | some n =>
        let m : Measured := { num := n, keyidx := BitVec.ofNat 16 i, space := BitVec.ofNat 4 d.space, base := d.base
                              length := d.len, tenant := BitVec.ofNat 12 d.tenant }
        { s with mov := { s.mov with measured := if d.v && d.meas then rest ++ [m] else rest } }
      | none => { s with mov := { s.mov with measured := rest } }

end Sys2Proof.Machine
end

