-- ==== Sys2Proof/Machine/Array.lean ====
section
/-!
DEFINITION. The reduction array and the Cellar: collective descriptors and their arithmetic validity
(R178 to R182, R211, R222), chunk sizes and planes, transform programs (R224 to R227), Cellar sets and
banks (R231, R232), landing stores (R205, R206) and the values a leaf and a root form (R209 to R223).
-/

namespace Sys2Proof.Machine
open Sys2Proof

/-! ### Descriptors -/

/-- A collective descriptor (R178). -/
structure Desc where
  op      : Nat
  inTy    : Nat
  outTy   : Nat
  redOp   : Nat
  handle  : Nat
  count   : Nat
  root    : Nat
  members : Nat
  planes  : Nat
  program : Nat
  seq     : Nat
  flags   : Nat
  partTy  : Nat
  win64k  : Nat
  dimX    : Nat
  dimY    : Nat
  dimZ    : Nat
  shift   : Nat
  rsv35   : Nat
  step    : Nat
  fva     : Nat
  keyidx  : Nat
  keytag  : Nat
  target  : Nat
  weight  : Nat
  rsv60   : Nat
  deriving DecidableEq, Repr

/-- Read a descriptor's bytes. -/
def parseDesc (b : Bytes) : Desc :=
  { op := beField b 0 1, inTy := beField b 1 1, outTy := beField b 2 1, redOp := beField b 3 1
    handle := beField b 4 4, count := beField b 8 6, root := beField b 14 2, members := beField b 16 2
    planes := beField b 18 1, program := beField b 19 1, seq := beField b 20 4, flags := beField b 24 1
    partTy := beField b 25 1, win64k := beField b 26 2, dimX := beField b 28 2, dimY := beField b 30 2
    dimZ := beField b 32 2, shift := beField b 34 1, rsv35 := beField b 35 1, step := beField b 36 4
    fva := beField b 40 8, keyidx := beField b 48 2, keytag := beField b 50 4, target := beField b 54 2
    weight := beField b 56 4, rsv60 := beField b 60 4 }

/-- The descriptor digest: the leftmost 64 bits of the SHA-384 of bytes 0 to 39 (R179). -/
def descDigest (b : Bytes) : BitVec 64 := BitVec.ofNat 64 (beNat ((sha384 (b.take 40)).take 8))

def Desc.arrival (d : Desc) : Bool := d.flags.testBit 0
def Desc.round (d : Desc) : Nat := bitsOf d.flags 1 3
/-- REDUCE, REDUCE_SCATTER and ALL_REDUCE. -/
def Desc.reduces (d : Desc) : Bool := decide (4 ≤ d.op ∧ d.op ≤ 6)
/-- A sub-type of R180 that a context serves. -/
def Desc.opOk (d : Desc) : Bool := decide (1 ≤ d.op ∧ d.op ≤ 7)
def Desc.bitwise (d : Desc) : Bool := decide (6 ≤ d.redOp ∧ d.redOp ≤ 8)
def Desc.int (d : Desc) : Bool := d.inTy == 5
def Desc.rows (d : Desc) : Bool := d.redOp == 3

/-- E: elements per chunk (R182, R222). -/
def Desc.elems (d : Desc) : Nat :=
  if d.rows then
    (if d.inTy = 0 then 96 else if d.inTy = 1 ∨ d.inTy = 2 then 224 else if d.inTy = 3 ∨ d.inTy = 4 then 480
     else if d.inTy = 0x10 ∨ d.inTy = 0x11 ∨ d.inTy = 0x15 then 448
     else if d.inTy = 0x12 ∨ d.inTy = 0x13 then 608 else 896)
  else
    (if d.inTy = 0 ∨ d.inTy = 5 then 128 else if d.inTy = 1 ∨ d.inTy = 2 then 256
     else if d.inTy = 3 ∨ d.inTy = 4 then 512
     else if d.inTy = 0x10 ∨ d.inTy = 0x11 ∨ d.inTy = 0x15 then 480
     else if d.inTy = 0x12 ∨ d.inTy = 0x13 then 640 else 960)

/-- Chunks per member: ceil(COUNT ÷ E) (R181). -/
def Desc.chunks (d : Desc) : Nat := ceilDiv d.count d.elems

/-- Elements of chunk `k`: E, or fewer in the last. -/
def Desc.elemsOf (d : Desc) (k : Nat) : Nat := Nat.min d.elems (d.count - k * d.elems)

/-- The planes set in PLANES, rising. -/
def Desc.planeList (d : Desc) : List Nat := bitsSet 8 d.planes

/-- The plane chunk `k` travels on (R177). -/
def Desc.planeOf (d : Desc) (k : Nat) : Nat := d.planeList.getD (k % Nat.max 1 d.planeList.length) 0

/-- The number of chunk `k` among the chunks of its plane. -/
def Desc.onPlane (d : Desc) (k : Nat) : Nat := k / Nat.max 1 d.planeList.length

/-- How many of the chunks from `a` to below `b` travel on a plane. -/
def Desc.planeChunks (d : Desc) (plane a b : Nat) : Nat :=
  let n := Nat.max 1 d.planeList.length
  let i := d.planeList.findIdx (fun p => p == plane)
  let upto := fun x => (x + n - 1 - i) / n
  if d.planeList.contains plane then upto b - upto a else 0

/-- Bytes of an element run in the type of partials: INT32, raw input words, or PART_TYPE (R211). -/
def Desc.partBytes (d : Desc) (n : Nat) : Nat :=
  if d.int then 4 * n else if d.bitwise then n * elemBytes d.inTy else tyBytes d.partTy n

/-- Bytes of a window slot (R191). -/
def Desc.slotBytes (d : Desc) : Nat :=
  let full := if d.reduces then d.partBytes d.elems else tyBytes d.inTy d.elems
  Nat.max 512 (ceilDiv full 512 * 512)

/-- S: slots of the window (R191). -/
def Desc.window (d : Desc) : Nat := d.win64k * 65536 / d.slotBytes

/-- The owner range of member `i` in REDUCE_SCATTER (R194). -/
def Desc.ownRange (d : Desc) (i : Nat) : Nat × Nat :=
  (i * d.chunks / Nat.max 1 d.members, (i + 1) * d.chunks / Nat.max 1 d.members)

/-- The combinations of R211. -/
def Desc.combo (d : Desc) : Bool :=
  let fm := fun t => isFloatTy t || isMxTy t
  let floats := fm d.inTy && fm d.outTy && decide (d.partTy ≤ 2) && decide (d.round ≤ 2)
  let ints := d.int && d.outTy == 5 && d.partTy == 0 && d.program == 0 && d.round == 0
  if d.redOp = 1 then floats || ints
  else if d.redOp = 2 ∨ d.redOp = 3 then floats
  else if d.redOp = 4 ∨ d.redOp = 5 then (floats && d.program == 0) || ints
  else if d.bitwise then decide (d.inTy ≤ 5) && d.outTy == d.inTy && d.partTy == 0 && d.program == 0 && d.round == 0
  else false

/-- A descriptor is arithmetically valid, the condition on PROJECT aside (R211). -/
def Desc.arithOk (d : Desc) : Bool :=
  (if d.reduces then d.combo
   else d.redOp == 0 && d.program == 0 && d.partTy == 0 && isTy d.inTy && d.outTy == d.inTy && decide (d.round ≤ 2)) &&
  (!(isMxTy d.inTy || isMxTy d.outTy) || d.count % 32 == 0)

/-- The other fields hold values R178 allows; DIM belongs to SHIFT, TARGET to PERMUTE, ROOT to its sub-types. -/
def Desc.fieldsOk (d : Desc) : Bool :=
  d.opOk && decide (1 ≤ d.count) && decide (1 ≤ d.members ∧ d.members ≤ 18432) && d.planes != 0 &&
  bitsOf d.flags 4 4 == 0 && decide (1 ≤ d.win64k ∧ d.win64k ≤ 256) && d.rsv35 == 0 && d.rsv60 == 0 &&
  bitsOf d.shift 3 5 == 0 && (d.op == 1 && bitsOf d.shift 0 2 != 3 || d.op != 1 && d.shift == 0) &&
  (d.op == 1 || d.dimX == 0 && d.dimY == 0 && d.dimZ == 0) &&
  (if d.op = 2 then decide (d.target < d.members) else d.target == 0) &&
  (if d.op = 3 ∨ d.op = 4 then decide (d.root < d.members)
   else if d.op = 7 then d.root == 0xFFFF || decide (d.root < d.members) else d.root == 0) &&
  (d.op != 7 || d.planeList.length == 1)

/-- SHIFT's geometry: DIM_X × DIM_Y × DIM_Z = MEMBERS (R187). -/
def Desc.shiftOk (d : Desc) : Bool := d.op != 1 || d.dimX * d.dimY * d.dimZ == d.members

/-- The neighbour of member `i` (R193); `back` goes the other way. -/
def Desc.neighbour (d : Desc) (i : Nat) (back : Bool) : Nat :=
  let x := i % d.dimX
  let y := i / d.dimX % d.dimY
  let z := i / (d.dimX * d.dimY)
  let up := fun (v n : Nat) => if d.shift.testBit 2 != back then (v + n - 1) % Nat.max 1 n else (v + 1) % Nat.max 1 n
  let k := bitsOf d.shift 0 2
  let x := if k = 0 then up x d.dimX else x
  let y := if k = 1 then up y d.dimY else y
  let z := if k = 2 then up z d.dimZ else z
  x + d.dimX * (y + d.dimY * z)

/-! ### Programs (R224 to R227) -/

/-- The step rules of R224 over one step. -/
def stepOk (mats : Nat) (n i : Nat) (op mat a b : Nat) : Bool :=
  let zero := mat == 0 && a == 0 && b == 0
  let w := fun (x : Nat) => BitVec.ofNat 32 x
  if op = 1 then i == 0 && zero
  else if op = 2 then zero
  else if op = 3 then mat == 0
  else if op = 4 then mat == 0 && !isNan32 (w a) && !isNan32 (w b) &&
    (decide (key32 (w a) ≤ key32 (w b)) || (a % 2 ^ 31 == 0 && b % 2 ^ 31 == 0))
  else if op = 5 then i + 1 == n && zero
  else if op = 6 then decide (mat < mats) && a == 0 && b == 0
  else false

/-- Check 1 of R226: MAGIC, FORMAT, reserved fields, length and the step rules. -/
def progFormat (b : Bytes) : Bool :=
  let n := beField b 5 1
  let mats := beField b 6 1
  let stepAt := fun i o w => beField b (64 + 16 * i + o) w
  beField b 0 4 == 0x58465052 && beField b 4 1 == 1 && decide (1 ≤ n ∧ n ≤ 16) && decide (mats ≤ 4) &&
  beField b 7 1 == 0 && bitsOf (beField b 8 2) 12 4 == 0 && allZero ((b.drop 10).take 54) &&
  b.length == 64 + 16 * n + 4096 * mats &&
  (List.range n).all (fun i => stepAt i 2 2 == 0 && stepAt i 12 4 == 0 &&
    stepOk mats n i (stepAt i 0 1) (stepAt i 1 1) (stepAt i 4 4) (stepAt i 8 4)) &&
  ((List.range n).filter (fun i => stepAt i 0 1 == 2)).length == 1

/-- The program an image gives. -/
def parseProg (b : Bytes) (set : Option Nat) : Program :=
  let n := beField b 5 1
  let mats := beField b 6 1
  { tenant := BitVec.ofNat 12 (beField b 8 2)
    steps := (List.range n).map (fun i => (beField b (64 + 16 * i) 1, beField b (65 + 16 * i) 1,
      BitVec.ofNat 32 (beField b (68 + 16 * i) 4), BitVec.ofNat 32 (beField b (72 + 16 * i) 4)))
    matrices := (List.range mats).map (fun m => unpack 0 (slice b (64 + 16 * n + 4096 * m) 4096))
    celSet := set, digest := sha384 b }

def progOf (s : State) (i : Nat) : Option Program := tget none s.arr.programs i

/-- The program of a descriptor is loaded here for the tenant, or none is named (R227). -/
def progLoaded (s : State) (tenant : BitVec 12) (i : Nat) : Bool :=
  i == 0 || (match progOf s i with | some p => p.tenant == tenant | none => false)

/-- The steps before and after WSUM (R224). -/
def preSteps (p : Program) : List (Nat × Nat × BitVec 32 × BitVec 32) := p.steps.takeWhile (fun x => x.1 != 2)
def postSteps (p : Program) : List (Nat × Nat × BitVec 32 × BitVec 32) := (p.steps.dropWhile (fun x => x.1 != 2)).drop 1
def hasProject (p : Program) : Bool := p.steps.any (fun x => x.1 == 6)

/-- The instance that runs on a context's handle here names program `i`. -/
def runsProg (s : State) (x : Ctx) (i : Nat) : Bool :=
  s.coll.ctxs.any (fun y => y.2.state == .active && y.2.tenant == x.tenant && y.2.handle == x.handle && !y.2.ref.isEmpty &&
    beField y.2.ref 19 1 == i)

/-- Contexts not FREE that name a program, as they were opened or by the instance they run; none names entry 0, which is empty
(RDA_PROG_REFS, R226, R235). -/
def progRefs (s : State) (i : Nat) : Nat :=
  if i = 0 then 0 else (s.coll.ctxs.filter (fun x => x.2.state != .free && (beField x.2.descr 19 1 == i || runsProg s x.2 i))).length

/-! ### The Cellar (R231, R232) -/

/-- Banks of a set in service. -/
def banksOf (s : State) (set : Nat) : List Nat :=
  ((List.range 4).map (fun i => 4 * set + i)).filter (fun b => !s.arr.bankOut.contains b)

/-- 64 KiB units of a set in use by windows and program matrices. -/
def celUsed (s : State) (set : Nat) : Nat :=
  ((s.coll.ctxs.filter (fun x => x.2.state != .free && x.2.celSet == some set)).map (fun x => x.2.win64k)).sum +
  (s.arr.programs.filter (fun x => match x.2 with | some p => p.celSet == some set | none => false)).length

/-- Free 64 KiB units of a set: 64 per bank in service. -/
def celFree (s : State) (set : Nat) : Nat := 64 * (banksOf s set).length - celUsed s set

/-- The set a tenant's windows lie in: its own in isolated tenancy, else the one with the most free space,
the lowest of equals (R201, R231). -/
def celSetFor (s : State) (tenant : Nat) : Option Nat :=
  if s.ten.shared then
    (List.range 16).foldl (fun m c => match m with
      | none => some c
      | some b => if celFree s b < celFree s c then some c else some b) none
  else (List.range 16).find? (fun c => let o := celBase + 0x100 + c * 4; bitAt s o 0 && fieldOf s o 4 12 == tenant)

/-- The bank a context's slot `c` lies in: the (c mod b)-th bank in service of its set. -/
def bankOf (s : State) (set c : Nat) : Option Nat :=
  let bs := banksOf s set
  if bs.isEmpty then none else bs[c % bs.length]?

/-- A corrected or uncorrectable word is found in a bank: the counts, and at 16 uncorrectable errors the
bank goes offline with its notice (R232, R394). The contexts with a slot there abort above this file. -/
def celError (bank : Nat) (ecc : Ecc) (s : State) : State :=
  match ecc with
  | .clean => s
  | .corrected => bump (cntCelCeCnt bank) s
  | .uncorrectable =>
    let n := tget 0 s.arr.bankUe bank + 1
    let s := raiseCel evCelUe bank (bump (cntCelUeCnt bank)
      { s with arr := { s.arr with bankUe := tput 0 s.arr.bankUe bank n } })
    if 16 ≤ n ∧ !s.arr.bankOut.contains bank then
      notice .channelOut Status.dataError.code noEp (1024 + bank)
        (raiseCel evCelBankOffline bank { s with arr := { s.arr with bankOut := insertNat bank s.arr.bankOut } })
    else s

/-! ### Groups and landing stores (R205, R206) -/

/-- The groups a tenant's chunks may use (R205). -/
def groupsOf (s : State) (tenant : Nat) : List Nat :=
  if s.ten.shared then List.range 32
  else (List.range 32).filter (fun g => let o := rdaBase + 0x100 + g * 4; bitAt s o 0 && fieldOf s o 4 12 == tenant)

/-- The group that evaluates chunk `c` of a tenant's context: G[c mod |G|]. -/
def groupFor (s : State) (tenant c : Nat) : Nat :=
  let g := groupsOf s tenant
  g.getD (c % Nat.max 1 g.length) 0

/-- Bytes of a group's landing store granted to chunk sets. -/
def landUsed (s : State) (g : Nat) : Nat :=
  ((s.arr.landing.filter (fun x => x.group == g && x.granted)).map (·.bytes)).sum

def landOf (s : State) (ctx chunk : Nat) : Option Landing :=
  s.arr.landing.find? (fun x => x.ctx == ctx && x.chunk == chunk)

/-- RDA_LAND_n.PEAK_KIB follows the use (R235). -/
def landPeakNote (g : Nat) (s : State) : State :=
  let k := ceilDiv (landUsed s g) 1024
  if tget 0 s.arr.landPeak g < k then { s with arr := { s.arr with landPeak := tput 0 s.arr.landPeak g k } } else s

/-- Ask a landing store for room; requests are granted in arrival order (R206). -/
def landAsk (g ctx chunk bytes : Nat) (s : State) : State :=
  let waiting := s.arr.landing.any (fun x => x.group == g && !x.granted)
  let ok := !waiting && decide (landUsed s g + bytes ≤ 524288)
  landPeakNote g { s with arr := { s.arr with landing := s.arr.landing ++
    [{ group := g, ctx := ctx, chunk := chunk, bytes := bytes, granted := ok }] } }

/-- Grant waiting reservations of a group in their order while they fit (R206). -/
def landGrant (g : Nat) (s : State) : State :=
  landPeakNote g ((List.range s.arr.landing.length).foldl (fun s _ =>
    match s.arr.landing.find? (fun x => x.group == g && !x.granted) with
    | some w =>
      if landUsed s g + w.bytes ≤ 524288 then
        { s with arr := { s.arr with landing := modFirst (fun x => x == w) (fun x => { x with granted := true }) s.arr.landing } }
      else s
    | none => s) s)

/-- Room of a chunk set, or under ORDER 1 of its landed contributions, frees. -/
def landDrop (ctx chunk : Nat) (s : State) : State :=
  { s with arr := { s.arr with landing := s.arr.landing.filter (fun x => !(x.ctx == ctx && x.chunk == chunk && x.granted)) } }

/-- Everything of a context leaves the landing stores. -/
def landClear (ctx : Nat) (s : State) : State :=
  { s with arr := { s.arr with landing := s.arr.landing.filter (fun x => !(x.ctx == ctx)) } }

/-! ### Values -/

/-- Rounding mode of element `x` of an instance (R217, R218). -/
def roundMode (d : Desc) (plane lo point x : Nat) : RMode :=
  if d.round = 1 then .rtz else if d.round = 2 then .stoch (srBits d.handle d.seq plane lo point x) else .rne

/-- A WSUM_ROW chunk is a ZERO row (R223). -/
def zeroRow (d : Desc) (bs : Bytes) : Bool := d.rows && bitOf (beField bs 4 1) 0

/-- Row headers must have their reserved bits 0 (R222, R223). -/
def rowOk (bs : Bytes) : Bool := decide (32 ≤ bs.length) && beField bs 4 1 ≤ 1 && allZero ((bs.drop 5).take 27)

/-- LEN of data chunk `k` (R182, R222, R223). -/
def chunkLenOk (d : Desc) (k : Nat) (bs : Bytes) : Bool :=
  let n := tyBytes d.inTy (d.elemsOf k)
  if d.rows then rowOk bs && bs.length == (if zeroRow d bs then 32 else 32 + n) else bs.length == n

/-- The weight of a contribution: WEIGHT of its descriptor, or of its row (R221, R222). -/
def weightOf (d : Desc) (bs : Bytes) : BitVec 32 :=
  if d.redOp = 2 then BitVec.ofNat 32 d.weight else BitVec.ofNat 32 (leField bs 0 4)

/-- The values one contribution brings into the combination (R209, R210, R221 to R224): `d` is its member's
descriptor. -/
def contribution (prog : Option Program) (d : Desc) (n : Nat) (bs : Bytes) : List (BitVec 32) :=
  if zeroRow d bs then List.replicate n negZero
  else
    let body := if d.rows then bs.drop 32 else bs
    if d.bitwise then unpackRaw d.inTy body
    else
      let vs := unpack d.inTy body
      let vs := match prog with
        | some p => (preSteps p).foldl (fun v st => progStep p.matrices st v) vs
        | none => vs
      if d.redOp = 2 ∨ d.redOp = 3 then vs.map (mul32 (weightOf d bs)) else vs

/-- The operation that combines two values (R210, R213). -/
def Desc.comb (d : Desc) : BitVec 32 → BitVec 32 → BitVec 32 :=
  Sys2Proof.Machine.redOp d.redOp d.int

/-- A node's output in the type its parent takes (R214, R217). -/
def packPart (d : Desc) (plane lo k : Nat) (vs : List (BitVec 32)) : Packed :=
  if d.int then { bytes := packRaw 5 vs }
  else if d.bitwise then { bytes := packRaw d.inTy vs }
  else packTy d.partTy (fun j => roundMode d plane lo 0 (k * d.elems + j)) vs

/-- A partial as FP32, INT32 or raw words (R214). -/
def unpackPart (d : Desc) (bs : Bytes) : List (BitVec 32) :=
  if d.int then unpackRaw 5 bs else if d.bitwise then unpackRaw d.inTy bs else unpack d.partTy bs

/-- The result of a root: the steps after WSUM and the conversion to OUT_TYPE (R214, R217, R224). -/
def packResult (prog : Option Program) (d : Desc) (plane lo k : Nat) (vs : List (BitVec 32)) : Packed :=
  if d.int then { bytes := packRaw 5 vs }
  else if d.bitwise then { bytes := packRaw d.inTy vs }
  else
    let vs := match prog with
      | some p => (postSteps p).foldl (fun v st => progStep p.matrices st v) vs
      | none => vs
    packTy d.outTy (fun j => roundMode d plane lo 1 (k * d.elems + j)) vs

/-- Count in units of 2^20, keeping the remainder (R235). -/
def countUnits (n : Nat) (cnt : Cnt) (old : Nat) (s : State) : State × Nat :=
  (bumpBy cnt ((old + n) / 1048576) s, (old + n) % 1048576)

/-- Element-inputs consumed (R228). -/
def countInputs (n : Nat) (s : State) : State :=
  let r := countUnits n cntRdaInputCnt s.arr.inputs s
  { r.1 with arr := { r.1.arr with inputs := r.2 } }

/-- PROJECT output elements (R228, R235). -/
def countProj (n : Nat) (s : State) : State :=
  let r := countUnits n cntRdaProjCnt s.arr.projs s
  { r.1 with arr := { r.1.arr with projs := r.2 } }

/-- Saturated values and NaN result elements (R219, R220). -/
def countPacked (p : Packed) (nans : Bool) (s : State) : State :=
  let s := bumpBy cntRdaSatCnt p.sats s
  if nans then bumpBy cntRdaNanCnt p.nans s else s

/-- PROJECT steps of a list. -/
def projCount (steps : List (Nat × Nat × BitVec 32 × BitVec 32)) : Nat := (steps.filter (fun x => x.1 == 6)).length

/-! ### Mailbox commands (R226) -/

/-- Programs a tenant has loaded. -/
def progsOf (s : State) (tenant : Nat) : Nat :=
  (s.arr.programs.filter (fun x => match x.2 with | some p => p.tenant.toNat == tenant | none => false)).length

/-- RDA_PROG_LOAD on its input: index, three reserved bytes, image (R226, R416). -/
def progLoad (c : Nat) (inp : Bytes) (s : State) : State :=
  let i := beField inp 0 1
  let img := inp.drop 4
  let ten := bitsOf (beField img 8 2) 0 12
  let mats := beField img 6 1
  let set := celSetFor s ten
  if i = 0 ∨ !allZero ((inp.drop 1).take 3) ∨ !progFormat img then mbxEnd c .malformed [] s
  else if (slotOfTenant s ten).isNone then mbxEnd c .accessDenied [] s
  else if (progOf s i).isSome ∨ (!s.ten.shared ∧ 255 / Nat.max 1 (admittedN s) ≤ progsOf s ten) then mbxEnd c .busy [] s
  else if 0 < mats ∧ !(match set with | some x => decide (0 < celFree s x) | none => false) then mbxEnd c .noContext [] s
  else
    let p := parseProg img (if 0 < mats then set else none)
    mbxEnd c .done [] { s with arr := { s.arr with programs := tput none s.arr.programs i (some p) } }

/-- RDA_PROG_UNLOAD (R226). -/
def progUnload (c : Nat) (inp : Bytes) (s : State) : State :=
  let i := beField inp 0 1
  if i = 0 then mbxEnd c .malformed [] s
  else if 0 < progRefs s i then mbxEnd c .busy [] s
  else mbxEnd c .done [] { s with arr := { s.arr with programs := tput none s.arr.programs i none } }

end Sys2Proof.Machine
end

