-- ==== Sys2Proof/Machine/Coll.lean ====
section
/-!
DEFINITION. Collectives: trees and contexts (R184 to R189, R201), descriptors and agreement (R187, R212),
chunks against credits (R183, R191), combining at leaf and internal nodes (R213 to R215), results and
moved data (R193 to R197), completion and aborts (R187, R198, R199).
-/

namespace Sys2Proof.Machine
open Sys2Proof

/-! ### Contexts of a handle -/

/-- The contexts of a tenant's handle on this device, in number order. -/
def ctxsOf (s : State) (tenant : BitVec 12) (handle : Nat) : List (Nat × Ctx) :=
  s.coll.ctxs.filter (fun x => x.2.state != .free && x.2.tenant == tenant && x.2.handle.toNat == handle)

/-- The node combines local members. -/
def Ctx.isLeaf (x : Ctx) : Bool := x.role == .leaf || x.role == .leafRoot
def Ctx.isRoot (x : Ctx) : Bool := x.role == .root || x.role == .leafRoot

/-- The leaf context of a handle. -/
def leafOf (s : State) (tenant : BitVec 12) (handle : Nat) : Option (Nat × Ctx) :=
  (ctxsOf s tenant handle).find? (fun x => x.2.isLeaf)

/-- The reference descriptor of a context: its own, or that of the leaf of its handle on this device, which
every internal node shares its device with (R184). -/
def refBytes (s : State) (x : Ctx) : Bytes :=
  if !x.ref.isEmpty then x.ref
  else match leafOf s x.tenant x.handle.toNat with | some l => l.2.ref | none => []

def refOf (s : State) (x : Ctx) : Desc := parseDesc (refBytes s x)

/-- S of a context's window (R191). -/
def winOf (s : State) (x : Ctx) : Nat := (refOf s x).window

/-- Chunks of an instance on this device's plane. -/
def planeN (s : State) (x : Ctx) : Nat := (refOf s x).planeChunks x.plane.toNat 0 (refOf s x).chunks

/-- The member index of a local port of a context. -/
def Ctx.memberAt (x : Ctx) (p : Nat) : Option MemberSt := x.members.find? (fun m => m.port == p)
def Ctx.member (x : Ctx) (i : Nat) : Option MemberSt := x.members.find? (fun m => m.index == i)

def modMember (c i : Nat) (f : MemberSt → MemberSt) (s : State) : State :=
  modCtx c (fun x => { x with members := modFirst (fun m => m.index == i) f x.members }) s

/-- A context's instance is cleared; what it was opened with stays (R187, R233). -/
def Ctx.fresh (x : Ctx) : Ctx :=
  { x with members := x.members.map (fun m => { port := m.port, index := m.index })
           kids := x.kids.map (fun k => { k with agreed := false }), ref := [], digest := none, agreed := false
           doneDown := false, late := false, freed := 0, limit := 0, outs := 0, slots := [], status := .done, waitData := []
           due := [], seen := [], grants := [], given := [], parts := [], pieces := [], kept := []
           steps := x.steps.filter (fun t => !(t.1 == x.seq.toNat)) }

/-- The context goes back to IDLE. -/
def toIdle (c : Nat) (s : State) : State :=
  takeHanded atInstance <| landClear c (modCtx c (fun x => { x.fresh with state := .idle }) s)

/-- A context is granted L by its parent, or towards a receiver of its moved chunks (R191, R193). -/
def Ctx.credited (x : Ctx) (lo l : Nat) : Ctx :=
  if (parseDesc x.descr).reduces then { x with limit := Nat.max x.limit l }
  else { x with grants := (x.grants.filter (fun g => !(g.1 == lo))) ++ [(lo, l)] }

/-- Grants of a starting instance that came before it take effect; those of earlier ones are void (R192). -/
def Ctx.takeEarly (x : Ctx) (seq : BitVec 32) : Ctx :=
  (x.early.filter (fun e => e.2.2 == seq)).foldl (fun x e => x.credited e.1 e.2.1)
    { x with early := x.early.filter (fun e => decide (0 < psnDiff e.2.2 seq)) }

/-- The context starts an instance (R187). -/
def startInst (c : Nat) (seq : BitVec 32) (s : State) : State :=
  takeHanded atInstance <| modCtx c (fun x => ({ x with
    state := .active, ran := true, seq := seq, aborts := x.aborts.filter (fun a => decide (0 < psnDiff a.1 seq)) } : Ctx).takeEarly seq) s

/-! ### Trees (R184, R188, R189) -/

/-- A node of a tree over racks a to b. -/
structure TNode where
  a      : Nat
  b      : Nat
  kids   : List (Nat × Nat)
  parent : Option (Nat × Nat)
  deriving DecidableEq, Repr

/-- node(a, b) of R184, children before their parent. -/
def treeNodes : Nat → Nat → Nat → Option (Nat × Nat) → List TNode
  | 0, a, b, par => [⟨a, b, [], par⟩]
  | fuel + 1, a, b, par =>
    if b ≤ a then [⟨a, b, [], par⟩]
    else
      let m := a + ceilDiv (b - a + 1) 2
      treeNodes fuel a (m - 1) (some (a, b)) ++ treeNodes fuel m b (some (a, b)) ++ [⟨a, b, [(a, m - 1), (m, b)], par⟩]

/-- The racks of a member list, ascending (R184). -/
def racksOf (ids : List (BitVec 16)) : List Nat := (ids.map (fun e => e.toNat / 72)).eraseDups

/-- Every node of a collective: the tree of R184 for a reduction; otherwise one leaf per rack under the
lowest rack's. -/
def nodesOf (d : Desc) (ids : List (BitVec 16)) : List TNode :=
  let n := (racksOf ids).length
  if d.reduces then treeNodes 16 0 (n - 1) none
  else (List.range n).map (fun i =>
    ⟨i, i, if i = 0 then (List.range (n - 1)).map (fun j => (j + 1, j + 1)) else [], if i = 0 then none else some (0, 0)⟩)

/-- The member indexes of racks a to b: first and last. -/
def rangeOf (ids : List (BitVec 16)) (a b : Nat) : Nat × Nat :=
  let rs := racksOf ids
  let ra := rs.getD a 0
  let rb := rs.getD b 0
  (ids.findIdx (fun e => decide (ra ≤ e.toNat / 72)), (ids.filter (fun e => decide (e.toNat / 72 ≤ rb))).length - 1)

/-- The node ID of the device of rack number `a` of the list, on this plane. -/
def nodeOfRack (s : State) (ids : List (BitVec 16)) (a : Nat) : Nat := (racksOf ids).getD a 0 * 8 + s.fab.plane.toNat

/-- Nodes of a collective that this device hosts. -/
def hosted (s : State) (d : Desc) (ids : List (BitVec 16)) : List TNode :=
  (nodesOf d ids).filter (fun t => nodeOfRack s ids t.a == nodeId s)

/-- The node IDs of the devices that host a collective, this one left out. -/
def otherHosts (s : State) (ids : List (BitVec 16)) : List Nat :=
  ((racksOf ids).map (fun r => r * 8 + s.fab.plane.toNat)).filter (fun n => n != nodeId s)

/-- The context of a node as it is taken. -/
def mkCtx (s : State) (tenant : BitVec 12) (alm : Option (BitVec 32)) (descr : Bytes) (ids : List (BitVec 16))
    (set : Option Nat) (t : TNode) : Ctx :=
  let d := parseDesc descr
  let rg := rangeOf ids t.a t.b
  let leaf := t.a == t.b
  let local_ := if leaf then
      ((ids.zipIdx).filter (fun e => e.1.toNat / 72 == s.fab.rack.toNat)).map
        (fun e => ({ port := e.1.toNat % 72, index := e.2 } : MemberSt)) else []
  { state := .idle, tenant := tenant, plane := s.fab.plane
    role := (match leaf, t.parent with | true, none => .leafRoot | true, some _ => .leaf | false, none => .root | false, some _ => .internal)
    alm := alm, handle := BitVec.ofNat 32 d.handle, win64k := d.win64k, celSet := set, members := local_
    kids := t.kids.map (fun k => let r := rangeOf ids k.1 k.2; { node := nodeOfRack s ids k.1, lo := r.1, hi := r.2 })
    parent := t.parent.map (fun p => nodeOfRack s ids p.1), lo := rg.1, hi := rg.2, ids := ids, descr := descr }

/-- Contexts in use, of a tenant or of all. -/
def ctxUsed (s : State) (tenant : Option (BitVec 12)) : Nat :=
  (s.coll.ctxs.filter (fun x => x.2.state != .free &&
    (match tenant with | some t => x.2.tenant == t | none => true))).length

/-- COL_TEN_n.QUOTA of a tenant (R201). -/
def ctxQuota (s : State) (tenant : Nat) : Nat :=
  match (List.range 64).find? (fun n => let o := colBase + 0x100 + n * 4; bitAt s o 0 && fieldOf s o 4 12 == tenant) with
  | some n => fieldOf s (colBase + 0x100 + n * 4) 16 13
  | none => 0

/-- Why a reservation fails: contexts, or Cellar and buffer room (R188, R189). -/
inductive NoRoom where
  | contexts | room
  deriving DecidableEq, Repr

/-- Take contexts and windows for nodes one by one. -/
def takeNodes (tenant : BitVec 12) (alm : Option (BitVec 32)) (descr : Bytes) (ids : List (BitVec 16)) :
    List TNode → State → Except NoRoom State
  | [], s => .ok s
  | t :: ts, s =>
    let d := parseDesc descr
    let full := decide (4096 ≤ ctxUsed s none) || (!s.ten.shared && decide (ctxQuota s tenant.toNat ≤ ctxUsed s (some tenant)))
    if full then .error .contexts
    else
      let free := (List.range 4096).find? (fun c => (ctxOf s c).state == .free)
      let set := if d.reduces then celSetFor s tenant.toNat else none
      let fits := if d.reduces then (match set with | some x => decide (d.win64k ≤ celFree s x) | none => false)
        else hasRoom s tenant.toNat (d.win64k * 256)
      match free with
      | none => .error .contexts
      | some c => if fits then takeNodes tenant alm descr ids ts (setCtx c (mkCtx s tenant alm descr ids set t) s) else .error .room

/-- The engine that serves a collective is in service: COL_CTRL.EN, and for a reduction RDA_CTRL.EN and CEL_CTRL.EN. DESIGN
CHOICE, unsafe (log 99): one out of service has no context to give. -/
def collOn (s : State) (d : Desc) : Bool :=
  bitAt s colBase 0 && (!d.reduces || (bitAt s rdaBase 0 && bitAt s celBase 0))

/-- Reserve every node of a collective this device hosts, or none (R188, R189). -/
def collReserve (tenant : BitVec 12) (alm : Option (BitVec 32)) (descr : Bytes) (ids : List (BitVec 16)) (s : State) :
    Except NoRoom State :=
  if !collOn s (parseDesc descr) then .error .contexts
  else takeNodes tenant alm descr ids (hosted s (parseDesc descr) ids) s

/-- A reservation failed: the event and its counter (R190, R204). -/
def noteNoRoom (e : NoRoom) (s : State) : State :=
  raiseCol evColOpenFail 0 (bump (match e with | .contexts => cntColNoctxCnt | .room => cntColNocellarCnt) s)

/-! ### Frames between nodes and to members (R193, R202) -/

/-- Frames that carry `bs` in pieces of at most 512 bytes (R129). -/
def collFrames (s : State) (x : Ctx) (op : Nat) (opc : BitVec 8) (cls : BitVec 2) (dst chunk lo hi : Nat) (bs : Bytes) :
    List Frame :=
  let routes := match epNode s dst with | some n => (routesTo s n).length | none => 0
  let path := if opc = 0x40 then (if routes = 0 then 0 else chunk % routes) else homePath s (memEp s) dst
  let cuts := if bs.isEmpty then [[]] else runsOf (bs.length / 512 + 1) 512 bs
  markEnds (cuts.map (fun b =>
    { type := tReq, cls := cls, red := opc != 0x41, src := BitVec.ofNat 16 (memEp s), dst := BitVec.ofNat 16 dst
      plane := s.fab.plane, tenant := x.tenant, opc := opc, atop := BitVec.ofNat 8 op, path := BitVec.ofNat 4 path
      len := BitVec.ofNat 10 b.length, mid := collMid x.handle.toNat chunk lo hi, payload := b }))

/-- The features a descriptor needs of a session: weighted combining, MX formats, programs (R141). -/
def featNeed (d : Desc) : Nat :=
  b2n (d.redOp == 2 || d.redOp == 3) + 2 * b2n (isMxTy d.inTy || isMxTy d.outTy || isMxTy d.partTy) + 8 * b2n (d.program != 0)

/-- Send a collective frame of context `c` to an endpoint over the transport. -/
def sendColl (c : Nat) (opc : BitVec 8) (cls : BitVec 2) (dst chunk lo hi : Nat) (bs : Bytes) (s : State) : State :=
  let x := ctxOf s c
  let op := beField x.descr 0 1
  sendNeeding (.coll c chunk) ⟨BitVec.ofNat 16 (memEp s), BitVec.ofNat 16 dst, false, x.tenant⟩ opc
    (featNeed (refOf s x)) (collFrames s x op opc cls dst chunk lo hi bs) s

/-- A Repex Control frame of a collective (R202). `sub` is its sub-type in ATOP (R180): TREE_OPEN, TREE_CLOSE for TREE_RELEASE,
or the collective's own for COLL_ABORT (DEDUCED, log 97). -/
def collCtl (s : State) (tenant : BitVec 12) (handle : Nat) (opc : BitVec 8) (sub dst lo hi st : Nat) (bs : Bytes) : Frame :=
  ({ type := tCtl, cls := 0, red := false, first := true, last := true, src := BitVec.ofNat 16 (memEp s)
     dst := BitVec.ofNat 16 dst, plane := s.fab.plane, tenant := tenant, opc := opc, atop := BitVec.ofNat 8 sub
     path := BitVec.ofNat 4 (homePath s (memEp s) dst), len := BitVec.ofNat 10 bs.length
     mid := collMid handle 0 lo hi, status := BitVec.ofNat 8 st, ttl := initTtl s, payload := bs } : Frame).seal

/-- The fabric-memory endpoint of a node. -/
def epOfNode (n : Nat) : Nat := 0x4800 + n

/-- Put the frames of one chunk together; none until every frame from FIRST to LAST has come (R129). -/
def gatherFrames (f : Frame) (s : State) : State × Option Bytes :=
  if f.first && f.last then (s, some f.payload)
  else
    let all := s.coll.frames ++ [f]
    let same := all.filter (fun g => fwdSid g == fwdSid f && g.opc == f.opc && g.mid == f.mid)
    let from_ := fun (p : BitVec 32) => same.find? (fun g => g.psn == p)
    let start := ((List.range 8).map (fun i => f.psn - BitVec.ofNat 32 i)).find? (fun p =>
      match from_ p with | some g => g.first | none => false)
    match start with
    | none => ({ s with coll := { s.coll with frames := all } }, none)
    | some p0 =>
      let run := ((List.range 8).map (fun i => from_ (p0 + BitVec.ofNat 32 i)))
      let upTo := run.findIdx (fun o => match o with | some g => g.last | none => false)
      let parts := (run.take (upTo + 1)).filterMap id
      if upTo < 8 ∧ parts.length = upTo + 1 then
        ({ s with coll := { s.coll with frames := all.filter (fun g => !(parts.contains g)) } }, some (parts.flatMap (·.payload)))
      else ({ s with coll := { s.coll with frames := all } }, none)

/-! ### Aborts (R198, R199) -/

/-- End a member's descriptor chunk, if it is still in custody. -/
def endDesc (c : Nat) (m : MemberSt) (st : Status) (s : State) : State :=
  match m.req with
  | some id => endOut m.port id st [] (modMember c m.index (fun m => { m with req := none }) s)
  | none => s

/-- The port of a member index of a context. -/
def Ctx.portOf (x : Ctx) (i : Nat) : Nat := ((x.member i).map (·.port)).getD 0

/-- A context enters MISMATCH or ABORTED: its members' descriptor chunks end, `who` giving the members
with a status of their own, and data chunks in custody end with ABORTED (R198). -/
def enterAbort (c : Nat) (st : Status) (seq : BitVec 32) (who : List (Nat × Status)) (s : State) : State :=
  let x := ctxOf s c
  let s := each x.members (fun m s =>
    let own := (who.find? (fun w => w.1 == m.index)).map (·.2)
    endDesc c m (own.getD (if m.bad then .malformed else st)) s) s
  let s := each x.waitData (fun w s => endOut (x.portOf w.1) w.2.1 .aborted [] s) s
  let s := landClear c (cutResults c (modCtx c (fun x => { x with
    state := (if st == .mismatch then .mismatch else .aborted), status := st, seq := seq, ran := true
    slots := [], waitData := [], due := [], kept := [] }) s))
  raiseCol (if st == .mismatch then evColMismatch else evColAbort) c s

/-- The context takes an abort of this instance: it runs it, or has not run it yet. -/
def Ctx.takesAbort (x : Ctx) (seq : BitVec 32) : Bool :=
  (x.state == .active && x.seq == seq) || (x.state == .idle && (!x.ran || decide (0 < psnDiff seq x.seq)))

/-- A COLL_ABORT of this instance has gone on from the context before. -/
def Ctx.told (x : Ctx) (seq : BitVec 32) : Bool := x.aborts.any (fun a => a.1 == seq)

/-- COLL_ABORT of a context towards its parent and children on other devices (R199). -/
def sendAborts (x : Ctx) (st : Status) (seq : BitVec 32) (s : State) : State :=
  let to_ := (x.parent.toList ++ x.kids.map (·.node)).filter (fun n => n != nodeId s)
  each to_ (fun n s => submit (collCtl s x.tenant x.handle.toNat 0x48 (beField x.descr 0 1) (epOfNode n) x.lo x.hi st.code
    (beBytes 4 seq.toNat)) s) s

/-- An instance of a handle aborts on this device: every context that runs it or has not yet is told, each context that hears
of it for the first time sends COLL_ABORT on to the tree, the device to FTX_OUT, and it is counted once (R199, R204). A context
still at an earlier instance takes it when it comes to it. -/
def abortHandle (tenant : BitVec 12) (handle : Nat) (seq : BitVec 32) (st : Status) (who : List (Nat × Status)) (s : State) :
    State :=
  let hears := (ctxsOf s tenant handle).filter (fun x => x.2.takesAbort seq || !x.2.told seq)
  match hears with
  | [] => s
  | h :: _ =>
    let s := each hears (fun x s =>
      let s := if x.2.takesAbort seq then enterAbort x.1 st seq who s else s
      sendAborts x.2 st seq (modCtx x.1 (fun y => { y with
        aborts := y.aborts.filter (fun a => !(a.1 == seq)) ++ [(seq, st)] }) s)) s
    let s := emit (.chainAbort (collCtl s tenant handle 0x48 (beField h.2.descr 0 1) (memEp s) 0 0 st.code (beBytes 4 seq.toNat))) s
    if !hears.any (fun x => x.2.takesAbort seq) then s
    else if st == .mismatch then bump cntColMismatchCnt s else bump cntColAbortCnt s

/-- Abort the instance that context `c` runs. -/
def abortCtx (c : Nat) (st : Status) (who : List (Nat × Status)) (s : State) : State :=
  let x := ctxOf s c
  if x.state == .active then abortHandle x.tenant x.handle.toNat x.seq st who s else s

/-- This device's plane goes out of service: every instance that runs here aborts (R198). -/
def planeOutAborts (s : State) : State :=
  each (s.coll.ctxs.filter (fun x => x.2.state == .active)) (fun x s => abortCtx x.1 .aborted [] s) s

/-- A member's port is fenced or its endpoint quarantined: its leaf context aborts (R198). -/
def collPortLost (p : Nat) (st : Status) (s : State) : State :=
  each (s.coll.ctxs.filter (fun x => x.2.state == .active && x.2.isLeaf)) (fun x s =>
    match x.2.memberAt p with
    | some m => abortCtx x.1 .aborted [(m.index, st)] s
    | none => s) s

/-- Contexts with a window on an offline bank abort with DATA_ERROR (R232). -/
def bankAborts (bank : Nat) (s : State) : State :=
  if s.arr.bankOut.contains bank then
    each (s.coll.ctxs.filter (fun x => x.2.state == .active && x.2.celSet == some (bank / 4))) (fun x s =>
      abortCtx x.1 .dataError [] s) s
  else s

/-- A Cellar word of a slot is read: a corrected or uncorrectable one is counted; the answer says whether
the instance may go on (R232). -/
def celRead (c : Nat) (chunk : Nat) (ecc : Ecc) (s : State) : State × Bool :=
  let x := ctxOf s c
  let d := refOf s x
  match x.celSet.bind (fun g => bankOf s g (d.onPlane chunk % Nat.max 1 d.window)) with
  | none => (s, true)
  | some b =>
    let s := bankAborts b (celError b ecc s)
    (s, ecc != .uncorrectable)

/-- The matrices of a program are read where `steps` hold a PROJECT: a corrected or uncorrectable word is counted against the
first bank in service of the set that holds them (R226, R232; DESIGN CHOICE, unsafe, log 122); the answer says whether the
instance may go on. -/
def projRead (prog : Option Program) (steps : List (Nat × Nat × BitVec 32 × BitVec 32)) (ecc : Ecc) (s : State) : State × Bool :=
  if projCount steps = 0 then (s, true)
  else match (prog.bind (·.celSet)).bind (fun g => bankOf s g 0) with
    | none => (s, true)
    | some b => (bankAborts b (celError b ecc s), ecc != .uncorrectable)

/-! ### Results at their receivers (R182, R193, R197) -/

/-- Byte length of one member's whole contribution as moved (GATHER). -/
def pieceBytes (d : Desc) : Nat := tyBytes d.inTy d.count

/-- The FPA spans of `n` bytes at an FVA as a tenant, with the write permission and key check of each page,
or the status that refuses them (R72, R74). -/
def resultSpans (s : State) (tenant : BitVec 12) (ep key tag : Nat) : Nat → Nat → Nat → Except Status (List (Nat × Nat × Nat))
  | 0, _, _ => .ok []
  | fuel + 1, fva, n =>
    if n = 0 then .ok []
    else
      let k := Nat.min n (2 ^ 21 - fva % 2 ^ 21)
      match moveSlot s (pageKeyOf tenant.toNat fva) .clean with
      | .error st => .error st
      | .ok w =>
        let x := (slotW w).fpaOf fva
        if !(slotW w).wf then .error .malformed
        else if !(slotW w).w then .error .accessDenied
        else match readRegion s ep key with
          | none => .error .accessDenied
          | some d =>
            if !d.admits tenant.toNat tag (x.2 / 2 ^ 44) (x.2 % 2 ^ 44) k .w then .error .accessDenied
            else match resultSpans s tenant ep key tag fuel ((fva + k) % 2 ^ 64) (n - k) with
              | .error st => .error st
              | .ok rest => .ok ((x.2, fva, k) :: rest)

/-- The bucket reads that translate `n` bytes at an FVA for the device itself, page by page, are counted (R80). -/
def notePages (tenant fva n : Nat) (s : State) : State :=
  each (List.range ((fva % 2 ^ 21 + n - 1) / 2 ^ 21 + 1)) (fun i s => noteRead (pageKeyOf tenant (fva + i * 2 ^ 21)) .clean s) s

/-- The bytes of `n` whose pages are translated: up to the first page that refuses the write. -/
def spanReach (s : State) (tenant : BitVec 12) (ep key tag : Nat) : Nat → Nat → Nat → Nat
  | 0, _, _ => 0
  | fuel + 1, fva, n =>
    if n = 0 then 0
    else
      let k := Nat.min n (2 ^ 21 - fva % 2 ^ 21)
      k + (match resultSpans s tenant ep key tag 1 fva k with
        | .ok _ => spanReach s tenant ep key tag fuel ((fva + k) % 2 ^ 64) (n - k)
        | .error _ => 0)

/-- Write bytes into a local member's memory with inbound writes for context `c`, cut at 512-byte boundaries as a store's frames
are (R100, R129); `key` names the chunk. -/
def memberWrite (c : Nat) (m : MemberSt) (fva key : Nat) (bs : Bytes) (ord : Bool) (s : State) : State :=
  let x := ctxOf s c
  let d := parseDesc m.desc
  let ep := slotEp s m.port
  let spans := if fva.testBit 63 || bitsOf fva 48 15 != ep then .error .malformed
    else resultSpans s x.tenant ep d.keyidx d.keytag 3 fva bs.length
  match spans with
  | .error st =>
    let s := if fva.testBit 63 || bitsOf fva 48 15 != ep then s
      else notePages x.tenant.toNat fva (spanReach s x.tenant ep d.keyidx d.keytag 3 fva bs.length) s
    { s with coll := { s.coll with writes := s.coll.writes ++ [(c, m.index, key, st)] } }
  | .ok ss =>
    let fs := ss.flatMap (fun y => (cutFrames (y.2.2 / 512 + 2) (y.1 % 2 ^ 44) y.2.2).map (fun a =>
      ({ type := tReq, src := BitVec.ofNat 16 m.index, dst := BitVec.ofNat 16 ep, ord := ord
         plane := s.fab.plane, tenant := x.tenant, opc := 2, len := BitVec.ofNat 10 a.2
         mid := midOf (y.1 / 2 ^ 44 * 2 ^ 44 + a.1) d.keyidx d.keytag, crc := BitVec.ofNat 64 key
         payload := slice bs (y.2.1 - fva + (a.1 - y.1 % 2 ^ 44)) a.2 } : Frame)))
    let s := modCtx c (fun x => { x with due := x.due ++ [(m.index, key, fs.length)] }) s
    each fs (fun f s => startAcc m.port f false (25 + c) none s) (notePages x.tenant.toNat fva bs.length s)

/-- The key of a chunk of source member `src` among a receiver's writes. -/
def chunkKey (src k : Nat) : Nat := (src + 1) * 2 ^ 32 + k

/-- The source of moved data that a key names (0 for a reduction's result is source + 1). -/
def keySource (key : Nat) : Nat := key / 2 ^ 32 - 1

/-- Receivers of member `i`'s chunks (R193). -/
def receivers (d : Desc) (i target : Nat) : List Nat :=
  if d.op = 1 then [d.neighbour i false]
  else if d.op = 2 then [target]
  else if d.op = 3 then (if i = d.root then (List.range d.members).filter (fun j => j != i) else [])
  else if d.op = 7 then (if d.root = 0xFFFF then List.range d.members else [d.root])
  else []

/-- Results a member receives in an instance on this plane. -/
def expected (s : State) (x : Ctx) (i : Nat) : Nat :=
  let d := refOf s x
  let n := planeN s x
  if d.op = 1 ∨ d.op = 2 ∨ d.op = 6 then n
  else if d.op = 3 then (if i = d.root then 0 else n)
  else if d.op = 4 then (if i = d.root then n else 0)
  else if d.op = 5 then d.planeChunks x.plane.toNat (d.ownRange i).1 (d.ownRange i).2
  else if d.op = 7 then (if d.root = 0xFFFF ∨ i = d.root then n * d.members else 0)
  else 0

/-! ### Completion (R187) -/

/-- Chunks a member contributes in an instance on this plane (R180). -/
def contributed (s : State) (x : Ctx) (i : Nat) : Nat :=
  let d := refOf s x
  if d.op = 3 ∧ i ≠ d.root then 0 else planeN s x

/-- Every local member has what it receives, no write of its results is under way, and all it contributes has been taken and
sent on. -/
def membersDone (s : State) (x : Ctx) : Bool :=
  x.members.all (fun m => decide (expected s x m.index ≤ m.got) && !x.due.any (fun y => y.1 == m.index) &&
    decide (contributed s x m.index ≤ (x.seen.filter (fun y => y.1 == m.index)).length))

/-- A member's status as its instance completes: that of a refused result write, LATE where a step fired late here, else DONE;
no frame carries that a step fired late on another device, so what a job's member ends with there is open (R168, R198; DEDUCED,
safe, log 121). -/
def memberStatus (x : Ctx) (m : MemberSt) : Status :=
  let late := x.late || (x.alm.isSome && Config.lateElsewhere x.handle x.seq)
  m.fate.getD (if late then .late else .done)

/-- A context completes its part of an instance when all results are visible and COLL_DONE has come. -/
def finishCtx (c : Nat) (s : State) : State :=
  let x := ctxOf s c
  if x.state != .active || !x.doneDown then s
  else if x.isLeaf then
    if membersDone s x then
      let s := each x.members (fun m s => endDesc c m (memberStatus x m) s) s
      toIdle c (if x.members.all (fun m => memberStatus x m == .done) then bump cntColInstCnt s else s)
    else s
  else if (refOf s x).op != 6 || decide (planeN s x ≤ x.outs) then toIdle c s else s

/-- A result or moved chunk is written for a local member: at RESULT_FVA + (k − k0) × chunk bytes, and in a GATHER within its
source's piece (R182, R193). -/
def memberPlace (c i k src : Nat) (bs : Bytes) (s : State) : State :=
  let x := ctxOf s c
  match x.member i with
  | none => s
  | some m =>
    if x.state != .active || m.desc.isEmpty then s
    else
      let d := parseDesc m.desc
      let k0 := if d.op = 5 then (d.ownRange i).1 else 0
      let at_ := (if d.op = 7 then src * pieceBytes d else 0) + (k - k0) * tyBytes d.outTy d.elems
      if m.fate.isSome then finishCtx c (modMember c i (fun m => { m with got := m.got + 1 }) s)
      else memberWrite c m (d.fva + at_) (chunkKey src k) bs false s

/-- COLL_DONE goes down from a node (R187); children on this device take it at once. -/
def doneDown : Nat → Nat → State → State
  | 0, _, s => s
  | fuel + 1, c, s =>
    let x := ctxOf s c
    if x.doneDown || x.state != .active then s
    else
      let s := modCtx c (fun x => { x with doneDown := true }) s
      let s := each x.kids (fun k s =>
        if k.node = nodeId s then
          match (ctxsOf s x.tenant x.handle.toNat).find? (fun y => y.2.lo == k.lo && y.2.hi == k.hi && y.1 != c) with
          | some y => doneDown fuel y.1 s
          | none => s
        else sendColl c 0x44 2 (epOfNode k.node) 0 k.lo k.hi (beBytes 4 x.seq.toNat) s) s
      finishCtx c s

/-- The root generates COLL_DONE once it has agreed and every output is handed on; for moved data, at
agreement. -/
def rootDone (c : Nat) (s : State) : State :=
  let x := ctxOf s c
  if x.isRoot && x.state == .active && x.agreed && (!(refOf s x).reduces || decide (planeN s x ≤ x.outs)) then doneDown 16 c s
  else s

/-! ### Down and out: results (R194, R195) -/

/-- A result or moved chunk leaves for a member's End-point Block over the switching core (R193, R195). -/
def toMember (c i k lo hi : Nat) (cls : BitVec 2) (bs : Bytes) (s : State) : State :=
  let x := ctxOf s c
  match x.ids[i]? with
  | some e => sendColl c 0x41 cls e.toNat k lo hi bs s
  | none => s

/-- A result of ALL_REDUCE passes down the tree (R194). -/
def resultDown : Nat → Nat → Nat → BitVec 2 → Bytes → State → State
  | 0, _, _, _, _, s => s
  | fuel + 1, c, k, cls, bs, s =>
    let x := ctxOf s c
    let s := each x.members (fun m s => toMember c m.index k x.lo x.hi cls bs s) s
    let s := each x.kids (fun j s =>
      if j.node = nodeId s then
        match (ctxsOf s x.tenant x.handle.toNat).find? (fun y => y.2.lo == j.lo && y.2.hi == j.hi && y.1 != c) with
        | some y => resultDown fuel y.1 k cls bs s
        | none => s
      else sendColl c 0x41 cls (epOfNode j.node) k j.lo j.hi bs s) s
    if x.isRoot then s else finishCtx c (modCtx c (fun x => { x with outs := x.outs + 1 }) s)

/-- The root hands a result to its receivers (R194). -/
def rootResult (c k : Nat) (cls : BitVec 2) (bs : Bytes) (s : State) : State :=
  let x := ctxOf s c
  let d := refOf s x
  let s := if d.op = 6 then resultDown 16 c k cls bs s
    else if d.op = 4 then toMember c d.root k x.lo x.hi cls bs s
    else match (List.range d.members).find? (fun i => decide ((d.ownRange i).1 ≤ k ∧ k < (d.ownRange i).2)) with
      | some i => toMember c i k x.lo x.hi cls bs s
      | none => s
  modCtx c (fun x => { x with outs := x.outs + 1 }) s

/-! ### Slots and partials (R191, R213 to R215) -/

def Ctx.slot (x : Ctx) (k : Nat) : Slot := (x.slots.find? (fun t => t.chunk == k)).getD { chunk := k }

def putSlot (c : Nat) (t : Slot) (s : State) : State :=
  modCtx c (fun x => { x with slots :=
    (if x.slots.any (fun u => u.chunk == t.chunk) then modFirst (fun u => u.chunk == t.chunk) (fun _ => t) x.slots
     else x.slots ++ [t]) }) s

/-- The program of a reference descriptor. -/
def ctxProg (s : State) (d : Desc) : Option Program := if d.program = 0 then none else progOf s d.program

/-- A node has formed chunk `k` in FP32 or INT32: it becomes a partial for the parent, or the result at
the root (R214, R217), whose program reads its matrices (R226); `mat` is the verdict on them (R232). -/
def formOut (c k : Nat) (vs : List (BitVec 32)) (mat : Ecc) (s : State) : State :=
  let x := ctxOf s c
  let d := refOf s x
  let prog := ctxProg s d
  let steps := match prog with | some p => if x.isRoot then postSteps p else [] | none => []
  let q := projRead prog steps mat s
  if !q.2 then abortCtx c .dataError [] q.1
  else
    let post := projCount steps
    let r := if x.isRoot then packResult prog d x.plane.toNat x.lo k vs else packPart d x.plane.toNat x.lo k vs
    let s := countPacked r x.isRoot q.1
    let s := if x.isRoot then countInputs (32 * post * vs.length) (countProj (post * vs.length) s) else s
    putSlot c { (ctxOf s c).slot k with out := some r.bytes, part := none, sum := none, held := false } s

/-- A child's partial of chunk `k` reaches an internal node: the first is written, the second added
(R214). `ecc` is the verdict on reading the slot, `mat` on a program's matrices. -/
def childPartial (c k : Nat) (bs : Bytes) (ecc mat : Ecc) (s : State) : State :=
  let x := ctxOf s c
  let d := refOf s x
  let t := x.slot k
  if t.out.isSome then s
  else match t.part with
    | none => putSlot c { t with part := some bs } s
    | some b =>
      let r := celRead c k ecc s
      if !r.2 then abortCtx c .dataError [] r.1
      else
        let vs := List.zipWith d.comb (unpackPart d b) (unpackPart d bs)
        formOut c k vs mat (countInputs (2 * vs.length) r.1)

/-- A step of an Almanac collective has released a chunk, or the collective is dynamic (R200). -/
def released (x : Ctx) (d : Desc) (k : Nat) : Bool :=
  x.alm.isNone || d.step == 0 || x.steps.contains (x.seq.toNat, d.onPlane k / d.step)

/-- Outputs go in scheduled class when a COLL_STEP releases them. -/
def outClass (x : Ctx) (d : Desc) : BitVec 2 := if x.alm.isSome && d.step != 0 then 1 else 2

/-- L of a non-root node: its local parent's freed slots plus S, or what the remote parent granted (R191). -/
def creditOf (s : State) (c : Nat) (x : Ctx) : Nat :=
  let S := winOf s x
  match x.parent with
  | some n =>
    if n = nodeId s then
      match (ctxsOf s x.tenant x.handle.toNat).find? (fun y => y.1 != c && y.2.kids.any (fun k => k.lo == x.lo && k.hi == x.hi)) with
      | some y => y.2.freed + S
      | none => 0
    else Nat.max x.limit S
  | none => 0

/-- Sending contexts name the instance of a grant: COLL_CREDIT carries its SEQ where other frames carry CHUNK. DESIGN CHOICE,
unsafe (log 98): R192 needs grants told apart by instance, and R202 gives the frame no other place for it. -/
def sendCredit (c dst lo hi l : Nat) (s : State) : State :=
  sendColl c 0x42 2 dst (ctxOf s c).seq.toNat lo hi (beBytes 8 l) s

/-- A slot is freed: FREED counts, and every 16 freed slots each remote child gets a COLL_CREDIT (R191). -/
def freeSlot (c k : Nat) (s : State) : State :=
  let s := modCtx c (fun x => { x with freed := x.freed + 1, slots := x.slots.filter (fun t => !(t.chunk == k)) }) s
  let x := ctxOf s c
  if x.freed % 16 = 0 then
    each (x.kids.filter (fun k => k.node != nodeId s)) (fun j s =>
      sendCredit c (epOfNode j.node) j.lo j.hi (x.freed + winOf s x) s) s
  else s

/-- An output leaves its slot: to the receivers from the root, else as a partial to the parent (R191, R194). -/
def outLeaves (f : CelReads) (c k : Nat) (bs : Bytes) (s : State) : State :=
  let x := ctxOf s c
  let d := refOf s x
  if x.isRoot then rootDone c (freeSlot c k (rootResult c k (outClass x d) bs s))
  else
    let s := modCtx c (fun x => { x with outs := x.outs + (if d.op = 6 then 0 else 1) }) s
    match x.parent with
    | some n =>
      if n = nodeId s then
        match (ctxsOf s x.tenant x.handle.toNat).find? (fun y => y.1 != c && y.2.kids.any (fun j => j.lo == x.lo && j.hi == x.hi)) with
        | some y => freeSlot c k (childPartial y.1 k bs f.up f.mat s)
        | none => s
      else freeSlot c k (sendColl c 0x40 (outClass x d) (epOfNode n) k x.lo x.hi bs s)
    | none => s

/-- Hand on the output of one slot where its step, and for a partial its credit, allow; until then it waits in its slot, from
which it is read again (R191, R232). -/
def pushSlot (f : CelReads) (c k : Nat) (s : State) : State :=
  let x := ctxOf s c
  let d := refOf s x
  match (x.slot k).out with
  | none => s
  | some bs =>
    if x.state != .active then s
    else if !x.agreed || !released x d k || (!x.isRoot && decide (creditOf s c x ≤ d.onPlane k)) then
      putSlot c { x.slot k with held := true } s
    else
      let r := if (x.slot k).held then celRead c k f.out s else (s, true)
      if !r.2 then abortCtx c .dataError [] r.1
      else if (ctxOf r.1 c).state != .active then r.1
      else outLeaves f c k bs r.1

/-- Hand on every output of a handle that may leave, children before parents (R191, R200). -/
def pushHandle (f : CelReads) (tenant : BitVec 12) (handle : Nat) (s : State) : State :=
  each (ctxsOf s tenant handle) (fun x s =>
    each (((ctxOf s x.1).slots.filter (fun t => t.out.isSome)).map (·.chunk)) (fun k s => pushSlot f x.1 k s) s) s

/-! ### Data chunks (R183, R206) -/

/-- L a sender has towards every receiver of its moved chunks (R193). -/
def moveCredit (x : Ctx) (rs : List Nat) : Nat :=
  match rs.map (fun r => ((x.grants.find? (fun g => g.1 == r)).map (·.2)).getD 0) with
  | [] => 0
  | l :: ls => ls.foldl Nat.min l

/-- Try one waiting data chunk: it is accepted against its credit, and ends with DONE (R183). -/
def serveOne (c : Nat) (w : Nat × Nat × Nat × Bool) (s : State) : State :=
  let x := ctxOf s c
  let i := w.1
  let k := w.2.2.1
  match x.member i with
  | none => s
  | some m =>
    match outOf s m.port w.2.1 with
    | none => modCtx c (fun x => { x with waitData := x.waitData.erase w }) s
    | some r =>
      let d := refOf s x
      let n := d.onPlane k
      let bs := r.msg.payload
      let accept := fun (s : State) =>
        endOut m.port w.2.1 .done [] (modCtx c (fun x => { x with
          waitData := x.waitData.filter (fun v => !(v.1 == w.1 && v.2.1 == w.2.1)), seen := x.seen ++ [(i, k)] }) s)
      if x.state != .active || !x.agreed then s
      else if d.reduces then
        if x.freed + d.window ≤ n then s
        else
          let bytes := if d.arrival then 512 else 512 * x.members.length
          let asked := if d.arrival then w.2.2.2 else (landOf s c k).isSome
          let s := if asked then s else landAsk (groupFor s x.tenant.toNat n) c k bytes s
          let room := ((s.arr.landing.filter (fun l => l.ctx == c && l.chunk == k && l.granted)).map (·.bytes)).sum / 512
          let t := x.slot k
          if t.landed.length < room then
            accept (putSlot c { t with landed := t.landed ++ [(i, bs)] } s)
          else if w.2.2.2 then s
          else
            raiseRda evRdaLandWait c (bump cntRdaLandWaitCnt (modCtx c (fun x => { x with
              waitData := modAll (fun v => v == w) (fun v => (v.1, v.2.1, v.2.2.1, true)) x.waitData }) s))
      else
        let rs := receivers d i (parseDesc m.desc).target
        let away := !rs.any (fun r => (x.member r).isSome)
        if (!rs.isEmpty && decide (moveCredit x rs ≤ n)) || !released x d k then s
        else
          let s := each rs (fun r s => toMember c r k i i (outClass x d) bs s) (accept s)
          finishCtx c (if away then modCtx c (fun x => { x with freed := x.freed + 1 }) s else s)

/-- Serve the data chunks that wait at a leaf context, in arrival order. -/
def serve (c : Nat) (s : State) : State := each (ctxOf s c).waitData (fun w s => serveOne c w s) s

/-- Serve the leaf of a handle. -/
def serveHandle (tenant : BitVec 12) (handle : Nat) (s : State) : State :=
  match leafOf s tenant handle with
  | some l => serve l.1 s
  | none => s

/-- Outputs leave and waiting chunks are taken until nothing more moves: a freed slot gives credit to the
children on this device at once (R191). -/
def turnHandle (f : CelReads) (tenant : BitVec 12) (handle : Nat) (s : State) : State :=
  serveHandle tenant handle ((List.range 10).foldl (fun s _ => pushHandle f tenant handle s) s)

/-- The leaf's part of a chunk that CHUNK_EVALUATE combines: under ORDER 0 the whole set, under ORDER 1 up to 32
of what has landed, in the order it did (R185, R213, R215). An uncorrectable word of the landing store, or of the slot it
adds to, ends the instance (R232). -/
def evaluate (c k : Nat) (found : EvalReads) (s : State) : State :=
  let x := ctxOf s c
  let d := refOf s x
  let t := x.slot k
  let n := x.members.length
  let batch := if d.arrival then t.landed.take 32 else t.landed
  let ready := if d.arrival then !batch.isEmpty else t.landed.length == n
  if x.state != .active || !x.isLeaf || !d.reduces || !ready || t.out.isSome then s
  else if found.land == .uncorrectable then abortCtx c .dataError [] (raiseRda evRdaDerr c (bump cntRdaDerrCnt s))
  else
    let prog := ctxProg s d
    let steps := match prog with | some p => preSteps p | none => []
    let r := if t.sum.isSome then celRead c k found.cel s else (s, true)
    let q := projRead prog steps found.next.mat r.1
    if !r.2 || !q.2 then abortCtx c .dataError [] q.1
    else
      let s := q.1
      let sorted := if d.arrival then batch else batch.mergeSort (fun a b => decide (a.1 ≤ b.1))
      let pre := projCount steps
      let len := d.elemsOf k
      let live_ := (sorted.filter (fun v => !zeroRow d v.2)).length
      let s := countInputs (live_ * len * (1 + 32 * pre)) (countProj (pre * live_ * len) s)
      let vals := sorted.map (fun v =>
        let own := parseDesc (((x.member v.1).map (·.desc)).getD [])
        contribution prog { d with weight := own.weight } len v.2)
      let sum := combineVec d.comb vals
      let sum := match t.sum with | some o => List.zipWith d.comb o sum | none => sum
      let taken := t.taken + batch.length
      let s := if d.arrival then
          each batch (fun _ s =>
            match s.arr.landing.find? (fun l => l.ctx == c && l.chunk == k && l.granted) with
            | some l => { s with arr := { s.arr with landing := s.arr.landing.erase l } }
            | none => s) s
        else landDrop c k s
      let s := putSlot c { t with landed := t.landed.drop batch.length, taken := taken, sum := some sum } s
      let s := if taken = n ∨ !d.arrival then formOut c k sum (if pre = 0 then found.next.mat else .clean) s else s
      turnHandle found.next x.tenant x.handle.toNat s

/-! ### Credits of moved data (R193) -/

/-- Members that may send to receiver `r`. -/
def sendersTo (d : Desc) (r : Nat) : List Nat :=
  if d.op = 1 then [d.neighbour r true]
  else if d.op = 3 then [d.root]
  else List.range d.members

/-- Receiver `i` of a leaf grants its senders: at its descriptor's arrival, and every 16 chunks after (R191, R193). -/
def grantFor (c i : Nat) (s : State) : State :=
  let x := ctxOf s c
  let d := refOf s x
  match x.member i with
  | none => s
  | some m =>
    if d.reduces || x.state != .active || !x.agreed || m.desc.isEmpty || expected s x i == 0 then s
    else
      let nS := if d.op = 7 then Nat.max 1 d.members else 1
      let l := d.window + m.handed / nS
      let s := modCtx c (fun x => { x with grants := (x.grants.filter (fun g => !(g.1 == i))) ++ [(i, l)] }) s
      let before := ((x.given.find? (fun g => g.1 == i)).map (·.2)).getD 0
      if before = 0 ∨ before + 16 ≤ l then
        let s := modCtx c (fun x => { x with given := (x.given.filter (fun g => !(g.1 == i))) ++ [(i, l)] }) s
        let racks := ((sendersTo d i).filterMap (fun j => (x.ids[j]?).map (fun e => e.toNat / 72))).eraseDups
        each (racks.filter (fun r => r != s.fab.rack.toNat)) (fun r s =>
          sendCredit c (epOfNode (r * 8 + s.fab.plane.toNat)) i i l s) s
      else s

def grantAll (c : Nat) (s : State) : State := each (ctxOf s c).members (fun m s => grantFor c m.index s) s

/-- A PERMUTE chunk shows its receiver is the TARGET of another member too (R187). DESIGN CHOICE, unsafe (log 101): members on two
racks that name one TARGET are found out as the second one's first chunk reaches the receiver's leaf. -/
def twiceTarget (x : Ctx) (i src : Nat) : Bool :=
  (parseDesc x.descr).op == 2 && x.parts.any (fun y => y.1 == i && y.2 != src)

/-- A result or moved chunk reaches a local member: once this leaf's step has released it (R200), it is handed to the inbound
writes, which frees a moved chunk's slot and grants its senders the next (R191, R193). -/
def memberResult (c i k src : Nat) (bs : Bytes) (s : State) : State :=
  let x := ctxOf s c
  match x.member i with
  | none => s
  | some m =>
    if x.state != .active || m.desc.isEmpty then s
    else if twiceTarget x i src then abortCtx c .mismatch [] s
    else if !released x (refOf s x) k then modCtx c (fun x => { x with kept := x.kept ++ [(i, k, src, bs)] }) s
    else
      let s := memberPlace c i k src bs s
      if (parseDesc x.descr).reduces then s
      else
        let first := (parseDesc x.descr).op == 2 && !x.parts.any (fun y => y.1 == i)
        let s := modMember c i (fun m => { m with handed := m.handed + 1 }) (modCtx c (fun x => { x with
          freed := x.freed + 1, parts := if first then x.parts ++ [(i, src)] else x.parts }) s)
        serve c (grantFor c i s)

/-- The results that waited for this leaf's step go to their members (R200). -/
def stepKept (c : Nat) (s : State) : State :=
  let rs := (ctxOf s c).kept
  each rs (fun x s => memberResult c x.1 x.2.1 x.2.2.1 x.2.2.2 s) (modCtx c (fun x => { x with kept := [] }) s)

/-- A grant reaches the context it is for: of the instance it runs, at once; of one not started here, kept for its start; of
an earlier one, void (R192). -/
def takeCredit (c lo l : Nat) (seq : BitVec 32) (s : State) : State :=
  let x := ctxOf s c
  if x.state == .active && x.seq == seq then modCtx c (fun x => x.credited lo l) s
  else if !x.ran || decide (0 < psnDiff seq x.seq) then modCtx c (fun x => { x with early := x.early ++ [(lo, l, seq)] }) s
  else s

/-! ### Agreement (R187, R212) -/

/-- Every member and child of a context has agreed. -/
def allAgreed (x : Ctx) : Bool :=
  x.members.all (fun m => !m.desc.isEmpty && !m.bad) && x.kids.all (fun k => k.agreed)

mutual
/-- A context whose members and children have all agreed sends COLL_DESC to its parent and serves chunks. -/
def agree : Nat → Nat → State → State
  | 0, _, s => s
  | fuel + 1, c, s =>
    let x := ctxOf s c
    if x.state != .active || x.agreed || !allAgreed x then s
    else
      let s := modCtx c (fun x => { x with agreed := true }) s
      let s := match x.parent with
        | some n =>
          let dg := x.digest.getD 0
          if n = nodeId s then
            match (ctxsOf s x.tenant x.handle.toNat).find? (fun y => y.1 != c && y.2.kids.any (fun j => j.lo == x.lo && j.hi == x.hi)) with
            | some y => kidAgrees fuel y.1 x.lo dg x.seq s
            | none => s
          else sendColl c 0x43 2 (epOfNode n) 0 x.lo x.hi (beBytes 8 dg.toNat ++ beBytes 4 x.seq.toNat ++ [0, 0, 0, 0]) s
        | none => s
      rootDone c (serve c (grantAll c s))
/-- A child's digest reaches its parent: recorded as reference, or compared (R187). -/
def kidAgrees : Nat → Nat → Nat → BitVec 64 → BitVec 32 → State → State
  | 0, _, _, _, _, s => s
  | fuel + 1, c, lo, dg, seq, s =>
    let x := ctxOf s c
    let mark := fun (s : State) => agree fuel c (modCtx c (fun x => { x with
      kids := modFirst (fun k => k.lo == lo) (fun k => { k with agreed := true }) x.kids }) s)
    if x.state == .idle then mark (modCtx c (fun x => { x with digest := some dg }) (startInst c seq s))
    else if x.state == .active && x.seq == seq then
      match x.digest with
      | some g => if g = dg then mark s else abortCtx c .mismatch [] s
      | none => if x.members.any (fun m => m.bad) then abortCtx c .mismatch [] s
        else mark (modCtx c (fun x => { x with digest := some dg }) s)
    else if x.seq != seq then modCtx c (fun x => { x with waitKid := x.waitKid ++ [(lo, dg, seq)] }) s
    else s
end

/-- The checks of a descriptor chunk against R211 (R212), and against what its context was opened for. -/
def descBad (s : State) (x : Ctx) (d : Desc) : Bool :=
  let o := parseDesc x.descr
  let proj := match ctxProg s d with | some p => p.tenant == x.tenant && hasProject p | none => false
  !d.fieldsOk || !d.arithOk || d.members != x.ids.length || d.op != o.op || d.planes != o.planes ||
  d.win64k != x.win64k || (proj && d.count % 32 != 0)

/-- A descriptor chunk meets its leaf context (R187, R212). -/
def recordDesc (c i id : Nat) (bs : Bytes) (s : State) : State :=
  let x := ctxOf s c
  let d := parseDesc bs
  let dg := descDigest bs
  let bad := descBad s x d
  let had := x.members.filter (fun m => !m.desc.isEmpty)
  let taken := d.op == 2 && had.any (fun m => !m.bad && (parseDesc m.desc).target == d.target)
  let s := modMember c i (fun m => { m with req := some id, desc := bs, bad := bad }) s
  if bad then
    if x.digest.isSome || had.any (fun m => !m.bad || descDigest m.desc != dg) then abortCtx c .mismatch [] s
    else
      let y := ctxOf s c
      if y.members.all (fun m => !m.desc.isEmpty) then
        if y.parent.isNone && y.kids.isEmpty then toIdle c (each y.members (fun m s => endDesc c m .malformed s) s)
        else abortCtx c .mismatch [] s
      else s
  else if had.any (fun m => m.bad) || taken || !d.shiftOk || !progLoaded s x.tenant d.program then abortCtx c .mismatch [] s
  else match x.digest with
    | some g =>
      if g ≠ dg then abortCtx c .mismatch [] s
      else agree 20 c (modCtx c (fun x => { x with ref := if x.ref.isEmpty then bs.take 40 else x.ref }) s)
    | none => agree 20 c (modCtx c (fun x => { x with ref := bs.take 40, digest := some dg }) s)

/-! ### COLL messages of the A-ports (R180, R181) -/

/-- HANDLE and CHUNK of a COLL message. -/
def AttHandle (m : AttMsg) : Nat := bitsOf m.addr.toNat 32 32
def AttChunk (m : AttMsg) : Nat := bitsOf m.addr.toNat 0 32

/-- The fields every COLL message must have 0, and the form of each kind (R32, R35, R181); what a TREE_OPEN's descriptor holds is
checked once its list has been read (R189). -/
def collFormat (m : AttMsg) : Bool :=
  let k := AttChunk m
  let d := parseDesc m.payload
  reqFieldsOk m && m.opc == 7 && m.scope == 0 && m.keyidx == 0 && m.keytag == 0 &&
  m.payload.length == m.len.toNat &&
  (if m.atop = 0x10 then k == 0xFFFFFFFE && m.len == 64
   else if m.atop = 0x11 then k == 0xFFFFFFFE && m.len == 0
   else decide (1 ≤ m.atop.toNat ∧ m.atop.toNat ≤ 7) &&
     (if k = 0xFFFFFFFF then m.len == 64 && d.op == m.atop.toNat && d.handle == AttHandle m
      else decide (k < 0xFFFFFFFE) && decide (1 ≤ m.len.toNat ∧ m.len.toNat ≤ 512)))

/-- Put a COLL message into custody. -/
def addColl (p : Nat) (m : AttMsg) (s : State) : State := addOut p m .coll [] s

/-- The tenant of an A-port. -/
def collTenant (s : State) (p : Nat) : BitVec 12 := BitVec.ofNat 12 (portTenant s p)

/-- A descriptor chunk in custody meets its context; a later SEQ waits, its credits withheld (R187, R198). -/
def descStep (p id : Nat) (m : AttMsg) (held : Bool) (s : State) : State :=
  let d := parseDesc m.payload
  let go := fun (s : State) => giveBack p id m s
  let end_ := fun (st : Status) (s : State) => endOut p id st [] (go s)
  if !portBound s p then end_ .fenced s
  else if !collFormat m || AttChunk m != 0xFFFFFFFF || !bitOf d.planes s.fab.plane.toNat then end_ .malformed s
  else match leafOf s (collTenant s p) (AttHandle m) with
    | none => end_ .noContext s
    | some l =>
      let x := l.2
      let wait := fun (s : State) => if held then s else modCtx l.1 (fun x => { x with waitDesc := x.waitDesc ++ [(p, id)] }) s
      match x.memberAt p with
      | none => end_ .malformed s
      | some mb =>
        if x.state == .idle then recordDesc l.1 mb.index id m.payload (startInst l.1 (BitVec.ofNat 32 d.seq) (go s))
        else if x.seq.toNat ≠ d.seq then wait s
        else if x.state == .active then
          if mb.desc.isEmpty then recordDesc l.1 mb.index id m.payload (go s) else end_ .malformed s
        else end_ (if descBad s x d then .malformed else x.status)
          (if mb.desc.isEmpty then modMember l.1 mb.index (fun y => { y with desc := m.payload }) s else s)

/-- A data chunk in custody meets its context (R177, R181, R183). -/
def dataStep (p id : Nat) (m : AttMsg) (s : State) : State :=
  let end_ := fun (st : Status) (s : State) => endOut p id st [] s
  let k := AttChunk m
  if !portBound s p then end_ .fenced s
  else if !collFormat m then end_ .malformed s
  else match leafOf s (collTenant s p) (AttHandle m) with
    | none => end_ .noContext s
    | some l =>
      let x := l.2
      match x.memberAt p with
      | none => end_ .malformed s
      | some mb =>
        let d := parseDesc mb.desc
        let later := x.waitDesc.any (fun w => w.1 == p && (outOf s p w.2).isSome)
        if later then modCtx l.1 (fun x => { x with waitDesc := x.waitDesc ++ [(p, id)] }) s
        else if mb.desc.isEmpty then end_ .malformed s
        else if x.state == .mismatch || x.state == .aborted then end_ .aborted s
        else if mb.bad || m.atop.toNat != d.op || decide (d.chunks ≤ k) ||
            d.planeOf k != s.fab.plane.toNat || !chunkLenOk d k m.payload || (d.op == 3 && mb.index != d.root) ||
            x.seen.contains (mb.index, k) || x.waitData.any (fun w => w.1 == mb.index && w.2.2.1 == k) then end_ .malformed s
        else serve l.1 (modCtx l.1 (fun x => { x with waitData := x.waitData ++ [(mb.index, id, k, false)] }) s)

/-- A DESCRIPTOR_CHUNK arrives (R187). -/
def takeDesc (p : Nat) (m : AttMsg) (s : State) : State :=
  onAccept p m (fun s => let id := nextOut s p; descStep p id m false (addColl p m s)) s

/-- A DATA_CHUNK arrives (R183). -/
def takeData (p : Nat) (m : AttMsg) (s : State) : State :=
  onMsg p m (fun s => let id := nextOut s p; dataStep p id m (addColl p m s)) s

/-- Descriptor chunks and data of a later SEQ move on once their context is IDLE (R187). -/
def moveOn (c : Nat) (s : State) : State :=
  let x := ctxOf s c
  if x.state != .idle then s
  else
    let kids := x.waitKid
    let ws := x.waitDesc
    let s := modCtx c (fun x => { x with waitKid := [], waitDesc := [] }) s
    -- an instance whose abort came before its turn (R199)
    let s := match x.aborts.find? (fun a => x.takesAbort a.1) with
      | some a => enterAbort c a.2 a.1 [] s
      | none => s
    let s := each kids (fun k s => kidAgrees 20 c k.1 k.2.1 k.2.2 s) s
    each ws (fun w s =>
      match outOf s w.1 w.2 with
      | some r => if AttChunk r.msg = 0xFFFFFFFF then descStep w.1 w.2 r.msg false s else dataStep w.1 w.2 r.msg s
      | none => s) s

/-! ### Opening and closing (R187, R189) -/

/-- Free a context and its window: the descriptor chunks that wait for it end, and their units come back (R40). -/
def freeCtx (c : Nat) (s : State) : State :=
  let x := ctxOf s c
  let s := each x.waitDesc (fun w s =>
    let s := match outOf s w.1 w.2 with
      | some r => if AttChunk r.msg = 0xFFFFFFFF then giveBack w.1 w.2 r.msg s else s
      | none => s
    endOut w.1 w.2 .noContext [] s) s
  landClear c (cutResults c (setCtx c {} s))

/-- The contexts of a handle are freed; an active instance aborts first (R187, R198). -/
def freeHandle (tenant : BitVec 12) (handle : Nat) (which : Ctx → Bool) (s : State) : State :=
  let mine := (ctxsOf s tenant handle).filter (fun x => which x.2)
  let s := each (mine.filter (fun x => x.2.state == .active)) (fun x s => abortCtx x.1 .aborted [] s) s
  each mine (fun x s => freeCtx x.1 s) s

/-- A tenant is fenced for good, or the device goes down: its contexts are freed without handshake (R187). -/
def freeTenant (which : BitVec 12 → Bool) (s : State) : State :=
  each (s.coll.ctxs.filter (fun x => x.2.state != .free && which x.2.tenant)) (fun x s =>
    let s := each x.2.members (fun m s => endDesc x.1 m .fenced s) s
    let s := each x.2.waitData (fun w s => endOut (x.2.portOf w.1) w.2.1 .aborted [] s) s
    freeCtx x.1 s) { s with coll := { s.coll with opens := s.coll.opens.filter (fun o => !which o.tenant) } }

/-- The open of a handle whose member list has been read. -/
def openOf (s : State) (tenant : BitVec 12) (handle : Nat) : Option TreeOpenSt :=
  s.coll.opens.find? (fun o => o.listed && o.tenant == tenant && o.handle.toNat == handle)

/-- The open that a TREE_OPEN of a port began. -/
def openBy (s : State) (p id : Nat) : Option TreeOpenSt := s.coll.opens.find? (fun o => o.port == p && o.reqId == id)

def dropOpen (p id : Nat) (s : State) : State :=
  { s with coll := { s.coll with opens := s.coll.opens.filter (fun o => !(o.port == p && o.reqId == id)) } }

def modOpen (p id : Nat) (f : TreeOpenSt → TreeOpenSt) (s : State) : State :=
  { s with coll := { s.coll with opens := modFirst (fun o => o.port == p && o.reqId == id) f s.coll.opens } }

/-- A tree open ends with a status; a failed one releases every device that said yes (R189). -/
def endOpen (o : TreeOpenSt) (st : Status) (s : State) : State :=
  let s := dropOpen o.port o.reqId s
  let s := if st == .done then bump cntColOpenCnt s
    else
      let s := if o.listed then freeHandle o.tenant o.handle.toNat (fun x => x.alm.isNone) s else s
      let s := each o.yes (fun n s => submit (collCtl s o.tenant o.handle.toNat 0x47 0x11 (epOfNode n) 0 0 0 []) s) s
      raiseCol evColOpenFail o.port s
  endOut o.port o.reqId st [] s

/-- The ways a member list is wrong (R189). -/
def listCheck (s : State) (o : TreeOpenSt) (ids : List (BitVec 16)) : Status :=
  let d := parseDesc o.desc
  let mine := fun (e : BitVec 16) => decide (e.toNat < 0x4800) &&
    (e.toNat / 72 != s.fab.rack.toNat || (portBound s (e.toNat % 72) && portTenant s (e.toNat % 72) == o.tenant.toNat))
  let rising := (ids.zip (ids.drop 1)).all (fun x => decide (x.1.toNat < x.2.toNat))
  let opener := if d.root = 0xFFFF then 0 else d.root
  if !ids.all mine then .accessDenied
  else if !rising || !d.fieldsOk || d.handle != o.handle.toNat || (ids[opener]?) != some (BitVec.ofNat 16 (slotEp s o.port)) then
    .malformed
  else if !(ctxsOf s o.tenant o.handle.toNat).isEmpty || (openOf s o.tenant o.handle.toNat).isSome then .malformed
  else .done

/-- The member list digest in bytes 40 to 47 of a TREE_OPEN between devices (R202). -/
def listDigest (ids : List (BitVec 16)) : Bytes := (sha384 (ids.flatMap (fun e => beBytes 2 e.toNat))).take 8

/-- The descriptor a TREE_OPEN between devices carries. -/
def openPayload (o : TreeOpenSt) (ids : List (BitVec 16)) : Bytes :=
  o.desc.take 40 ++ listDigest ids ++ o.desc.drop 48

/-- The member list has been read: the checks, this device's nodes, and TREE_OPEN to every other host (R189). -/
def listRead (o : TreeOpenSt) (s : State) : State :=
  let d := parseDesc o.desc
  let bs := (o.parts.mergeSort (fun a b => decide (a.1 * 2 ^ 44 + a.2.1 ≤ b.1 * 2 ^ 44 + b.2.1))).flatMap (·.2.2)
  let ids := (List.range d.members).map (fun i => BitVec.ofNat 16 (beField bs (2 * i) 2))
  let chk := listCheck s o ids
  if o.status != .done then endOpen o o.status s
  else if chk != .done then endOpen o chk s
  else match collReserve o.tenant none o.desc ids s with
    | .error e => endOpen o .noContext (noteNoRoom e s)
    | .ok s =>
      let others := otherHosts s ids
      let o' := { o with ids := ids, wait := others, listed := true, parts := [] }
      if others.isEmpty then endOpen o' .done s
      else
        let s := modOpen o.port o.reqId (fun _ => o') s
        each others (fun n s =>
          submit (collCtl s o.tenant o.handle.toNat 0x45 0x10 (epOfNode n) 0 (ids.length - 1) 0 (openPayload o ids)) s) s

/-- One read of the member list has ended; with the last the list is there (R189). -/
def listPart (p id run : Nat) (st : Status) (data : List (Nat × Bytes)) (s : State) : State :=
  match openBy s p id with
  | none => s
  | some o =>
    let o' := { o with left := o.left - 1, status := worse o.status st, parts := o.parts ++ data.map (fun x => (run, x)) }
    let s := modOpen p id (fun _ => o') s
    if o'.left = 0 then listRead o' s else s

/-- READ frames of the member list, one run a page, as the tenant (R189). -/
def listFrames (s : State) (tenant : BitVec 12) (d : Desc) : Nat → Nat → Nat → Except Status (List (Nat × List Frame))
  | 0, _, _ => .ok []
  | fuel + 1, fva, n =>
    if n = 0 then .ok []
    else
      let k := Nat.min n (2 ^ 21 - fva % 2 ^ 21)
      match moveSlot s (pageKeyOf tenant.toNat fva) .clean with
      | .error st => .error st
      | .ok w =>
        let x := (slotW w).fpaOf fva
        if !(slotW w).wf then .error .malformed
        else if !(slotW w).r then .error .accessDenied
        else
          let fs := (cutFrames (k / 512 + 2) (x.2 % 2 ^ 44) k).map (fun a =>
            ({ type := tReq, cls := 2, src := BitVec.ofNat 16 (memEp s), dst := BitVec.ofNat 16 x.1, plane := s.fab.plane
               tenant := tenant, opc := 1, len := BitVec.ofNat 10 a.2
               mid := midOf (x.2 / 2 ^ 44 * 2 ^ 44 + a.1) d.keyidx d.keytag } : Frame))
          match listFrames s tenant d fuel ((fva + k) % 2 ^ 64) (n - k) with
          | .error st => .error st
          | .ok rest => .ok ((x.1, markEnds fs) :: rest)

/-- The member list is read: one READ to each endpoint its pages lie at (R189). -/
def readList (o : TreeOpenSt) (runs : List (Nat × List Frame)) (s : State) : State :=
  let s := modOpen o.port o.reqId (fun o => { o with left := runs.length }) s
  if runs.isEmpty then listRead o s
  else each runs.zipIdx (fun x s => sendReq (.treeList o.port o.reqId x.2)
    ⟨BitVec.ofNat 16 (memEp s), BitVec.ofNat 16 x.1.1, false, o.tenant⟩ 1 x.1.2 s) s

/-- A TREE_OPEN arrives (R189). -/
def takeTreeOpen (p : Nat) (m : AttMsg) (s : State) : State :=
  onMsg p m (fun s =>
    let id := nextOut s p
    let d := parseDesc m.payload
    let ten := collTenant s p
    let s := addColl p m s
    let bad := !collFormat m || m.atop != 0x10 || !bitOf d.planes s.fab.plane.toNat || !fvaOk d.fva ||
      (d.fva.testBit 63 && bitsOf d.fva 60 3 != s.fab.plane.toNat)
    if !portBound s p then endOut p id .fenced [] (raiseCol evColOpenFail p s)
    else if bad then endOut p id .malformed [] (raiseCol evColOpenFail p s)
    else
      let o : TreeOpenSt := { tenant := ten, handle := BitVec.ofNat 32 (AttHandle m), port := p, reqId := id, desc := m.payload }
      let s := notePages ten.toNat d.fva (2 * d.members) { s with coll := { s.coll with opens := s.coll.opens ++ [o] } }
      match listFrames s ten d 3 d.fva (2 * d.members) with
      | .error st => endOpen o st s
      | .ok runs => readList o runs s) s

/-- A hosting device receives TREE_OPEN: it reserves all its nodes or none, and answers (R189). -/
def treeOpenCtlAt (f : Frame) (ids : List (BitVec 16)) (s : State) : State :=
  let d := parseDesc f.payload
  let foreign := ids.any (fun e => e.toNat / 72 == s.fab.rack.toNat &&
    !(portBound s (e.toNat % 72) && portTenant s (e.toNat % 72) == f.tenant.toNat))
  let reply := fun (st : Nat) (s : State) => submit (collCtl s f.tenant f.handle 0x46 0x10 f.src.toNat 0 0 0 [BitVec.ofNat 8 st]) s
  if listDigest ids != slice f.payload 40 8 || !(ctxsOf s f.tenant f.handle).isEmpty || !d.fieldsOk || d.members != ids.length then
    reply Status.malformed.code s
  else if foreign then reply Status.accessDenied.code s
  else match collReserve f.tenant none f.payload ids s with
    | .error e => reply Status.noContext.code (noteNoRoom e s)
    | .ok s => reply 0 s

/-- A TREE_REPLY arrives at the opening device (R189). -/
def treeReplyAt (f : Frame) (s : State) : State :=
  match openOf s f.tenant f.handle with
  | none => s
  | some o =>
    let n := f.src.toNat - 0x4800
    if !o.wait.contains n then s
    else
      let st := beField f.payload 0 1
      let code := if st = Status.accessDenied.code then Status.accessDenied
        else if st = Status.malformed.code then .malformed else .noContext
      let o' := { o with wait := o.wait.erase n, yes := if st = 0 then o.yes ++ [n] else o.yes
                         refused := if st = 0 then o.refused else some (o.refused.getD code) }
      let s := modOpen o.port o.reqId (fun _ => o') s
      if o'.wait.isEmpty then endOpen o' (o'.refused.getD .done) s else s

/-- Not every device replied within 50 µs (R189). -/
def treeOpenExpire (tenant : BitVec 12) (handle : Nat) (s : State) : State :=
  match openOf s tenant handle with
  | some o => if o.wait.isEmpty then s else endOpen o .targetUnreachable s
  | none => s

/-- TREE_CLOSE on this plane: an active instance aborts, the windows are freed here and at the other hosts (R187). -/
def takeTreeClose (p : Nat) (m : AttMsg) (s : State) : State :=
  onMsg p m (fun s =>
    let id := nextOut s p
    let ten := collTenant s p
    let h := AttHandle m
    let s := addColl p m s
    let mine := (ctxsOf s ten h).filter (fun x => x.2.alm.isNone)
    if !portBound s p then endOut p id .fenced [] s
    else if !collFormat m || m.atop != 0x11 then endOut p id .malformed [] s
    else match mine with
      | [] => endOut p id .noContext [] s
      | x :: _ =>
        let s := freeHandle ten h (fun x => x.alm.isNone) s
        let s := each (otherHosts s x.2.ids) (fun n s => submit (collCtl s ten h 0x47 0x11 (epOfNode n) 0 0 0 []) s) s
        endOut p id .done [] s) s

/-- TREE_RELEASE arrives (R187). -/
def treeReleaseAt (f : Frame) (s : State) : State := freeHandle f.tenant f.handle (fun x => x.alm.isNone) s

/-- COLL_ABORT arrives over an F-port or the chain: it goes on with its status (R168, R199). -/
def collAbortAt (f : Frame) (s : State) : State :=
  abortHandle f.tenant f.handle (BitVec.ofNat 32 (beField f.payload 0 4)) ((Status.ofCode f.status.toNat).getD .aborted) [] s

/-- A Repex Control frame of a collective has the sub-type and the payload of its kind (R180, R202). -/
def collCtlOk (f : Frame) : Bool :=
  let a := f.atop.toNat
  let n := f.payload.length
  if f.opc == 0x45 then a == 0x10 && n == 64
  else if f.opc == 0x46 then a == 0x10 && n == 1
  else if f.opc == 0x47 then a == 0x11 && n == 0
  else if f.opc == 0x48 then decide (1 ≤ a ∧ a ≤ 7) && n == 4
  else true

/-- A collective frame has RED, the sub-type and the payload of its kind (R180, R202). -/
def collReqOk (f : Frame) : Bool :=
  let n := f.payload.length
  decide (1 ≤ f.atop.toNat ∧ f.atop.toNat ≤ 7) && f.red == (f.opc != 0x41) &&
  (if f.opc == 0x42 then n == 8
   else if f.opc == 0x43 then n == 16 && allZero (f.payload.drop 12)
   else if f.opc == 0x44 then n == 4
   else decide (1 ≤ n))

/-! ### Frames between nodes -/

/-- The session a collective frame came by has the features its collective needs. -/
def collFeatOk (s : State) (f : Frame) (feat : BitVec 8) : Bool :=
  match leafOf s f.tenant f.handle with
  | some l => let n := featNeed (refOf s l.2); Nat.land n feat.toNat == n
  | none => true

/-- The context of a handle that has a child covering these members. -/
def parentCtx (s : State) (f : Frame) : Option (Nat × Ctx) :=
  (ctxsOf s f.tenant f.handle).find? (fun x => x.2.kids.any (fun k => k.lo == f.loIdx && k.hi == f.hiIdx))

/-- The context of a handle that covers exactly these members and has a parent elsewhere. -/
def coverCtx (s : State) (f : Frame) : Option (Nat × Ctx) :=
  (ctxsOf s f.tenant f.handle).find? (fun x => x.2.lo == f.loIdx && x.2.hi == f.hiIdx && x.2.parent.isSome)

/-- A node takes no partial while its instance is aborted, and none beyond what it has granted its child; before the instance's
descriptor is known here its window is reckoned by what the context was opened with. DEDUCED, safe (log 100): R23 and R192 let no
partial be sent without a credit; one that is has no effect. -/
def takesPartial (s : State) (x : Ctx) (k : Nat) : Bool :=
  let d := if (refBytes s x).isEmpty then parseDesc x.descr else refOf s x
  x.state != .mismatch && x.state != .aborted && decide (d.onPlane k < x.freed + d.window)

/-- A reduction frame names an open context on this device: by its handle, and by the members its child, or the context itself,
covers (R23, R202). -/
def namesCtx (s : State) (f : Frame) : Bool :=
  if f.opc = 0x42 then
    match leafOf s f.tenant f.handle with
    | some x => !(parseDesc x.2.descr).reduces || (coverCtx s f).isSome
    | none => false
  else if f.opc = 0x44 then (coverCtx s f).isSome
  else (parentCtx s f).isSome

/-- A collective frame that the transport has taken has its effect; `found` is what the Cellar finds (R187, R191, R193, R214,
R232). -/
def collFrameAt (f : Frame) (found : SlotReads) (s : State) : State :=
  if f.opc = 0x40 then
    let r := gatherFrames f s
    match r.2, parentCtx r.1 f with
    | some bs, some x =>
      if takesPartial r.1 x.2 f.chunk then turnHandle found.next f.tenant f.handle (childPartial x.1 f.chunk bs found.own found.next.mat r.1)
      else r.1
    | _, _ => r.1
  else if f.opc = 0x41 then
    let r := gatherFrames f s
    match r.2 with
    | none => r.1
    | some bs =>
      if f.dst.toNat < 0x4800 then
        match leafOf r.1 f.tenant f.handle with
        | some l =>
          match l.2.memberAt (f.dst.toNat % 72) with
          | some m => memberResult l.1 m.index f.chunk f.loIdx bs r.1
          | none => r.1
        | none => r.1
      else match coverCtx r.1 f with
        | some x => resultDown 16 x.1 f.chunk f.cls bs r.1
        | none => r.1
  else if f.opc = 0x42 then
    let l := beField f.payload 0 8
    let seq := BitVec.ofNat 32 f.chunk
    match leafOf s f.tenant f.handle with
    | some x =>
      if !(parseDesc x.2.descr).reduces then serve x.1 (takeCredit x.1 f.loIdx l seq s)
      else match coverCtx s f with
        | some y => turnHandle found.next f.tenant f.handle (takeCredit y.1 f.loIdx l seq s)
        | none => s
    | none => s
  else if f.opc = 0x43 then
    match parentCtx s f with
    | some x => kidAgrees 20 x.1 f.loIdx (BitVec.ofNat 64 (beField f.payload 0 8)) (BitVec.ofNat 32 (beField f.payload 8 4)) s
    | none => s
  else if f.opc = 0x44 then
    match coverCtx s f with
    | some x => if x.2.seq.toNat = beField f.payload 0 4 then doneDown 16 x.1 s else s
    | none => s
  else s

/-- A tree edge or result request of a context has ended at its source (R198). -/
def collEnded (c : Nat) (st : Status) (s : State) : State :=
  if st == .done then s
  else if (ctxOf s c).state == .active then
    if st == .version then abortCtx c .version [] s
    else abortCtx c .aborted [] (hlth 1089 (256 * 1024) s)
  else s

/-! ### Result writes end (R198, R197) -/

/-- The counters of an arrival-ordered gather: word n, then word 0, both with ORD = 1, each write under a key of its own (R197). -/
def gatherWords (c : Nat) (m : MemberSt) (src n : Nat) (s : State) : State :=
  let d := parseDesc m.desc
  let base := d.fva + ceilDiv (d.members * pieceBytes d) 128 * 128
  memberWrite c m base (2 * n + 1) (leBytes 8 n) true (memberWrite c m (base + 8 * n) (2 * n) (leBytes 8 src) true s)

/-- A write of a result to a local member has ended. -/
def resultWritten (w : Nat × Nat × Nat × Status) (s : State) : State :=
  let c := w.1
  let i := w.2.1
  let key := w.2.2.1
  let st := w.2.2.2
  let x := ctxOf s c
  if x.state != .active then s
  else
    let left := ((x.due.find? (fun y => y.1 == i && y.2.1 == key)).map (·.2.2)).getD 1
    let mine := fun (y : Nat × Nat × Nat) => y.1 == i && y.2.1 == key
    let s := modCtx c (fun x => { x with due :=
      (if left ≤ 1 then x.due.filter (fun y => !mine y) else modFirst mine (fun y => (y.1, y.2.1, y.2.2 - 1)) x.due) }) s
    let s := if st == .done then s else modMember c i (fun m => { m with fate := some (m.fate.getD st) }) s
    if st == .targetLost || st == .fenced then abortCtx c .aborted [(i, st)] s
    else if left ≤ 1 ∧ 2 ^ 32 ≤ key then
      let s := modMember c i (fun m => { m with got := m.got + 1 }) s
      let x := ctxOf s c
      let d := refOf s x
      let src := keySource key
      let s := if d.op = 7 ∧ d.arrival then
          let s := modCtx c (fun x => { x with parts := x.parts ++ [(i, src)] }) s
          let y := ctxOf s c
          if (y.parts.filter (fun q => q == (i, src))).length = planeN s y then
            let s := modCtx c (fun x => { x with pieces := x.pieces ++ [(i, src)] }) s
            let n := ((ctxOf s c).pieces.filter (fun q => q.1 == i)).length
            match (ctxOf s c).member i with
            | some m => gatherWords c m src n s
            | none => s
          else s
        else s
      finishCtx c s
    else finishCtx c s

/-- Everything that moves by itself in the collectives of this device. -/
def collSettle (s : State) : State :=
  let ws := s.coll.writes
  let s := each ws (fun w s => resultWritten w s) { s with coll := { s.coll with writes := [] } }
  each (s.coll.ctxs.filter (fun x => x.2.state == .idle && !(x.2.waitDesc.isEmpty && x.2.waitKid.isEmpty))) (fun x s => moveOn x.1 s) s

/-! ### Rows of a context -/

/-- 1 ms without a chunk or descriptor of the SEQ (R187). -/
def clearCtx (c : Nat) (s : State) : State :=
  let x := ctxOf s c
  if x.state == .mismatch || x.state == .aborted then toIdle c s else s

/-- No chunk moved for IDLE_MS (R198). -/
def idleAbort (c : Nat) (s : State) : State :=
  if (ctxOf s c).state == .active then abortCtx c .aborted [] (raiseCol evColIdleAbort c s) else s

/-- A COLL_STEP releases a step of a job's collective (R200). -/
def stepColl (job : BitVec 32) (tenant : BitVec 12) (handle iter step : Nat) (late : Bool) (f : CelReads) (s : State) : State :=
  let xs := (ctxsOf s tenant handle).filter (fun x => x.2.alm == some job)
  let s := each xs (fun x s =>
    modCtx x.1 (fun x => { x with steps := x.steps ++ [(iter % 2 ^ 32, step)], late := x.late || late }) s) s
  turnHandle f tenant handle (each xs (fun x s => stepKept x.1 s) s)

/-- Landing room frees: waiting reservations are granted in order, and their contributions taken (R206). -/
def landingTurn (g : Nat) (s : State) : State :=
  let s := landGrant g s
  each (s.coll.ctxs.filter (fun x => x.2.state == .active && x.2.isLeaf)) (fun x s => serve x.1 s) s

/-- The patrol reads one line of a bank (R232): an error it finds is corrected or counted. -/
def celPatrol (bank : Nat) (ecc : Ecc) (s : State) : State :=
  if bitAt s celBase 1 && !s.arr.bankOut.contains bank then bankAborts bank (celError bank ecc s) else s

/-- Free every context an Almanac job took (R161, R187): an active instance aborts. -/
def freeJob (job : BitVec 32) (s : State) : State :=
  each (s.coll.ctxs.filter (fun x => x.2.state != .free && x.2.alm == some job)) (fun x s =>
    freeHandle x.2.tenant x.2.handle.toNat (fun y => y.alm == some job) s) s

end Sys2Proof.Machine
end

