-- ==== Sys2Proof/Machine/Time.lean ====
section
/-!
DEFINITION. Fabric Time (R148 to R156): measuring over links, the choice of a parent and the grandmaster,
the rack chain, the pulse per second and the servo's states.
-/

namespace Sys2Proof.Machine
open Sys2Proof

def modTime (f : TimeSt → TimeSt) (s : State) : State := { s with time := f s.time }

/-- The code of a servo state (R175). -/
def Servo.code : Servo → Nat
  | .freerun => 0 | .acquire => 1 | .locked => 2 | .holdover => 3 | .unlocked => 4

/-- The grandmaster candidates of FTM_GM_LIST in order (R149, R175). -/
def gmList (s : State) : List Nat :=
  [fieldOf s (ftmBase + 0x40) 0 11, fieldOf s (ftmBase + 0x40) 16 11, fieldOf s (ftmBase + 0x44) 0 11,
   fieldOf s (ftmBase + 0x44) 16 11].filter (fun n => n != 0x7FF)

/-- The median of offsets held in half ticks: the mean of the middle two, doubled once more, so in quarter
ticks (R150). -/
def median4 (xs : List Int) : Int :=
  let ys := xs.mergeSort (fun a b => decide (a ≤ b))
  let n := ys.length
  if n = 0 then 0 else ys.getD ((n - 1) / 2) 0 + ys.getD (n / 2) 0

/-- The servo input in quarter ticks. -/
def servoInput (s : State) : Int := median4 s.time.offsets

/-- 1 µs in quarter ticks. -/
abbrev usQuarters : Int := 16000

/-- FTM_CTRL.EN: the time servo is in service (R175). Out of service it takes no sample and keeps its state (DESIGN CHOICE,
unsafe, log 92). -/
def servoOn (s : State) : Bool := bitAt s ftmBase 0

/-- The device's error bound against the grandmaster in ps: in HOLDOVER it grows by 0.05 ns per ms, 1 ps in 80,000 ticks,
from its last locked value (R155). -/
def errNow (s : State) : Nat :=
  Nat.min 65535 (s.time.errPs.toNat + (if s.time.servo = .holdover then (now s - s.time.holdAt) / 80000 else 0))

/-- LOCKED loses its source of time: it holds its last frequency (R155). -/
def toHoldover (s : State) : State :=
  if servoOn s && s.time.servo == .locked then modTime (fun t => { t with servo := .holdover, holdAt := now s }) s else s

/-- An offset against the parent has been measured, in half ticks: the servo takes the median of the last 8,
and in FREERUN and ACQUIRE moves as R155 has it; leaving FREERUN starts the count (R148). Frequency steering is not seen at
the counter. -/
def servoSample (off2 : Int) (s : State) : State :=
  if !servoOn s then s
  else
  let s := modTime (fun t => { t with offsets := (off2 :: t.offsets).take 8 }) s
  let x := servoInput s
  let s := modTime (fun t => { t with offset := BitVec.ofInt 16 (x * 16) }) s
  match s.time.servo with
  | .freerun => modTime (fun t => { t with servo := .acquire, started := true }) s
  | .acquire =>
    if usQuarters ≤ x.natAbs then
      if s.alm.isEmpty then
        modTime (fun t => { t with count := t.count - BitVec.ofInt 64 (x / 4), offsets := [] }) s
      else raiseFtm evFtmStepRefused 0 (modTime (fun t => { t with servo := .unlocked }) s)
    else s
  | _ => s

/-- The F-port this plane-0 device takes its time from: fewest hops to the grandmaster, then the lowest
neighbour node; none beyond 16 hops (R149). -/
def bestParent (s : State) : Option Nat :=
  let ok := fun (x : Nat × (Nat × Nat × Nat × Bool)) => isFabricPort s x.1 && (portSt s x.1).state == .up &&
    decide (x.2.1 + 1 ≤ 16) && (x.2.2.2.1 == 2 || x.2.2.2.1 == 3 || x.2.2.2.2)
  let key := fun (x : Nat × (Nat × Nat × Nat × Bool)) => x.2.1 * 4096 + (((portSt s x.1).peerNode).map (·.toNat)).getD 2048
  ((s.time.heard.filter ok).foldl (fun m x => match m with
    | none => some x
    | some y => if key x < key y then some x else some y) none).map (·.1)

/-- The device's grandmaster changes (R149, R175). -/
def setGm (node : Nat) (s : State) : State :=
  if s.time.gmNode.toNat = node then s
  else raiseFtm evFtmGmChange 0 (modTime (fun t => { t with gmNode := BitVec.ofNat 11 node }) s)

/-- The device takes its time from port `q`, with the depth and grandmaster its neighbour names (R149). -/
def takeParent (q : Nat) (s : State) : State :=
  let h := tget (0, 0, 0, false) s.time.heard q
  let s := if s.time.parent.toNat = q then s
    else modTime (fun t => { t with parent := BitVec.ofNat 7 q, offsets := [] }) s
  setGm h.2.1 (modTime (fun t => { t with depth := BitVec.ofNat 5 (h.1 + 1) }) s)

/-- The peer of a port has changed: what was heard there is forgotten, and where it was the parent another is chosen, if
there is one (R149, R293). -/
def peerChanged (p : Nat) (s : State) : State :=
  let s := modTime (fun t => { t with heard := tput (0, 0, 0, false) t.heard p (0, 0, 0, false) }) s
  if s.fab.plane != 0 || s.time.isGm || s.time.parent.toNat != p then s
  else match bestParent s with
    | some q => takeParent q s
    | none => modTime (fun t => { t with parent := 0x7E, offsets := [] }) s

/-- A time group arrives on a port (R150): offset and delay of the link, and from the parent the servo. A time group from an
A-port is ignored (R289, R295). -/
def timeGroupAt (p : Nat) (g : TimeGroup) (s : State) : State :=
  if !isFabricPort s p then s
  else
  let tk := fun (x : Tick) => (x.toNat : Int)
  let d1 := tk g.rx - tk g.tx
  let d2 := tk g.echoRx - tk g.echoTx
  let echo := g.echoRx != 0
  let s := modTime (fun t => { t with
    lastRx := tput (0, 0) t.lastRx p (g.rx, g.tx)
    heard := tput (0, 0, 0, false) t.heard p (g.depth.toNat, g.gmNode.toNat, g.state.toNat, g.isGm)
    delays := if echo then tput 0 t.delays p (d1 + d2) else t.delays }) (modPort p (fun x => { x with peerSent := true }) s)
  if s.fab.plane != 0 || s.time.isGm then s
  else match bestParent s with
    | none => s
    | some q =>
      let s := takeParent q s
      if p = q ∧ echo then servoSample (d1 - d2) s else s

/-- A port sends its time group, from ALIGN on; both echoes are 0 on an A-port, and where the peer has sent none (R152, R289). -/
def timeGroupOut (p : Port) (s : State) : State :=
  let st := (portSt s p).state
  if st == .align || st == .negotiate || st == .keying || st == .up || st == .recover then
    let t := s.time
    let l := if isFabricPort s p && (portSt s p).peerSent then tget (0, 0) t.lastRx p else (0, 0)
    let q := tget 0 t.txSeq p
    emit (.timeGroup p { seq := q, state := BitVec.ofNat 3 t.servo.code, isGm := t.isGm, depth := BitVec.ofNat 8 t.depth.toNat
                         gmNode := t.gmNode, tx := t.count, echoRx := l.1, echoTx := l.2, rx := 0 })
      (modTime (fun t => { t with txSeq := tput 0 t.txSeq p (q + 1) }) s)
  else s

/-- The device has a valid source of time: it is grandmaster, or has a parent (R155). -/
def timeSource (s : State) : Bool :=
  s.time.isGm || (if s.fab.plane = 0 then decide (s.time.parent.toNat < 88) else s.time.parent == 0x7F && !s.time.broken)

/-- The slew ends with ERR_EST at or below 0.75 ns: LOCKED (R155). -/
def servoLocked (err : BitVec 16) (s : State) : State :=
  let ok := match s.time.servo with | .acquire | .holdover | .unlocked => true | _ => false
  if servoOn s && ok && timeSource s && (s.time.isGm || decide ((servoInput s).natAbs < usQuarters)) && decide (err.toNat ≤ 750) then
    modTime (fun t => { t with servo := .locked, errPs := err, everLocked := true }) s
  else s

/-- No valid time from the parent (R155): LOCKED holds its frequency. -/
def parentLostAt (s : State) : State :=
  if s.time.isGm then s
  else
    toHoldover (modTime (fun t => { t with heard := tput (0, 0, 0, false) t.heard t.parent.toNat (0, 0, 0, false),
                                           parent := 0x7E, offsets := [] }) s)

/-- The bound exceeds 0.75 ns in HOLDOVER (R155): LOCK_LOST, and the fabric manager is notified over Repex Control, with the
readiness word (R156). -/
def lockLostAt (s : State) : State :=
  if servoOn s && s.time.servo == .holdover && decide (750 < errNow s) then
    let e := BitVec.ofNat 16 (errNow s)
    let s := modTime (fun t => { t with servo := .unlocked, errPs := e }) s
    hlth 1090 (256 * 1024) (raiseFtm evFtmLockLost 0 (emit (.ctlPlane (.readiness (readyWord s))) s))
  else s

/-- delay_p of R151 in quarter ticks: d_(p−1) × L ÷ (d_0 + … + d_7), L in ps, a tick being 250 ps. -/
def chainDelay4 (s : State) (l : Nat) : Int :=
  let seg := fun n => fieldOf s (ftmBase + 0x20 + 4 * n) 0 16
  let sum := ((List.range 8).map seg).sum
  if sum = 0 then 0 else ((seg (s.fab.plane.toNat - 1) * l * 4 / (sum * 250) : Nat) : Int)

/-- A time code arrives on FTX_IN (R151): plane 0 measures the loop, every other plane follows it, one hop further from the
grandmaster. -/
def chainCode (code : ChainCode) (loop : BitVec 20) (s : State) : State :=
  let s := modTime (fun t => { t with broken := false, chainBrk := code.broken
                                      loopPs := (if s.fab.plane = 0 then loop else t.loopPs) }) s
  if s.fab.plane = 0 then s
  else
    let mine : Int := s.time.count.toNat
    let off4 := (mine - code.time.toNat) * 4 - chainDelay4 s loop.toNat
    let s := setGm code.gmNode.toNat (modTime (fun t => { t with parent := 0x7F, depth := code.depth + 1 }) s)
    servoSample (off4 / 2) s

/-- The rack chain is broken, here or at another plane (R170). -/
def chainBroken (s : State) : Bool := s.time.broken || (s.time.chainBrk.isSome && s.time.chainBrk != some s.fab.plane)

/-- No valid code on FTX_IN for 2 µs (R151). -/
def chainBreakAt (s : State) : State :=
  if s.time.broken then s
  else
    let s := hlth 1090 (64 * 1024) (raiseFtm evFtmChainBreak 0 (modTime (fun t => { t with broken := true }) s))
    let s := modTime (fun t => { t with parent := (if t.parent = 0x7F then 0x7E else t.parent) }) s
    toHoldover s

/-- A rising edge of FT_PPS_IN on the grandmaster (R153). -/
def ppsInAt (stamp : Tick) (s : State) : State :=
  if s.time.isGm && bitAt s ftmBase 1 then
    let r : Int := stamp.toNat % tickS
    let off := if tickS ≤ 2 * r.natAbs then r - tickS else r
    servoSample (2 * off) (modTime (fun t => { t with ppsMiss := 0 }) s)
  else s

/-- An expected pulse did not come; the third in a row raises PPS_MISS (R153). -/
def ppsMissAt (s : State) : State :=
  if s.time.isGm && bitAt s ftmBase 1 then
    let n := s.time.ppsMiss + 1
    let s := modTime (fun t => { t with ppsMiss := n }) s
    if n = 3 then raiseFtm evFtmPpsMiss 0 s else s
  else s

/-- FT_PPS_OUT is high for 400,000,000 ticks from each multiple of 4,000,000,000 (R153). -/
def ppsOutAt (s : State) : State :=
  let hi := bitAt s ftmBase 2 && decide (now s % tickS < 400000000)
  { s with chip := { s.chip with ppsOut := hi } }

/-- A device that has not locked by the bound of step 5 goes on without lock (R385): the readiness part is done
with discovery. -/
def lockBound (s : State) : State := modTime (fun t => { t with lockBound := true }) s

end Sys2Proof.Machine
end

