-- ==== Sys2Proof/Machine/Alm.lean ====
section
/-!
DEFINITION. The Almanac (R157 to R172): images and their checks, due times and shifts, the entries that fall
due, readiness checks and guards, slips, and scheduled windows.
-/

namespace Sys2Proof.Machine
open Sys2Proof

/-! ### Images (R157 to R160) -/

/-- One entry of an image (R158). -/
def parseEntry (b : Bytes) (o : Nat) : AlmEntry :=
  { type := BitVec.ofNat 8 (beField b o 1), guard := BitVec.ofNat 8 (beField b (o + 1) 1), offset := beField b (o + 2) 6
    arg := BitVec.ofNat 64 (beField b (o + 8) 8) }

def AlmEntry.bits (e : AlmEntry) (lo n : Nat) : Nat := bitsOf e.arg.toNat lo n

/-- The Almanac an image gives; slot and place in the ALM block are filled in when it is loaded. -/
def parseAlm (b : Bytes) : Almanac :=
  let v2 := beField b 4 1 == 2
  let mem := beField b 42 2
  let memPad := ceilDiv (2 * mem) 64 * 64
  let nd := beField b 40 2
  let ne := beField b 36 4
  let d0 := 128 + memPad
  let e0 := d0 + 64 * nd
  { slot := 0, job := BitVec.ofNat 32 (beField b 8 4), tenant := BitVec.ofNat 12 (beField b 12 2), format := beField b 4 1
    start := beField b 16 8, period := beField b 24 6, iters := beField b 32 4
    slipQ := if v2 then beField b 44 4 else 0, slipLead := if v2 then beField b 48 4 else 0
    slipLimit := if v2 then beField b 52 1 else 0, shiftFva := BitVec.ofNat 64 (if v2 then beField b 56 8 else 0)
    shiftKeyidx := BitVec.ofNat 16 (if v2 then beField b 64 2 else 0)
    shiftKeytag := BitVec.ofNat 32 (if v2 then beField b 66 4 else 0)
    members := (List.range mem).map (fun i => BitVec.ofNat 11 (beField b (128 + 2 * i) 2))
    descs := (List.range nd).map (fun i => slice b (d0 + 64 * i) 64)
    entries := (List.range ne).map (fun i => parseEntry b (e0 + 16 * i))
    digest := b.drop 80 |>.take 48, first := 0 }

/-- The image is as long as its counts say. -/
def almLenOk (b : Bytes) : Bool :=
  b.length == 128 + ceilDiv (2 * beField b 42 2) 64 * 64 + 64 * beField b 40 2 + 16 * beField b 36 4

/-- DIGEST matches (R157). -/
def almDigestOk (b : Bytes) : Bool := sha384 (b.take 80 ++ b.drop 128) == (b.drop 80).take 48

/-- The header's reserved fields and ranges (R157). -/
def almHeaderOk (s : State) (b : Bytes) (a : Almanac) : Bool :=
  let mem := beField b 42 2
  let ids := (List.range mem).map (fun i => beField b (128 + 2 * i) 2)
  allZero ((b.drop 5).take 3) && a.job != 0 && bitsOf (beField b 12 2) 12 4 == 0 && allZero ((b.drop 14).take 2) &&
  decide (4000 ≤ a.period) && allZero ((b.drop 30).take 2) && decide (1 ≤ beField b 36 4 ∧ beField b 36 4 ≤ 65536) &&
  decide (beField b 40 2 ≤ 4096) && decide (1 ≤ mem ∧ mem ≤ 2048) &&
  (if a.format = 2 then decide (40000 ≤ a.slipQ ∧ 20000 ≤ a.slipLead ∧ a.slipLead < a.slipQ ∧ a.slipLimit ≤ 15) &&
     allZero ((b.drop 53).take 3) && allZero ((b.drop 70).take 10) &&
     (a.shiftFva == 0 || (!a.shiftFva.getLsbD 63 && fvaOk a.shiftFva.toNat))
   else allZero ((b.drop 44).take 36)) &&
  ids.all (fun n => decide (n < 2048)) && ids.contains (nodeId s) &&
  allZero ((b.drop (128 + 2 * mem)).take (ceilDiv (2 * mem) 64 * 64 - 2 * mem))

/-- A MULTICAST descriptor (R196). -/
def mcastOk (d : Bytes) : Bool :=
  beField d 0 1 == 9 && allZero ((d.drop 1).take 3) && allZero ((d.drop 13).take 3) && bitsOf (beField d 16 8) 44 20 == 0 &&
  decide (1 ≤ beField d 24 8 ∧ beField d 24 8 ≤ 2 ^ 40) && decide (beField d 32 8 < 2 ^ 48) &&
  allZero ((d.drop 46).take 2) && decide (beField d 48 8 < 2 ^ 48) && allZero ((d.drop 56).take 8)

/-- A WATCH descriptor (R166). -/
def watchOk (d : Bytes) : Bool :=
  beField d 0 1 == 0x30 && allZero ((d.drop 1).take 7) && bitsOf (beField d 8 8) 44 20 == 0 && beField d 8 8 % 8 == 0 &&
  allZero ((d.drop 22).take 42)

/-- The members a collective image descriptor lists: LIST and the descriptors after it (R188). -/
def almIds (a : Almanac) (d : Bytes) : List (BitVec 16) :=
  let m := beField d 16 2
  let list := beField d 40 2
  let all := ((a.descs.drop list).take (ceilDiv m 32)).flatMap id
  (List.range m).map (fun i => BitVec.ofNat 16 (beField all (2 * i) 2))

/-- A collective image descriptor with its member list (R178, R188). -/
def almCollOk (a : Almanac) (d : Bytes) : Bool :=
  let x := parseDesc d
  let ids := almIds a d
  x.fieldsOk && x.arithOk && allZero ((d.drop 42).take 6) && decide (beField d 40 2 + ceilDiv x.members 32 ≤ a.descs.length) &&
  (ids.zip (ids.drop 1)).all (fun y => decide (y.1.toNat < y.2.toNat)) && ids.all (fun e => decide (e.toNat < 0x4800))

/-- The fields of an entry (R158, R159). -/
def entryOk (a : Almanac) (e : AlmEntry) : Bool :=
  let d := fun n => a.descs.getD n []
  let has := fun n => decide (n < a.descs.length)
  decide (e.offset < a.period) &&
  (match e.type.toNat with
   | 0 => e.arg == 0
   | 1 => decide (e.bits 0 7 < 88) && e.bits 7 1 == 0 && e.bits 8 12 == a.tenant.toNat && e.bits 20 12 == 0 &&
          decide (8 ≤ e.bits 32 32) && e.guard == 0
   | 2 => has (e.bits 0 12) && e.bits 20 44 == 0 && almCollOk a (d (e.bits 0 12))
   | 3 => has (e.bits 0 12) && e.bits 12 52 == 0 && mcastOk (d (e.bits 0 12))
   | 4 => has (e.bits 0 12) && e.bits 12 52 == 0 && moveFormat (d (e.bits 0 12))
   | 5 => e.guard != 0 && e.bits 4 12 == 0 && e.bits 28 4 == 0 && has (e.bits 16 12) &&
          (match e.bits 0 4 with
           | 1 => moveFormat (d (e.bits 16 12)) | 2 => almCollOk a (d (e.bits 16 12)) | 3 => watchOk (d (e.bits 16 12)) | _ => false)
   | _ => false)

/-- WINDOW entries of an image: port, offset and duration. -/
def winsOf (a : Almanac) : List (Nat × Nat × Nat) :=
  (a.entries.filter (fun e => e.type == 1)).map (fun e => (e.bits 0 7, e.offset, e.bits 32 32))

/-- No two WINDOWs of the image overlap on one port, the next iteration's included where there is one (R160). -/
def winsApart (a : Almanac) : Bool :=
  let ws := winsOf a
  let pairs := ws.zipIdx
  pairs.all (fun x => (a.iters == 1 || decide (x.1.2.2 ≤ a.period)) &&
    pairs.all (fun y => y.1.1 != x.1.1 || decide (y.2 ≤ x.2) ||
      (decide (x.1.2.1 + x.1.2.2 ≤ y.1.2.1) && (a.iters == 1 || decide (y.1.2.1 + y.1.2.2 ≤ x.1.2.1 + a.period)))))

/-- Check 4 of R160. -/
def almFields (s : State) (b : Bytes) (a : Almanac) : Bool :=
  let es := a.entries
  almLenOk b && almHeaderOk s b a && es.all (entryOk a) &&
  (es.zip (es.drop 1)).all (fun x => decide (x.1.offset ≤ x.2.offset)) &&
  es.all (fun e => e.type == 5 || e.guard == 0 ||
    es.any (fun c => c.type == 5 && c.guard == e.guard && decide (c.offset + a.slipLead ≤ e.offset))) &&
  winsApart a

/-- A WINDOW lies in every iteration within the time slots of tenant slot `n` on a port in time-division mode (R269, R271):
the iterations take at most 16,384 ÷ gcd(PERIOD, 16,384) places in the cycle. -/
def inSlots (s : State) (a : Almanac) (n : Nat) (w : Nat × Nat × Nat) : Bool :=
  let places := 16384 / Nat.max 1 (Nat.gcd a.period 16384)
  (List.range (if a.iters = 0 then places else Nat.min a.iters places)).all (fun i =>
    let t := a.start + i * a.period + w.2.1
    (List.range (Nat.min 64 ((t + w.2.2 - 1) / 256 + 1 - t / 256))).all (fun k => slotOwner s w.1 ((t / 256 + k) * 256) == n))

/-- Check 5 of R160. -/
def almRights (s : State) (a : Almanac) : Bool :=
  let port := fun (w : Nat × Nat × Nat) =>
    let p := w.1
    if isFabricPort s p then s.ten.shared || (match swcSlot s a.tenant.toNat with
      | some n => inSlots s a n w
      | none => false)
    else decide (p < 72) && portBound s p && portTenant s p == a.tenant.toNat
  let watch := fun (d : Bytes) => match goodRegion s (memEp s) (beField d 16 2) with
    | some r => r.admits a.tenant.toNat (beField d 18 4) 1 (beField d 8 8) 8 .r
    | none => false
  (slotOfTenant s a.tenant.toNat).isSome && (winsOf a).all port &&
  a.entries.all (fun e => !(e.type == 5 && e.bits 0 4 == 3) || watch (a.descs.getD (e.bits 16 12) []))

/-- Entries and descriptors in use, of a tenant or of all (R161). -/
def almUse (s : State) (tenant : Option (BitVec 12)) : Nat × Nat :=
  let as := s.alm.filter (fun a => match tenant with | some t => a.tenant == t | none => true)
  ((as.map (fun a => a.entries.length)).sum, (as.map (fun a => a.descs.length)).sum)

/-- Where a job's entries go in the ALM block: the lowest free run. -/
def almPlace (s : State) (n : Nat) : Option Nat :=
  let ends := 0 :: s.alm.map (fun a => a.first + a.entries.length)
  let free := fun x => decide (x + n ≤ 65536) &&
    s.alm.all (fun a => decide (x + n ≤ a.first ∨ a.first + a.entries.length ≤ x))
  (ends.filter free).foldl (fun m x => match m with | none => some x | some y => some (Nat.min x y)) none

/-- Check 6 of R160. -/
def almFits (s : State) (a : Almanac) : Bool :=
  let all := almUse s none
  let mine := almUse s (some a.tenant)
  let n := Nat.max 1 (admittedN s)
  decide (s.alm.length < 64) && !s.alm.any (fun x => x.job == a.job) &&
  decide (all.1 + a.entries.length ≤ 65536) && decide (all.2 + a.descs.length ≤ 4096) &&
  (almPlace s a.entries.length).isSome &&
  (s.ten.shared || (decide (mine.1 + a.entries.length ≤ 65536 / n) && decide (mine.2 + a.descs.length ≤ 4096 / n)))

/-- A window of `dx` ticks at `x` meets a window of `dy` ticks that another Almanac opens at offset `off` of some iteration,
under the shift that iteration has (R160, R162). -/
def meetsAt (b : Almanac) (off dy x dx : Nat) : Bool :=
  let y := b.start + off
  -- iterations whose window, shifted by at least the present and at most the full shift, can reach past x
  let j0 := (x - y - dy - shiftAll b) / b.period
  (List.range ((dx + dy + shiftAll b) / b.period + 2)).any (fun k =>
    let j := j0 + k
    let d := dueAt b j off
    (b.iters == 0 || decide (j < b.iters)) && decide (d < x + dx ∧ x < d + dy))

/-- A WINDOW of an image meets one of a loaded Almanac in some iteration (check 7 of R160). -/
def seriesMeet (a b : Almanac) (w v : Nat × Nat × Nat) : Bool :=
  let x := a.start + w.2.1
  let y := b.start + shiftAll b + v.2.1
  let bound := if a.iters ≠ 0 then a.iters
    else if b.iters ≠ 0 then (y + b.iters * b.period + v.2.2 - x) / a.period + 1
    else (y - x) / a.period + 2 + b.period / Nat.max 1 (Nat.gcd a.period b.period)
  decide (0 < a.period ∧ 0 < b.period) && (List.range bound).any (fun i => meetsAt b v.2.1 v.2.2 (x + i * a.period) w.2.2)

/-- Check 7 of R160. -/
def almWindowsFree (s : State) (a : Almanac) : Bool :=
  s.alm.all (fun b => (winsOf a).all (fun w => (winsOf b).all (fun v => w.1 != v.1 || !seriesMeet a b w v)))

/-- The collective descriptors an image's COLL_STEP entries name. -/
def almColls (a : Almanac) : List Bytes :=
  ((a.entries.filter (fun e => e.type == 2)).map (fun e => a.descs.getD (e.bits 0 12) [])).eraseDups

/-- Check 8 of R160: every context and window of the image, or none (R188). -/
def almContexts (a : Almanac) : List Bytes → State → Except NoRoom State
  | [], s => .ok s
  | d :: ds, s =>
    if !bitOf (beField d 18 1) s.fab.plane.toNat then almContexts a ds s
    else match collReserve a.tenant (some a.job) d (almIds a d) s with
      | .error e => .error e
      | .ok t => almContexts a ds t

/-- A MOVE that an earlier load of a job started runs on, but is none of the new load's (R161, R165). -/
def Move.ofOldLoad (job : BitVec 32) (m : Move) : Move :=
  match m.origin with
  | .almanac j iter d => if j == job then { m with origin := .almanac 0 iter d } else m
  | _ => m

/-- ALM_LOAD on its image: the checks of R160 in order, then the allocation as one step. -/
def almLoad (c : Nat) (b : Bytes) (s : State) : State :=
  let a := parseAlm b
  -- a load that fails is reported by the collective engine as well (R204)
  let fails := fun (st : Status) => mbxEnd c st [] (raiseCol evColOpenFail 0 s)
  if beField b 0 4 ≠ 0x414C4D4E then fails .malformed
  else if a.format ≠ 1 ∧ a.format ≠ 2 then fails .version
  else if !almDigestOk b || !almFields s b a then fails .malformed
  else if !almRights s a then fails .accessDenied
  else if !almFits s a || !almWindowsFree s a then fails .busy
  else match almContexts a (almColls a) s with
    | .error e => mbxEnd c .noContext [] (noteNoRoom e s)
    | .ok t =>
      if a.start < now s + 400000 then fails .busy
      else
        let slot := ((List.range 64).find? (fun n => !s.alm.any (fun x => x.slot == n))).getD 0
        let first := (almPlace s a.entries.length).getD 0
        -- the counters of the slot's former job and what its MOVEs ended with are the new job's no more (R165, R175)
        mbxAnswer c (beBytes 4 a.job.toNat) (fun _ => setWord (ftmBase + 0x400 + slot * 0x20 + 0x14) 0
          { t with alm := t.alm ++ [{ a with slot := slot, first := first }]
                   time := { t.time with slips := t.time.slips.filter (fun x => x.1 != a.job) }
                   mov := { t.mov with doneDesc := t.mov.doneDesc.filter (fun x => x.1 != a.job)
                                       moves := t.mov.moves.map (Move.ofOldLoad a.job) } }) s

/-! ### Jobs and due times (R162) -/

def almOf (s : State) (job : BitVec 32) : Option Almanac := s.alm.find? (fun a => a.job == job)

def modAlm (job : BitVec 32) (f : Almanac → Almanac) (s : State) : State :=
  { s with alm := modFirst (fun a => a.job == job) f s.alm }

/-- A commit is due: it takes effect before everything the Almanacs do at its tick (R25). -/
def commitDue (s : State) : Bool := s.hif.slots.any (fun x => x.2.pending && decide (x.2.tick.toNat ≤ replica .host s))

/-- A window of a running job is to open by tick `t`, or one is to close now (R25). -/
def windowsDue (s : State) (t : Nat) : Bool :=
  s.alm.any (fun a => a.state == .running && a.entries.zipIdx.any (fun x =>
    x.1.type == 1 && !a.fired.contains x.2 && decide (dueAt a a.iter x.1.offset ≤ t))) ||
  s.sw.wins.any (fun w => decide (w.close ≤ replica .core s))

/-- An entry of a running job, or a re-run of a check, is still to fire that comes before the one of index `g` of the ALM block at
tick `t`: it falls due earlier, or then with a lower index; WINDOWs are ordered among themselves (R25). -/
def firesBefore (s : State) (win : Bool) (t g : Nat) : Bool :=
  s.alm.any (fun b =>
    let before := fun (d k : Nat) => decide (d < t ∨ d = t ∧ b.first + k < g)
    (b.state == .running && b.entries.zipIdx.any (fun x => (x.1.type == 1) == win && !b.fired.contains x.2 &&
      before (dueAt b b.iter x.1.offset) x.2)) ||
    (!win && b.attempts.any (fun x => before x.2.2.2 x.2.1)))

/-- What R25 puts before the entry of index `g` of the ALM block at tick `t` has had its turn, of every loaded Almanac: commits; for
a WINDOW the WINDOWs before it, for another entry every window opening and closing and the entries before it. -/
def turnOpen (s : State) (win : Bool) (t g : Nat) : Bool :=
  !commitDue s && (win || !windowsDue s t) && !firesBefore s win t g

def guardOf (a : Almanac) (iter g : Nat) : GuardSt :=
  ((a.guards.find? (fun x => x.1 == iter && x.2.1 == g)).map (·.2.2)).getD .pending

def setGuard (job : BitVec 32) (iter g : Nat) (st : GuardSt) (s : State) : State :=
  modAlm job (fun a => { a with guards := (a.guards.filter (fun x => !(x.1 == iter && x.2.1 == g))) ++ [(iter, g, st)] }) s

/-- An iteration begins (R162): the job runs, or is done after its last. -/
def iterStart (job : BitVec 32) (s : State) : State :=
  match almOf s job with
  | none => s
  | some a =>
    let i := match a.state with | .loaded => 0 | _ => a.iter + 1
    let base := a.start + i * a.period
    if a.state == .done || decide (replica .core s < base + shiftAt a base) then s
    else if a.iters ≠ 0 ∧ a.iters ≤ i then modAlm job (fun a => { a with state := .done, fired := [] }) s
    else modAlm job (fun a => { a with state := .running, iter := i, fired := []
                                       guards := a.guards.filter (fun x => decide (i ≤ x.1 + 2)) }) s

/-- An entry that counts as completed or ended with LATE (R175). -/
def noteLate (a : Almanac) (s : State) : State := bump (cntFtmLates a.slot) (bump cntFtmLateCnt s)

/-! ### What the entries do -/

/-- The tenant owns bytes of this node's Stacks: its groups in isolated tenancy (R196, R238). -/
def ownsStacks (s : State) (tenant off n : Nat) : Bool :=
  decide (off + n ≤ sysPart) && (s.ten.shared ||
    (List.range 16).all (fun g => decide (off + n ≤ g * (9088 * 2 ^ 20) ∨ (g + 1) * (9088 * 2 ^ 20) ≤ off) ||
      (bitAt s (stkBase + 0x100 + g * 4) 0 && fieldOf s (stkBase + 0x100 + g * 4) 4 12 == tenant)))

/-- A read of this node's Stacks by the device itself: the bytes, or none where a line is out of service, poisoned or
uncorrectable (R82, R196); `lines` are those that do not read clean, counted from the first. -/
def ownRead (s : State) (off n : Nat) (lines : List (Nat × Ecc)) : Option Bytes :=
  let all := List.range ((off + n - 1) / 128 + 1 - off / 128)
  if all.any (fun i => lines.contains (i, .uncorrectable) ||
      offsetOut s 1 ((off / 128 + i) * 128) || poisoned s 1 ((off / 128 + i) * 128)) then none
  else some (memRead s.home.stk off n)

/-- What such a read finds is counted (R241). -/
def ownFound (off n : Nat) (lines : List (Nat × Ecc)) (s : State) : State :=
  each (lines.filter (fun x => decide (x.1 < (off + n - 1) / 128 + 1 - off / 128))) (fun x s => found 1 ((off / 128 + x.1) * 128) x.2 s) s

/-- Stores of the device into an accelerator's memory at an FVA with F = 0, for a tenant, in frames (R129). -/
def deviceStore (o : Origin) (tenant : BitVec 12) (ep fva key tag : Nat) (bs : Bytes) (cls : BitVec 2) (ord : Bool) :
    Nat → State → Option State
  | 0, _ => none
  | fuel + 1, s =>
    let rec frames : Nat → Nat → Bytes → Option (List Frame)
      | 0, _, _ => none
      | k + 1, a, rest =>
        if rest.isEmpty then some []
        else
          let n := Nat.min rest.length (2 ^ 21 - a % 2 ^ 21)
          match moveSlot s (pageKeyOf tenant.toNat a) .clean with
          | .error _ => none
          | .ok w =>
            let x := (slotW w).fpaOf a
            if !(slotW w).wf || !(slotW w).w then none
            else
              let fs := (cutFrames (n / 512 + 2) (x.2 % 2 ^ 44) n).map (fun y =>
                ({ type := tReq, cls := cls, ord := ord, src := BitVec.ofNat 16 (memEp s), dst := BitVec.ofNat 16 ep
                   plane := s.fab.plane, tenant := tenant, opc := 2, len := BitVec.ofNat 10 y.2
                   mid := midOf (x.2 / 2 ^ 44 * 2 ^ 44 + y.1) key tag
                   payload := slice rest (y.1 - x.2 % 2 ^ 44) y.2 } : Frame))
              (frames k ((a + n) % 2 ^ 64) (rest.drop n)).map (fun r => fs ++ r)
    match frames (fuel + 1) fva bs with
    | none => none
    | some fs =>
      let pages := (List.range ((fva % 2 ^ 21 + bs.length - 1) / 2 ^ 21 + 1)).map (fun i => fva + i * 2 ^ 21)
      some (sendReq o ⟨BitVec.ofNat 16 (memEp s), BitVec.ofNat 16 ep, ord, tenant⟩ 2 (markEnds fs)
        (each pages (fun a s => noteRead (pageKeyOf tenant.toNat a) .clean s) s))

/-- The FVA with F = 0 of a virtual offset at an endpoint (R57). -/
def fvaAt (ep voff : Nat) : Nat := ep % 2 ^ 15 * 2 ^ 48 + voff % 2 ^ 48

/-- A window shares its port's egress with those of a tenant: on a port in time-division mode a window is open in its own tenant's
slots only, and keeps no other tenant's from opening (R163, R271). -/
def winShares (s : State) (p : Nat) (tenant : BitVec 12) (w : OpenWin) : Bool :=
  w.port == p && (!tdmAt s p || w.tenant == tenant)

/-- A WINDOW opens, or waits for the window open on its port (R156, R163). -/
def openWin (a : Almanac) (e : AlmEntry) (due : Nat) (s : State) : State :=
  let p := e.bits 0 7
  if s.time.servo == .unlocked && isFabricPort s p then s
  else
    let busy := s.sw.wins.any (fun w => w.isOpen && winShares s p a.tenant w)
    let w : OpenWin := { port := p, tenant := a.tenant, job := a.job, close := due + e.bits 32 32, isOpen := !busy }
    { s with sw := { s.sw with wins := s.sw.wins ++ [w] } }

/-- Windows of a port whose end has come close; the first that waits opens (R163), on a fabric port not while the device is
UNLOCKED (R156). Commits of the tick go first (R25). -/
def closeWins (p : Nat) (s : State) : State :=
  let t := replica .core s
  if commitDue s then s
  else
  let ws := s.sw.wins.filter (fun w => !(w.port == p && decide (w.close ≤ t)))
  let ws := if s.time.servo == .unlocked && isFabricPort s p then ws.filter (fun w => !(w.port == p && !w.isOpen)) else ws
  let free := fun (w : OpenWin) => w.port == p && !w.isOpen && !ws.any (fun v => v.isOpen && winShares s p w.tenant v)
  -- in time-division mode the first of each tenant, else the first
  let ws := (List.range (if tdmAt s p then 64 else 1)).foldl (fun ws _ =>
    modFirst (fun (w : OpenWin) => free w && !ws.any (fun v => v.isOpen && winShares s p w.tenant v)) (fun w => { w with isOpen := true }) ws) ws
  { s with sw := { s.sw with wins := ws } }

/-- The port of a MULTICAST is bound to its tenant (R196). -/
def McastPort.bound (s : State) (x : McastPort) : Bool :=
  clusterMode s (x.port / 8) == 0 && portBound s x.port && portTenant s x.port == x.tenant.toNat

/-- The bytes of a MULTICAST go to one receiver (R196). -/
def mcastStore (x : McastPort) (bs : Bytes) (s : State) : State :=
  let d := x.desc
  let ep := slotEp s x.port
  (deviceStore (.multicast x) x.tenant ep (fvaAt ep (beField d 32 8)) (beField d 40 2) (beField d 42 4) bs 1 false
    (bs.length / 2 ^ 21 + 2) s).getD s

/-- A port takes its copies of a MULTICAST at once: nothing of the tenant waits for its egress, and no earlier MULTICAST does
(R196, R273). -/
def mcastReady (s : State) (x : McastPort) : Bool :=
  (tget [] (egOf s x.port).queues (queueFor s x.tenant.toNat).1).isEmpty && !s.sw.lag.any (fun y => y.port == x.port)

/-- A MULTICAST from the Stacks (R196): to each selected A-port bound to the tenant; others are skipped and counted. What its
read finds goes to the ports that take it at once; for a lagging port the Stacks are read again. A failed read ends it with
TIER_FAILED; one fired late completes with LATE for its receivers (R168). DESIGN CHOICE, unsafe (log 93): bytes the tenant does
not own end it with ACCESS_DENIED; a port lags while frames of the tenant wait for its egress as the entry fires. -/
def fireMulticast (a : Almanac) (iter di : Nat) (late : Bool) (lines : List (Nat × Ecc)) (s : State) : State :=
  let d := a.descs.getD di []
  let src := beField d 16 8
  let len := beField d 24 8
  if !ownsStacks s a.tenant.toNat src len then emit (.entryEnded a.job iter di .accessDenied) s
  else match ownRead s src len lines with
    | none => emit (.entryEnded a.job iter di .tierFailed) (ownFound src len lines s)
    | some bs =>
      let s := ownFound src len lines (if late then emit (.entryEnded a.job iter di .late) s else s)
      each (bitsSet 72 (beField d 4 9)) (fun p s =>
        let x : McastPort := { tenant := a.tenant, job := a.job, iter := iter, idx := di, desc := d, port := p }
        if !x.bound s then bump cntColSkipCnt s
        else if mcastReady s x then mcastStore x bs s
        else { s with sw := { s.sw with lag := s.sw.lag ++ [x] } }) s

/-- Two ports are of one MULTICAST. -/
def McastPort.same (x y : McastPort) : Bool := x.job == y.job && x.iter == y.iter && x.idx == y.idx

/-- The Stacks are read again for the lagging port whose turn it is at an egress; `ecc` is what the read finds. A failed read
ends the entry with TIER_FAILED, and no done word is written any more (R196). None where no port lags there. -/
def lagTurn (e : Nat) (ecc : Ecc) (s : State) : Option State :=
  match s.sw.lag.find? (fun x => x.port == e) with
  | none => none
  | some x =>
    if !(tget [] (egOf s e).queues (queueFor s x.tenant.toNat).1).isEmpty then none
    else
      let src := beField x.desc 16 8
      let len := beField x.desc 24 8
      let s := { s with sw := { s.sw with lag := s.sw.lag.erase x } }
      let t := ownFound src len [(0, ecc)] s
      if !x.bound s then some (bump cntColSkipCnt s)
      else match ownRead s src len [(0, ecc)] with
        | some bs => some (mcastStore x bs t)
        | none =>
          let mine := t.trn.reqs.filter (fun r => match r.origin with | .multicast y => y.same x && !r.ended | _ => false)
          some (each mine (fun r s => endReq r.id .tierFailed s) (emit (.entryEnded x.job x.iter x.idx .tierFailed)
            { t with sw := { t.sw with lag := t.sw.lag.filter (fun y => !y.same x) } }))

/-- Every byte for a receiver is visible: ITER + 1 goes into its done word, with ORD = 1 (R196). -/
def multicastEnded (x : McastPort) (st : Status) (s : State) : State :=
  let d := x.desc
  if st != .done || beField d 48 8 == 0 then s
  else
    let ep := slotEp s x.port
    (deviceStore .record x.tenant ep (fvaAt ep (beField d 48 8)) (beField d 40 2) (beField d 42 4) (leBytes 8 (x.iter + 1)) 2 true 3 s).getD s

/-- An entry's operation starts (R159); `late` when it was held on a LATE guard (R168). -/
def fireEntry (a : Almanac) (iter : Nat) (e : AlmEntry) (due : Nat) (late : Bool) (lines : List (Nat × Ecc)) (f : CelReads)
    (s : State) : State :=
  match e.type.toNat with
  | 1 => openWin a e due s
  | 2 => stepColl a.job a.tenant (beField (a.descs.getD (e.bits 0 12) []) 4 4) iter (e.bits 12 8) late f s
  | 3 => fireMulticast a iter (e.bits 0 12) late lines s
  | 4 => almMove a.job iter (e.bits 0 12) a.tenant (a.descs.getD (e.bits 0 12) []) late s
  | _ => s

/-- The operation an entry would have started ends with a status for everyone it concerns (R168). -/
def endEntry (a : Almanac) (iter : Nat) (e : AlmEntry) (st : Status) (s : State) : State :=
  match e.type.toNat with
  | 2 => abortHandle a.tenant (beField (a.descs.getD (e.bits 0 12) []) 4 4) (BitVec.ofNat 32 iter) st [] s
  | 3 => emit (.entryEnded a.job iter (e.bits 0 12) st) s
  | 4 => { s with mov := { s.mov with doneDesc := s.mov.doneDesc ++ [(a.job, iter, e.bits 0 12, st)] } }
  | _ => s

/-- Entry `idx` of a job, of type `ty`, falls due: once what R25 puts before it has had its turn, it fires when its guard is
ARMED, is held when LATE, and ends when FAILED (R162, R168). -/
def entryTurnAt (job : BitVec 32) (idx ty : Nat) (lines : List (Nat × Ecc)) (f : CelReads) (s : State) : State :=
  match almOf s job with
  | none => s
  | some a =>
    match a.entries[idx]? with
    | none => s
    | some e =>
      let due := dueAt a a.iter e.offset
      if a.state != .running || e.type.toNat != ty || a.fired.contains idx || decide (replica .core s < due) ||
          !turnOpen s (e.type == 1) due (a.first + idx) then s
      else
        let s1 := modAlm job (fun a => { a with fired := idx :: a.fired }) s
        if e.guard = 0 then fireEntry a a.iter e due false lines f s1
        else match guardOf a a.iter e.guard.toNat with
          | .armed => fireEntry a a.iter e due false lines f s1
          | .late => modAlm job (fun a => { a with held := a.held ++ [(a.iter, idx)] }) s1
          | .failed st => endEntry a a.iter e st s1
          | .pending => s

/-! ### Readiness (R165 to R167) -/

/-- Chunks of a plane from number `lo` to below `hi`, as chunk numbers. -/
def planeChunksOf (d : Desc) (plane lo hi : Nat) : List Nat :=
  let n := Nat.max 1 d.planeList.length
  let i := d.planeList.findIdx (fun p => p == plane)
  ((List.range (hi - lo)).map (fun j => (lo + j) * n + i)).filter (fun k => decide (k < d.chunks))

/-- Every contribution of the current step of a collective has arrived here (R165, KIND 2). -/
def stepArrived (s : State) (a : Almanac) (iter : Nat) (d : Bytes) : Bool :=
  match leafOf s a.tenant (beField d 4 4) with
  | none => false
  | some l =>
    let x := l.2
    if x.seq.toNat ≠ iter % 2 ^ 32 ∨ !x.ran then false
    else if x.state == .idle then true
    else
      let r := refOf s x
      let cur := ((x.steps.filter (fun t => t.1 == iter % 2 ^ 32)).getLast?.map (·.2)).getD 0
      let ks := planeChunksOf r x.plane.toNat (cur * r.step) (if r.step = 0 then planeN s x else (cur + 1) * r.step)
      x.state == .active && x.members.all (fun m => (r.op == 3 && m.index != r.root) ||
        ks.all (fun k => x.seen.contains (m.index, k)))

/-- What a check finds: its condition holds, a failure has ended it, or neither. -/
inductive CheckRes where
  | holds | no | failed (st : Status)
  deriving DecidableEq, Repr

/-- Evaluate a CHECK_READY of an iteration (R165, R166). -/
def evalCheck (s : State) (a : Almanac) (iter : Nat) (e : AlmEntry) (ecc : Ecc) : CheckRes :=
  let r := e.bits 16 12
  let d := a.descs.getD r []
  match e.bits 0 4 with
  | 1 =>
    match s.mov.doneDesc.find? (fun x => x.1 == a.job && x.2.1 == iter && x.2.2.1 == r) with
    | some x => if x.2.2.2 = .done then .holds else .failed x.2.2.2
    | none => .no
  | 2 =>
    match leafOf s a.tenant (beField d 4 4) with
    | some l =>
      if (l.2.state == .mismatch || l.2.state == .aborted) && l.2.seq.toNat == iter % 2 ^ 32 then .failed l.2.status
      else if stepArrived s a iter d then .holds else .no
    | none => .no
  | _ =>
    match ownRead s (beField d 8 8) 8 [(0, ecc)], goodRegion s (memEp s) (beField d 16 2) with
    | some w, some g =>
      if g.admits a.tenant.toNat (beField d 18 4) 1 (beField d 8 8) 8 .r && decide (e.bits 32 32 ≤ leNat w) then .holds else .no
    | _, _ => .no

/-- What the read of a WATCH word's line finds is counted (R241). -/
def checkFound (a : Almanac) (e : AlmEntry) (ecc : Ecc) (s : State) : State :=
  if e.bits 0 4 = 3 then ownFound (beField (a.descs.getD (e.bits 16 12) []) 8 8) 8 [(0, ecc)] s else s

/-- SLIP_LIMIT, forced to 0 by a format 1 image, or by Transport 1.1 on this member's link to its time parent, or on any member's,
this one included, to its time parent or chain neighbour, which is a free value (R171, log 96). -/
def slipLimitOf (s : State) (a : Almanac) : Nat :=
  let p := s.time.parent.toNat
  if a.format = 1 ∨ (p < 88 ∧ (portSt s p).trev11) ∨
      a.members.any (fun n => Config.memberOld n) then 0 else a.slipLimit

/-! ### Slips (R167 to R172) -/

/-- The 32-byte payload of a SLIP notice (R169). -/
def slipBytes (m : SlipMsg) : Bytes :=
  beBytes 4 m.job.toNat ++ beBytes 4 m.iter.toNat ++ [m.guard, m.attempt] ++ List.replicate 6 0 ++ beBytes 8 m.tEff.toNat ++
  beBytes 8 m.shiftAfter.toNat

/-- The notice a payload gives; none for one of another length, with a reserved byte set, or with an ATTEMPT outside 1 to 15
(R5, R169). -/
def parseSlip (b : Bytes) : Option SlipMsg :=
  if b.length == 32 && allZero ((b.drop 10).take 6) && decide (1 ≤ beField b 9 1 ∧ beField b 9 1 ≤ 15) then
    some { job := BitVec.ofNat 32 (beField b 0 4), iter := BitVec.ofNat 32 (beField b 4 4), guard := BitVec.ofNat 8 (beField b 8 1)
           attempt := BitVec.ofNat 8 (beField b 9 1), tEff := BitVec.ofNat 64 (beField b 16 8)
           shiftAfter := BitVec.ofNat 64 (beField b 24 8) }
  else none

/-- The CTL frame of a SLIP notice to a node, in control class (R169). It belongs to no tenant (R437). -/
def slipFrame (s : State) (n path : Nat) (m : SlipMsg) : Frame :=
  ({ type := tCtl, cls := 0, red := false, first := true, last := true, src := BitVec.ofNat 16 (memEp s)
     dst := BitVec.ofNat 16 (epOfNode n), plane := s.fab.plane, tenant := 0, opc := 0x70, path := BitVec.ofNat 4 path, len := 32
     ttl := initTtl s, payload := slipBytes m } : Frame).seal

/-- The 16-byte shift record (R170). DESIGN CHOICE, unsafe (log 123): SHIFT and ITER stand most significant byte first. -/
def shiftRecord (sh iter g n : Nat) : Bytes := beBytes 8 sh ++ beBytes 4 iter ++ beBytes 1 g ++ beBytes 1 n ++ [0, 0]

/-- The plane-0 device writes the shift record to each of the job's accelerators in its rack (R170). DESIGN CHOICE, unsafe (log
124): those are the rack's A-ports that are bound to the job's tenant. -/
def writeShift (a : Almanac) (m : SlipMsg) (sh : Nat) (s : State) : State :=
  if s.fab.plane != 0 || a.shiftFva == 0 then s
  else
    let ports := (List.range 72).filter (fun p => clusterMode s (p / 8) == 0 && portBound s p && portTenant s p == a.tenant.toNat)
    each ports (fun p s =>
      let ep := slotEp s p
      (deviceStore .record a.tenant ep (fvaAt ep (a.shiftFva.toNat % 2 ^ 48)) a.shiftKeyidx.toNat a.shiftKeytag.toNat
        (shiftRecord sh m.iter.toNat m.guard.toNat m.attempt.toNat) 2 false 3 s).getD s) s

/-- Members of the job on this device's plane, this node left out; `far` keeps those of other racks only. -/
def slipPeers (s : State) (a : Almanac) (far : Bool) : List (BitVec 11) :=
  a.members.filter (fun n => n.toNat != nodeId s && n.toNat % 8 == s.fab.plane.toNat &&
    (!far || n.toNat / 8 != s.fab.rack.toNat))

/-- Slips are kept by T_EFF, those of one T_EFF in the order they came. -/
def putQuantum (q : Nat × Nat) : List (Nat × Nat) → List (Nat × Nat)
  | [] => [q]
  | x :: xs => if q.1 < x.1 then q :: x :: xs else x :: putQuantum q xs

/-- A slip is applied here once: it takes effect at T_EFF (R167). -/
def applySlip (a : Almanac) (m : SlipMsg) (s : State) : State :=
  let sh := Nat.max (shiftAll a + a.slipQ) m.shiftAfter.toNat
  let s := modAlm a.job (fun a => { a with quanta := putQuantum (m.tEff.toNat, sh - shiftAll a) a.quanta
                                           slipKeys := a.slipKeys ++ [(m.iter.toNat, m.guard.toNat, m.attempt.toNat)] }) s
  let s := raiseFtm evFtmSlip a.slot (bump (cntFtmSlips a.slot) s)
  writeShift a m sh s

/-- Pass a slip on: to FTX_OUT, back along the chain while it is broken (`back`), and to nodes of this plane, by the home
route and, from the sender, by the next as well (R134, R170). -/
def passSlip (m : SlipMsg) (peers : List (BitVec 11)) (twice back : Bool) (s : State) : State :=
  let s := emit (.chainSlip (slipBytes m)) s
  let s := if back then emit (.chainBack (slipBytes m)) s else s
  each peers (fun n s =>
    let path := homePath s (memEp s) (epOfNode n.toNat)
    let s := submit (slipFrame s n.toNat path m) s
    if twice then submit (slipFrame s n.toNat (path + 1) m) s else s) s

/-- A held entry whose condition did not hold by the next check ends with LATE (R168). -/
def endHeld (job : BitVec 32) (iter idx : Nat) (st : Status) (s : State) : State :=
  match almOf s job with
  | none => s
  | some a =>
    match a.entries[idx]? with
    | none => s
    | some e =>
      let s := modAlm job (fun a => { a with held := a.held.filter (fun h => !(h == (iter, idx))) }) s
      endEntry a iter e st (if st == .late then noteLate a s else s)

/-- A CHECK_READY is run: its first attempt in this iteration, or a re-run whose time has come (R167). While the schedule core,
which originates slips, is out, one that fails goes straight to LATE (R337). -/
def checkTurn (job : BitVec 32) (idx : Nat) (ecc : Ecc) (s : State) : State :=
  match almOf s job with
  | none => s
  | some a =>
    match a.entries[idx]? with
    | none => s
    | some e =>
      let again := (a.attempts.find? (fun x => x.2.1 == idx && decide (x.2.2.2 ≤ replica .core s))).filter
        (fun x => turnOpen s false x.2.2.2 (a.first + idx))
      let first := a.state == .running && !a.fired.contains idx && decide (dueAt a a.iter e.offset ≤ replica .core s) &&
        turnOpen s false (dueAt a a.iter e.offset) (a.first + idx)
      if e.type != 5 || (again.isNone && !first) then s
      else
        let iter := (again.map (·.1)).getD a.iter
        let n := (again.map (fun x => x.2.2.1)).getD 0
        let g := e.guard.toNat
        let s := modAlm job (fun a => { a with
          attempts := a.attempts.filter (fun x => !(x.1 == iter && x.2.1 == idx))
          fired := if again.isNone then idx :: a.fired else a.fired }) s
        -- entries of the iteration before, held on this guard, have had their time (R168)
        let old := if n = 0 then a.held.filter (fun h => h.1 < iter &&
            (match a.entries[h.2]? with | some x => x.guard == e.guard | none => false)) else []
        let s := each old (fun h s => match evalCheck s a h.1 e ecc with | .holds => s | _ => endHeld job h.1 h.2 .late s) s
        let res := evalCheck s a iter e ecc
        let s := checkFound a e ecc s
        match res with
        | .holds => setGuard job iter g .armed s
        | .failed st => setGuard job iter g (.failed st) s
        | .no =>
          if n < slipLimitOf s a ∧ coreSt s coreSched = .running then
            let m : SlipMsg := { job := a.job, iter := BitVec.ofNat 32 iter, guard := e.guard, attempt := BitVec.ofNat 8 (n + 1)
                                 tEff := BitVec.ofNat 64 (now s + a.slipLead)
                                 shiftAfter := BitVec.ofNat 64 (shiftAll a + a.slipQ) }
            let seen := a.slipKeys.contains (iter, g, n + 1)
            let s := passSlip m (slipPeers s a false) true (chainBroken s) (bump cntFtmSlipTxCnt s)
            let s := if seen then raiseFtm evFtmSlip a.slot s else applySlip a m s
            modAlm job (fun a => { a with attempts := a.attempts ++ [(iter, idx, n + 1, now s + a.slipQ)] }) s
          else raiseFtm evFtmLate a.slot (setGuard job iter g .late s)

/-- A notice of a job that is not loaded here has no effect, and goes on the first time it comes: to FTX_OUT, and back along the
chain where it came that way or the chain is broken (R151, R170). DEDUCED, safe (log 125): R172 drops the slips in flight of a job
torn down in that no member applies them; the relay of R151 makes no exception. -/
def relaySlip (via : Via) (m : SlipMsg) (s : State) : State :=
  let key := (m.job, m.iter.toNat, m.guard.toNat, m.attempt.toNat)
  if s.time.slips.contains key then s
  else passSlip m [] false (via == .back || chainBroken s) (modTime (fun t => { t with slips := t.slips ++ [key] }) s)

/-- A SLIP notice arrives (R167, R170). -/
def slipAt (via : Via) (payload : Bytes) (s : State) : State :=
  match parseSlip payload with
  | none => s
  | some m =>
    match almOf s m.job with
    | none => relaySlip via m s
    | some a =>
      if a.slipKeys.contains (m.iter.toNat, m.guard.toNat, m.attempt.toNat) then s
      else
        let s := if shiftAll a + a.slipQ < m.shiftAfter.toNat then raiseFtm evFtmDesync a.slot s else s
        let s := applySlip a m (bump cntFtmSlipRxCnt s)
        passSlip m (if via = .fport then [] else slipPeers s a true) false (via == .back || chainBroken s) s

/-- T_EFF of a slip is reached (R167). -/
def slipEffect (job : BitVec 32) (s : State) : State :=
  let t := replica .core s
  modAlm job (fun a =>
    let due := a.quanta.filter (fun q => decide (q.1 ≤ t))
    { a with shift := due.foldl (fun sh q => sh + q.2) a.shift, quanta := a.quanta.filter (fun q => !decide (q.1 ≤ t)) }) s

/-- An entry held on a LATE guard: it fires once its condition holds, and ends with LATE at the next
iteration's check (R168). -/
def heldTurn (job : BitVec 32) (idx : Nat) (found : HeldReads) (s : State) : State :=
  match almOf s job with
  | none => s
  | some a =>
    match a.held.find? (fun h => h.2 == idx), a.entries[idx]? with
    | some h, some e =>
      match a.entries.find? (fun c => c.type == 5 && c.guard == e.guard) with
      | none => s
      | some c =>
        let res := evalCheck s a h.1 c found.word
        let s := checkFound a c found.word s
        match res with
        | .holds =>
          let s := modAlm job (fun a => { a with held := a.held.filter (fun x => !(x == h)) }) (noteLate a s)
          fireEntry a h.1 e (now s) true found.lines found.next s
        | _ => if dueAt a (h.1 + 1) c.offset ≤ replica .core s then endHeld job h.1 h.2 .late s else s
    | _, _ => s

/-- Remove an Almanac at once: its entries held end with ABORTED, its windows not yet open stay shut, and its slips in flight
find no job to shift; those already applied here are not passed on again (R155, R161, R170, R172). -/
def unloadJob (job : BitVec 32) (s : State) : State :=
  match almOf s job with
  | none => s
  | some a =>
    let s := each a.held (fun h s => endHeld job h.1 h.2 .aborted s) s
    let s := freeJob job { s with alm := s.alm.filter (fun x => !(x.job == job))
                                  sw := { s.sw with wins := s.sw.wins.filter (fun w => w.isOpen || w.job != job) } }
    let s := modTime (fun t => { t with slips := t.slips ++ a.slipKeys.map (fun k => (job, k)) }) s
    if s.alm.isEmpty && s.time.servo == .unlocked then modTime (fun t => { t with servo := .acquire, offsets := [] }) s else s

/-- ALM_UNLOAD (R161). A JOB_ID that is not loaded ends with MALFORMED. -/
def almUnload (c : Nat) (inp : Bytes) (s : State) : State :=
  let job := BitVec.ofNat 32 (beField inp 0 4)
  if (almOf s job).isNone then mbxEnd c .malformed [] s else mbxEnd c .done [] (unloadJob job s)

end Sys2Proof.Machine
end

