-- ==== Sys2Proof/Machine/Routes.lean ====
section
/-!
DEFINITION. The plane as this device knows it: the links it and other nodes advertise (R380), hop counts and
routes over them (R382), the repair of routes when a link fails (R134), and the loss of endpoints and nodes
(R145, R198).
-/

namespace Sys2Proof.Machine
open Sys2Proof

/-! ### The graph -/

/-- The port counts as a link to the transport and to adverts: UP or RECOVER, as a fabric port (R292, R380). -/
def linkRuns (s : State) (p : Nat) : Bool :=
  isFabricPort s p && ((portSt s p).state == .up || (portSt s p).state == .recover)

/-- This device's own fabric links, by ascending port; an analysis port is out of the routes (R275). -/
def ownLinks (s : State) : List AdvLink :=
  (List.range 88).filterMap (fun p =>
    if linkRuns s p && !analysisPort s p then
      ((portSt s p).peerNode).map (fun n => ⟨BitVec.ofNat 8 p, n, BitVec.ofNat 8 (portSt s p).peerPort.toNat⟩)
    else none)

/-- Two adverts with the same NODE and different UNIT_IDs are held, this device's own counted (R381). -/
def conflict (s : State) (n : Nat) : Bool :=
  let us := (s.fab.db.filter (fun a => a.node.toNat == n)).map (·.unitId)
  let us := if n = nodeId s then s.fuses.serial :: us else us
  match us with
  | [] => false
  | u :: rest => rest.any (fun v => v != u)

/-- The advert held of another node. -/
def advertOf (s : State) (n : Nat) : Option Advert := s.fab.db.find? (fun a => a.node.toNat == n)

/-- The links a node advertises; none of a node in conflict (R381). -/
def linksOf (s : State) (n : Nat) : List AdvLink :=
  if conflict s n then []
  else if n = nodeId s then ownLinks s
  else ((advertOf s n).map (·.links)).getD []

/-- The node advertises TRANSIT = 1. -/
def transitOf (s : State) (n : Nat) : Bool :=
  if n = nodeId s then s.fab.transit else ((advertOf s n).map (·.transit)).getD false

/-- A link has been flooded as failed since the last computation of routes (R134), or ends at an analysis port here, which is
out of the routes (R275). -/
def linkDead (s : State) (n : Nat) (l : AdvLink) : Bool :=
  (n == nodeId s && analysisPort s l.port.toNat) || (l.peer.toNat == nodeId s && analysisPort s l.peerPort.toNat) ||
  s.fab.deadLinks.any (fun d => (d.1.toNat == n && d.2 == l.port.toNat) || (d.1 == l.peer && d.2 == l.peerPort.toNat))

/-- Both ends advertise the link (R380). -/
def linkBoth (s : State) (n : Nat) (l : AdvLink) : Bool :=
  !linkDead s n l &&
  (linksOf s l.peer.toNat).any (fun k => k.peer.toNat == n && k.port == l.peerPort && k.peerPort == l.port)

/-- The link may carry frames on their way to another node than its far end (R382). -/
def linkTransit (s : State) (n : Nat) (l : AdvLink) : Bool := transitOf s n && transitOf s l.peer.toNat

/-- Neighbours of a node over links that count, by ascending port. -/
def hops (s : State) (n : Nat) : List AdvLink :=
  ((linksOf s n).filter (linkBoth s n)).mergeSort (fun a b => decide (a.port.toNat ≤ b.port.toNat))

/-- Hop counts to node `d`, found breadth first from it: (node, hops). The links beyond the last one to `d`
must be transit links. -/
def distances (s : State) (d : Nat) : Nat → Nat → List Nat → List (Nat × Nat) → List (Nat × Nat)
  | 0, _, _, seen => seen
  | fuel + 1, k, frontier, seen =>
    let next := (frontier.flatMap (fun n =>
      ((hops s n).filter (fun l => n == d || linkTransit s n l)).map (fun l => l.peer.toNat))).eraseDups
    let next := next.filter (fun n => !seen.any (fun x => x.1 == n))
    if next.isEmpty then seen else distances s d fuel (k + 1) next (seen ++ next.map (fun n => (n, k + 1)))

/-- Hop counts to node `d` (at most 2,048 nodes, so as many levels suffice). -/
def distTo (s : State) (d : Nat) : List (Nat × Nat) := distances s d 2048 0 [d] [(d, 0)]

def distOf (ds : List (Nat × Nat)) (n : Nat) : Option Nat := (ds.find? (fun x => x.1 == n)).map (·.2)

/-- Every shortest path from `n` to `d`, `k` hops long, as port sequences in ascending order, the first 16. -/
def shortest (s : State) (d : Nat) (ds : List (Nat × Nat)) : Nat → Nat → List (List Nat)
  | 0, n => if n = d then [[]] else []
  | k + 1, n =>
    (((hops s n).filter (fun l => distOf ds l.peer.toNat == some k && (l.peer.toNat == d || linkTransit s n l))).flatMap
      (fun l => (shortest s d ds k l.peer.toNat).map (fun r => l.port.toNat :: r))).take 16

/-- The routes to a destination node (R382). -/
def computeRoutes (s : State) (d : Nat) : List (List Nat) :=
  match (hops s (nodeId s)).find? (fun l => l.peer.toNat == d) with
  | some l => [[l.port.toNat]]
  | none =>
    let ds := distTo s d
    match distOf ds (nodeId s) with
    | some k => shortest s d ds k (nodeId s)
    | none => []

/-- The node is reachable on this device's plane over the links the plane advertises (R149). -/
def canReach (s : State) (n : Nat) : Bool := n == nodeId s || !(computeRoutes s n).isEmpty

/-- The grandmaster of R149: the first candidate in LOCKED, HOLDOVER or FREERUN that is reachable on plane 0, its servo
state as reported, this device's as it is. -/
def gmChosen (states : List (BitVec 3)) (s : State) : Option Nat :=
  ((gmList s).zipIdx.find? (fun x =>
    let st := if x.1 = nodeId s then s.time.servo.code else ((states[x.2]?).getD 1).toNat
    canReach s x.1 && (st == 2 || st == 3 || st == 0))).map (·.1)

/-- The grandmaster is chosen anew, on plane 0: where it changes the one before is lost, and the device enters HOLDOVER; the
chosen device goes on from its own counter, which the first grandmaster starts (R148, R149, R155). -/
def gmHandover (states : List (BitVec 3)) (s : State) : State :=
  if s.fab.plane != 0 then s
  else match gmChosen states s with
    | none => s
    | some n =>
      let s := if s.time.gmNode.toNat = n then s else toHoldover s
      if n = nodeId s then
        if s.time.isGm then s
        else setGm n (modTime (fun t => { t with
          isGm := true, parent := 0x7E, depth := 0, offsets := [], started := true
          servo := (if t.servo == .freerun then .acquire else t.servo) }) s)
      else setGm n (modTime (fun t => { t with isGm := false }) s)

/-- Nodes with STATE STANDBY or READY in the database, less those in conflict (R381, R382). -/
def routable (s : State) : List (BitVec 11) :=
  (s.fab.db.filter (fun a => (a.state == 5 || a.state == 6) && !conflict s a.node.toNat)).map (·.node)

/-- Compute every route (R382). -/
def recompute (s : State) : State :=
  let s := { s with fab := { s.fab with deadLinks := [] } }
  { s with fab := { s.fab with routes := (routable s).map (fun n => (n, computeRoutes s n.toNat)) } }

/-! ### Route repair (R134) -/

/-- The links a route uses, as (node, port) of each sending end. -/
def routeLinks (s : State) : Nat → List Nat → List (Nat × Nat)
  | _, [] => []
  | n, p :: ps =>
    (n, p) :: (match (linksOf s n).find? (fun l => l.port.toNat == p) with
      | some l => routeLinks s l.peer.toNat ps
      | none => [])

/-- The other end of a link as far as it is known. -/
def farEnd (s : State) (n p : Nat) : Option (Nat × Nat) :=
  ((linksOf s n).find? (fun l => l.port.toNat == p)).map (fun l => (l.peer.toNat, l.peerPort.toNat))

/-- PATH values whose route is lost move onto surviving routes, the others stay (R134). DESIGN CHOICE, unsafe (log 85): the
k-th PATH value takes the surviving route number k modulo their count. -/
def remap (lost : List Nat → Bool) (rs : List (List Nat)) : List (List Nat) :=
  let left := rs.filter (fun r => !lost r)
  if left.isEmpty then []
  else rs.zipIdx.map (fun x => if lost x.1 then left.getD (x.2 % left.length) [] else x.1)

/-- Map the PATH values that used the link of a node's port onto the surviving routes. -/
def remapOff (n p : Nat) (s : State) : State :=
  let far := farEnd s n p
  let uses := fun (r : List Nat) => (routeLinks s (nodeId s) r).any (fun x => x == (n, p) || some x == far)
  trace 0x42 p 0 srcHw { s with fab := { s.fab with routes := s.fab.routes.map (fun x => (x.1, remap uses x.2)) } }

/-- The link of a node's port is lost until routes are computed anew (R134). -/
def repairRoutes (n p : Nat) (s : State) : State :=
  let t := remapOff n p s
  { t with fab := { t.fab with deadLinks := t.fab.deadLinks ++ [(BitVec.ofNat 11 n, p)] } }

/-- Frames queued for a failed link are lost; those internal originators still hold take another route. -/
def dropQueued (p : Nat) (s : State) : State :=
  let s := modEg p (fun x => { x with lane := [], control := [], queues := [], deficit := [] }) s
  let res := (s.sw.residue.map (fun x => (x.1, x.2.filter (fun y => !(y.1 == p))))).filter (fun x => !x.2.isEmpty)
  let mine := (s.sw.parked.filter (fun x => x.1 == p)).map (·.2)
  let s := { s with sw := { s.sw with residue := res, parked := s.sw.parked.filter (fun x => !(x.1 == p)) } }
  each mine submit s

/-- A port becomes an analysis port: its link leaves the routes. DEDUCED, unsafe (log 130): the frames and copies queued there
take other routes, since the port carries nothing but mirrored copies from then on (R275). -/
def leaveRoutes (p : Nat) (s : State) : State :=
  let s := remapOff (nodeId s) p s
  let x := egOf s p
  let fs := x.control ++ x.lane ++ x.unsched ++ s.sw.residue.flatMap (fun k => (k.2.filter (fun y => y.1 == p)).map (·.2))
  each fs submit (dropQueued p s)

/-- A port that no session targets any more is back in the routes (R275). -/
def returnPort (p : Nat) (s : State) : State :=
  if analysisPort s p || !isFabricPort s p then s
  else { s with fab := { s.fab with routes := (routable s).map (fun n => (n, computeRoutes s n.toNat)) } }

/-- The database has changed: before STANDBY the settle time starts afresh (R381, R386). -/
def unsettle (s : State) : State :=
  match s.fab.state with
  | .standby | .ready | .faulted => s
  | _ => { s with fab := { s.fab with settled := false, routed := false } }

/-- A fabric link of this device fails: its routes are repaired, the change is flooded (R134); before STANDBY the settle time
starts afresh (R386). -/
def fabricLinkFailed (p : Nat) (s : State) : State :=
  let s := repairRoutes (nodeId s) p s
  let s := dropQueued p s
  unsettle (emit (.ctlPlane (.linkFailed (BitVec.ofNat 11 (nodeId s)) p)) s)

/-! ### Loss of endpoints and nodes (R145, R198, R389) -/

/-- The endpoint's bit is set here: its sessions end with TARGET_LOST, and a local member's collectives
abort; a repeated notice is ignored (R145, R198, R391). -/
def quarHere (e : Nat) (s : State) : State :=
  if quarantined s e then s
  else
    let s := trace 0x40 e 0 srcHw { s with trn := { s.trn with quar := insertNat e s.trn.quar } }
    let s := freeEndpoint e .targetLost s
    if e < 0x4800 ∧ e / 72 = s.fab.rack.toNat then collPortLost (e % 72) .targetLost s else s

/-- The device itself finds an endpoint lost: it is quarantined here, on the plane, and the fabric manager
hears of it (R145, R394). -/
def quarFound (e : Nat) (s : State) : State :=
  if quarantined s e then s
  else notice .quarantine Status.targetLost.code e 0
    (emit (.ctlPlane (.quarantine (BitVec.ofNat 16 e))) (quarHere e s))

/-- Nodes this device reaches over any links, without passing through node `avoid`. -/
def reachFrom (s : State) (avoid : Nat) : Nat → List Nat → List Nat → List Nat
  | 0, _, seen => seen
  | fuel + 1, frontier, seen =>
    let next := ((frontier.flatMap (fun n => (hops s n).map (fun l => l.peer.toNat))).filter
      (fun n => n != avoid && !seen.contains n)).eraseDups
    if next.isEmpty then seen else reachFrom s avoid fuel next (seen ++ next)

/-- The node and every node reached only through it (R145). -/
def cutOff (s : State) (n : Nat) : List Nat :=
  let with_ := reachFrom s 2048 2048 [nodeId s] [nodeId s]
  let without := reachFrom s n 2048 [nodeId s] [nodeId s]
  n :: with_.filter (fun m => m != n && !without.contains m)

/-- The endpoints reached through a node on this plane: its fabric memory and its rack's accelerators. -/
def nodeEps (n : Nat) : List Nat := (0x4800 + n) :: (List.range 72).map (fun i => n / 8 * 72 + i)

/-- Collective contexts with an edge to a lost node abort, and tree opens that wait for it end (R198, R391). -/
def edgesLost (n : Nat) (s : State) : State :=
  let hit := s.coll.ctxs.filter (fun x => x.2.state == .active &&
    (x.2.parent == some n || x.2.kids.any (fun k => k.node == n)))
  let s := each hit (fun x s => hlth 1089 (256 * 1024) (abortCtx x.1 .aborted [] s)) s
  each (s.coll.opens.filter (fun o => o.wait.contains n)) (fun o s => treeOpenExpire o.tenant o.handle.toNat s) s

/-- A neighbour goes down (R145): its endpoints and those reached only through it, the nodes `gone` that were reached so
while its link still stood, are quarantined on this plane, and routes are computed anew over the links that are left. -/
def nodeDown (n : Nat) (gone : List Nat) (s : State) : State :=
  let s := notice .deviceDown 0 (0x4800 + n) 0 s
  let s := each gone (fun m s => each (nodeEps m) quarFound (edgesLost m s)) s
  let dead := (linksOf s n).map (fun l => (BitVec.ofNat 11 n, l.port.toNat))
  let s := { s with fab := { s.fab with deadLinks := s.fab.deadLinks ++ dead } }
  { s with fab := { s.fab with routes := (routable s).map (fun m =>
      (m, if gone.contains m.toNat then [] else computeRoutes s m.toNat)) } }

end Sys2Proof.Machine
end

