-- ==== Sys2Proof/Machine/Ports.lean ====
section
/-!
DEFINITION. The ports (R292 to R305): training, negotiation, equalisation, lane changes and RECOVER, retimers,
lasers and link keys.
-/

namespace Sys2Proof.Machine
open Sys2Proof

/-! ### Registers of a port (R307) -/

def prtEn (s : State) (p : Nat) : Bool := bitAt s (prtBase p) 0
def rateMax (s : State) (p : Nat) : Bool := bitAt s (prtBase p) 1
def allowFallback (s : State) (p : Nat) : Bool := bitAt s (prtBase p) 2
def retimerOn (s : State) (p : Nat) : Bool := decide (p < 72) && bitAt s (prtBase p) 3
def encPol (s : State) (p : Nat) : Nat := if isFabricPort s p then fieldOf s (prtBase p) 4 2 else 0
/-- Fewest lanes: 2^MIN_WIDTH. -/
def minLanes (s : State) (p : Nat) : Nat := 2 ^ fieldOf s (prtBase p) 6 2
def autoWiden (s : State) (p : Nat) : Bool := bitAt s (prtBase p) 8
/-- Most lanes WIDTH_CAP allows. -/
def capLanes (s : State) (p : Nat) : Nat := lanesOf (fieldOf s (prtBase p) 9 2)

/-- Physical lanes of a port: 8, and the spare on ports in optical fabric mode (R13). -/
def laneMask (s : State) (p : Nat) : Nat := if clusterMode s (p / 8) = 2 then 0x1FF else 0xFF

/-- The port is in optical fabric mode. -/
def isOptical (s : State) (p : Nat) : Bool := clusterMode s (p / 8) == 2

/-- Link states with codes of PRT_STATUS.STATE. -/
def PortState.code : PortState → Nat
  | .disabled => 0 | .detect => 1 | .equalise => 2 | .align => 3 | .negotiate => 4 | .keying => 5 | .up => 6
  | .recover => 7

/-- The cluster core of a port runs. While it does not, a port in training stays as it is (R334, R337). -/
def clusterRuns (s : State) (p : Nat) : Bool := coreSt s (7 + p / 8) == .running

/-! ### Dies and clocks behind a port (R10, R12, R15, R18) -/

/-- The I/O die that serves a port: E0 to E3 as 0 to 3, O0 and O1 as 4 and 5. -/
def dieOf (p : Nat) : Nat := if p < 72 then p / 18 else 4 + (p - 72) / 8

/-- The REFCLK_SD input that feeds a die (R15). -/
def sdOf (d : Nat) : Nat := [0, 1, 2, 3, 0, 2].getD d 0

/-- The port's die or its clock is lost. -/
def dieLost (s : State) (p : Nat) : Bool :=
  (tget {} s.chip.bridges (dieOf p)).down || s.chip.sdLost.contains (sdOf (dieOf p))

/-! ### Lanes -/

/-- The width code of a number of lanes. -/
def widthCode (n : Nat) : BitVec 2 := if n = 8 then 0 else if n = 4 then 1 else if n = 2 then 2 else 3

/-- The largest of 8, 4 and 2 that is at most `n`; 0 for none. -/
def widest (n : Nat) : Nat := if 8 ≤ n then 8 else if 4 ≤ n then 4 else if 2 ≤ n then 2 else 0

def maskNat (lanes : List Nat) : Nat := lanes.foldl (fun m k => m + 2 ^ k) 0

/-- A counter of the codec of a lane, by its offset: 0 before the lane has had a signal, and at the tick of its last clearing
(R308). -/
def codecCnt (s : State) (p k o : Nat) : Nat :=
  let since := tget 0 s.hif.rcAt o - 1
  if !(portSt s p).everLit.getLsbD k || now s = since then 0 else (Config.corrected o since (now s)).toNat

/-- Corrected symbols a lane has counted, as its counter shows them (R308). -/
def ceSyms (s : State) (p k : Nat) : Nat := codecCnt s p k (lnkBase p k + 8)

/-- The count of the marker groups a port sends, the same on all its lanes: by 1 for every group of 51.2 ns at the full rate,
102.4 ns at the fallback rate (R279, R284). DESIGN CHOICE, unsafe (log 134): groups are counted in Fabric Time. -/
def groupNow (s : State) (p : Nat) : BitVec 21 :=
  let x := portSt s p
  Config.groupBase p + x.groupTx + BitVec.ofNat 21 ((now s - x.groupAt) * 5 / (if x.tryFull then 1024 else 2048))

/-- The groups go on at another rate. -/
def groupRate (s : State) (p : Nat) (full : Bool) (x : PortSt) : PortSt :=
  if x.tryFull == full then x else { x with tryFull := full, groupTx := groupNow s p - Config.groupBase p, groupAt := now s }

/-- The `n` lanes of a mask with the fewest corrected symbols (R296). -/
def bestLanes (s : State) (p m n : Nat) : Nat :=
  let ls := bitsSet 9 m
  if ls.length ≤ n then m
  else maskNat ((ls.mergeSort (fun a b => decide (ceSyms s p a ≤ ceSyms s p b))).take n)

/-- The spare is trained and not in use. -/
def spareFree (x : PortSt) : Bool := x.locked.getLsbD 8 && !x.active.getLsbD 8

/-! ### Leaving UP and returning to DETECT -/

/-- Three DOWN groups with a reason (R299). -/
def downGroups (p reason : Nat) (s : State) : State :=
  if h : p < 88 then emits (List.replicate 3 (.linkDown ⟨p, h⟩ reason)) s else s

/-- What training and the link leave behind is gone; what is known of the peer and the attempts stays. -/
def PortSt.fresh (x : PortSt) (st : PortState) : PortSt :=
  { x with
    state := st, width := 3, fullRate := false, trev11 := false, enc := false, spareUsed := false, active := 0,
    order := [], off := 0, peerSent := false, late := false, ctrRx := none, ctrOld := none, locked := 0, signal := 0, settled := false, peerReady := false, peerAccepted := false, change := none,
    narrowDue := false, ueDue := [], wideDue := 0, secondLoss := false, delin := true, epochTx := false, epochRx := false, oldKey := false,
    keyed := false, authFails := [] }

/-- The transport or the Attach session loses a link that was UP or in RECOVER (R134, R30, R394). -/
def linkLost (p : Nat) (s : State) : State :=
  let x := portSt s p
  if x.state == .up || x.state == .recover then
    let s := modEg p (fun q => { q with rekeying := false, rekeyDue := false }) s
    let s := if isFabricPort s p then fabricLinkFailed p s else sessDown p .down s
    notice .linkDown 0 noEp (792 + p) (raisePrt p evPrtLinkDown s)
  else s

/-- A failed attempt at the rate tried: three in a row at the full rate lead to the fallback rate, and one at
the lowest allowed rate gives the port up (R292, R381). -/
def attemptFailed (s : State) (p : Nat) (x : PortSt) : PortSt :=
  let low := !(x.tryFull && allowFallback s p && rateMax s p)
  let n := if x.tryFull then x.failsFull + 1 else x.failsFull
  { x with failsFull := n, lowTried := x.lowTried || low, givenUp := x.givenUp || low }

/-- The rate tried after the next pass through DETECT (R292). -/
def nextRate (s : State) (p : Nat) (x : PortSt) : Bool :=
  if !rateMax s p then false
  else if x.tryFull then !(allowFallback s p && decide (3 ≤ x.failsFull))
  else x.peerRates.getLsbD 1

/-- The I3C bus that manages the retimers and laser modules on an A-port's side of the rack: A-ports 0 to 35 on bus 0, 36 to 71 on
bus 1 (R300), engine set O0 on bus 0 and O1 on bus 1 (R301). -/
def i3cBus (p : Nat) : Nat := if p < 72 then p / 36 else (p - 72) / 8

/-- The cluster core writes the presets of a port's retimer before DETECT (R300). -/
def retimerPresets (p : Nat) (s : State) : State :=
  if h : p < 72 then
    if retimerOn s p && clusterRuns s p && mgmtUp s then emit (.retimerPreset ⟨p, h⟩ (i3cBus p)) s else s
  else s

/-- Back to DETECT; `failed` says that an attempt to come up has failed. Each return counts a retrain. -/
def toDetect (p : Nat) (failed : Bool) (s : State) : State :=
  let x := portSt s p
  if x.state == .disabled || x.state == .detect then s
  else
    let training := x.state == .equalise || x.state == .align || x.state == .negotiate || x.state == .keying
    let s := linkLost p s
    let x := portSt s p
    let x := if failed && training then attemptFailed s p x else x
    let full := nextRate s p x
    let x := { groupRate s p full (x.fresh .detect) with failsFull := if full && !x.tryFull then 0 else x.failsFull }
    bump (cntPrtRetrainCnt p) (retimerPresets p (setPort p x s))

/-- DISABLED from any state, with three DOWN groups (R292, R299). -/
def stopPort (p : Nat) (s : State) : State :=
  if (portSt s p).state == .disabled then s
  else modPort p (fun x => x.fresh .disabled) (linkLost p (downGroups p 1 s))

/-- The device is past its link stage: a Catalogue is applied (R370, R375, R376). -/
def linksOn (s : State) : Bool :=
  s.fab.catalogue && (match s.fab.state with | .reset | .sprout | .recovery => false | _ => true)

/-- DISABLED to DETECT where PRT_CTRL.EN is 1 and nothing holds the port down (R292, R378, R379, R358). -/
def startPort (p : Nat) (s : State) : State :=
  let x := portSt s p
  if x.state == .disabled && prtEn s p && linksOn s && !x.heldDown && !x.forced then
    retimerPresets p (setPort p { groupRate s p (rateMax s p) (x.fresh .detect) with
      failsFull := 0, lowTried := false, givenUp := false, refused := false } s)
  else s

/-- PRT_CTRL.EN becomes 1. -/
def portEnSet (p : Nat) (s : State) : State := startPort p (setField (prtBase p) 0 1 1 s)

/-- PRT_CTRL.EN becomes 0. -/
def portEnClear (p : Nat) (s : State) : State := stopPort p (setField (prtBase p) 0 1 0 s)

/-- A mismatch holds a port DISABLED (R378, R379). -/
def holdPort (p : Nat) (s : State) : State := stopPort p (modPort p (fun x => { x with heldDown := true }) s)

/-! ### From DETECT to NEGOTIATE -/

/-- The port has light to work with: an optical port's laser module is there and enabled (R301). -/
def lasersOn (s : State) (p : Nat) : Bool := !isOptical s p || (tget {} s.lasers ((p - 72) / 2)).enabled

/-- Our receiver asks for a change of the peer's transmitter on a lane: it starts from a preset and then steps taps until it is
content (R294). PRESUMED, safe (log 58): which preset, which steps and how many are the receiver's own. -/
def coeffSend (p lane : Nat) (first : Bool) (s : State) : State :=
  let w := (Config.freeWord s.fresh).toNat
  let s := draw s
  if h : p < 88 ∧ lane < 9 then
    if first then emit (.linkCoeff ⟨p, h.1⟩ ⟨⟨lane, h.2⟩, 1, 0, BitVec.ofNat 8 (w % 8), 0⟩) s
    else if w % 3 = 0 then s
    else emit (.linkCoeff ⟨p, h.1⟩ ⟨⟨lane, h.2⟩, BitVec.ofNat 8 (1 + w % 3), BitVec.ofNat 8 (w / 4 % 4), 0, 0⟩) s
  else s

/-- Signal on at least 2 lanes for 1 ms: EQUALISE, where our receivers begin to set the peer's transmitters (R292, R294). -/
def signalAt (p : Nat) (lanes : BitVec 9) (s : State) : State :=
  let x := portSt s p
  let m := Nat.land lanes.toNat (laneMask s p)
  if x.state == .detect && clusterRuns s p && !x.refused && !x.lightOff && lasersOn s p && !dieLost s p && decide (2 ≤ popCount 9 m) then
    each (bitsSet 9 m) (fun k => coeffSend p k true)
      (setPort p { x with state := .equalise, signal := BitVec.ofNat 9 m, everLit := x.everLit ||| BitVec.ofNat 9 m } s)
  else s

/-- A lane is LOCKED (R287). -/
def lockAt (p lane : Nat) (s : State) : State :=
  let x := portSt s p
  if x.state == .disabled || x.state == .detect || !(laneMask s p).testBit lane || x.off.getLsbD lane then s
  else setPort p { x with locked := x.locked ||| BitVec.ofNat 9 (2 ^ lane) } s

/-- Lanes with a signal that are LOCKED: those able to run (R291, R292). -/
def PortSt.able (x : PortSt) : BitVec 9 := x.signal &&& x.locked

/-- The lanes are settled, and every segment of a retimer's link has trained; lanes not LOCKED are excluded: ALIGN (R292, R300). -/
def equaliseDone (p : Nat) (s : State) : State :=
  let x := portSt s p
  if x.state == .equalise && clusterRuns s p && !(retimerOn s p && x.present && !x.rtLock) &&
      decide (2 ≤ popCount 9 x.able.toNat) then
    setPort p { x with state := .align, settled := true } s
  else s

/-- The lanes that carry the port, of those that align: the lowest ones, the spare only where a lane lacks. -/
def alignWidth (s : State) (p : Nat) (m : Nat) : Nat := widest (Nat.min (popCount 9 m) (capLanes s p))

/-- The lanes align at an allowed width: NEGOTIATE (R292). -/
def alignDone (p : Nat) (lanes : BitVec 9) (s : State) : State :=
  let x := portSt s p
  let m := (lanes &&& x.able).toNat
  let w := alignWidth s p m
  if x.state == .align && clusterRuns s p && decide (minLanes s p ≤ w ∧ 2 ≤ w) then
    let act := maskNat ((bitsSet 9 m).take w)
    setPort p { x with state := .negotiate, active := BitVec.ofNat 9 act, order := (bitsSet 9 m).take w, width := widthCode w,
                       spareUsed := act.testBit 8 } s
  else s

/-! ### Planned changes of lanes and the width cap (R296, R298) -/

/-- Start a planned change: WIDTH goes out with an effective GROUP 16 groups ahead of the present count; `power` says that it is
for WIDTH_CAP. -/
def startLaneChange (p op m : Nat) (power : Bool) (s : State) : State :=
  let e := BitVec.ofNat 24 ((groupNow s p + 16).toNat)
  let s := modPort p (fun x => { x with change := some { op := op, mask := BitVec.ofNat 9 m, group := e, power := power } }) s
  if h : p < 88 then emit (.linkWidth ⟨p, h⟩ { op := BitVec.ofNat 8 op, mask := BitVec.ofNat 9 m, group := e, ok := false }) s else s

/-- Lanes turned off for power are turned on again and retrain, once the cap allows more than the port carries (R296). -/
def wakeLanes (p : Nat) (s : State) : State :=
  let x := portSt s p
  each (bitsSet 9 x.off.toNat) (fun k => coeffSend p k true) (setPort p { x with off := 0, signal := x.signal ||| x.off } s)

/-- Narrow to the cap, keeping the lanes with the fewest corrected symbols; it waits behind a pending switch or
RECOVER (R296, R298), and until a port on its way to UP is there (R358). -/
def narrowToCap (p : Nat) (s : State) : State :=
  let x := portSt s p
  let n := capLanes s p
  let s := if lanesOf x.width.toNat < n && x.off != 0 then wakeLanes p s else s
  let x := portSt s p
  if lanesOf x.width.toNat ≤ n then modPort p (fun x => { x with narrowDue := false }) s
  else if x.state == .recover || x.state == .negotiate || x.state == .keying || (x.state == .up && x.change.isSome) then
    setPort p { x with narrowDue := true } s
  else if x.state == .up then
    startLaneChange p 2 (bestLanes s p x.active.toNat n) true (setPort p { x with narrowDue := false } s)
  else s

/-! ### NEGOTIATE and KEYING -/

/-- The encryption the two policies give: none for a refusal (R293). -/
def encryption (mine peer : Nat) : Option Bool :=
  if peer = 3 then none
  else if mine = 0 then (if peer = 2 then none else some false)
  else if mine = 1 then some (peer == 2)
  else if peer = 0 then none else some true

/-- The peer states a revision of the transport that this port knows: 2.0 or 1.1, and 0 for an accelerator (R291). -/
def trevOk (s : State) (p : Nat) (c : Caps) : Bool :=
  if isFabricPort s p then c.trev == 0x20 || c.trev == 0x11 else c.trev == 0

/-- Why a peer is refused (R8, R293, R378): the event to raise, and whether a check of R378 failed. DESIGN CHOICE (log 57): for
a TREV that R291 does not define the event is ROLE_FAIL. -/
def capsRefusal (s : State) (p : Nat) (c : Caps) : Option (Nat × Bool) :=
  let role := c.role.toNat
  let unit := s.fab.cabling[8 + p]?
  let roleBad :=
    if !isFabricPort s p then
      role != 3 || c.port.toNat != s.fab.plane.toNat || (match unit with | some u => u != 0 && u != c.unitId | none => false)
    else
      (role != 2 && role != 4) || c.node.toNat % 8 != s.fab.plane.toNat ||
      (if clusterMode s (p / 8) = 1 then c.mode != 1 else !(c.mode == 2 || (c.mode == 0 && role == 4)))
  if roleBad then some (evPrtRoleFail, true)
  else if !trevOk s p c then some (evPrtRoleFail, false)
  else match encryption (encPol s p) c.enc.toNat with
    | none => some (evPrtEncFail, false)
    | some e => if e && s.ten.debug then some (evPrtEncFail, false) else none

/-- The port refuses its peer: it stays out of UP and retries after 10 s; a failed check of R378 sets MISMATCH. -/
def refusePeer (p : Nat) (why : Nat × Bool) (s : State) : State :=
  let s := if why.2 then { s with fab := { s.fab with mismatch := true } } else s
  raisePrt p why.1 (modPort p (fun x => { x with refused := true }) (toDetect p true s))

/-- The port comes up (R292, R293, R30). -/
def comeUp (p : Nat) (s : State) : State :=
  let x := portSt s p
  let me := ((x.peerNode.getD 0).zeroExtend 16, x.peerPort.zeroExtend 8, x.peerUnit)
  let changed := match x.lastUp with | some l => l != me | none => false
  let s := setPort p { x with state := .up, lastUp := some me, failsFull := 0, lowTried := false, givenUp := false
                              secondLoss := false } s
  let s := if x.narrowDue then narrowToCap p s else s
  let s := if !x.fullRate then raisePrt p evPrtFallback s else s
  let s := if changed then raisePrt p evPrtPeerChange s else s
  let s := if changed then peerChanged p s else s
  if isFabricPort s p then s
  else maybeHello p (modSess p (fun a => { a with refused := false, state := if a.state == .lost then .down else a.state }) s)

/-- CAPS accepted and both sides READY: the port goes to KEYING or UP. -/
def negotiated (p : Nat) (s : State) : State :=
  let x := portSt s p
  if x.state == .negotiate && clusterRuns s p && x.peerAccepted && x.peerReady then
    if x.enc then
      let s := setPort p { x with state := .keying } s
      if h : p < 88 then emit (.keying ⟨p, h⟩) s else s
    else comeUp p s
  else s

/-- Delineation is regained at a link group or a unit that passes its check (R286). -/
def regain (p : Nat) (s : State) : State :=
  if (portSt s p).delin then s else modPort p (fun x => { x with delin := true }) s

/-- A STATUS group (R290). -/
def statusAt (p : Nat) (ready : Bool) (s : State) : State :=
  let x := portSt s p
  if x.state == .negotiate || x.state == .align then
    negotiated p (setPort p { x with peerReady := ready } s)
  else s

/-- A CAPS group (R291, R293): recorded, then accepted or refused. -/
def capsAt (p : Nat) (c : Caps) (s : State) : State :=
  let x := portSt s p
  if x.state != .negotiate || !clusterRuns s p then s
  else
    let node := if c.role = 2 ∨ c.role = 4 then some (c.node.truncate 11) else none
    let s := setPort p { x with
      peerNode := node, peerPort := c.port.truncate 7, peerRole := c.role.truncate 3, peerMode := c.mode.truncate 2,
      peerUnit := c.unitId, peerRates := c.rates.truncate 2 } s
    match capsRefusal s p c with
    | some why => refusePeer p why s
    | none =>
      let old := c.trev == 0x11
      let full := x.tryFull && rateMax s p && c.rates.getLsbD 1 && !old
      let enc := (encryption (encPol s p) c.enc.toNat).getD false
      negotiated p (modPort p (fun x => { x with peerAccepted := true, fullRate := full, trev11 := old, enc := enc }) s)

/-- What a port sends in a STATUS group: READY once it has accepted its peer. -/
def readySent (x : PortSt) : Bool := x.peerAccepted

/-- The CAPS a port sends (R291). -/
def ownCaps (s : State) (p : Nat) : Caps :=
  { role := if isFabricPort s p then 2 else 1
    rates := if rateMax s p then 3 else 1
    trev := 0x20
    enc := BitVec.ofNat 2 (encPol s p)
    node := BitVec.ofNat 16 (nodeId s)
    port := BitVec.ofNat 8 p
    mode := BitVec.ofNat 8 (clusterMode s (p / 8))
    unitId := s.fuses.serial
    lanes := (portSt s p).able }

/-- The link groups of every 10 µs: STATUS from ALIGN to UP, CAPS in NEGOTIATE (R290). -/
def linkGroups (p : Port) (s : State) : State :=
  let x := portSt s p
  let st := x.state
  let s := if st == .align || st == .negotiate || st == .keying || st == .up then
      emit (.linkStatus p (BitVec.ofNat 8 st.code) (readySent x)) s else s
  if st == .negotiate then emit (.linkCaps p (ownCaps s p)) s else s

/-- The exchange of a rekey has agreed new keys for both directions: they hold from a counter value the exchange names, with the
epochs flipped, and the receiver keeps the old key for 1 ms (R305). -/
def rekeyed (p : Nat) (s : State) : State :=
  let c := (Config.freeWord s.fresh).toNat % 2 ^ 62
  modPort p (fun x => { x with epochTx := !x.epochTx, epochRx := !x.epochRx, oldKey := true
                               ctrOld := x.ctrRx, ctrRx := none }) (modEg p (fun q => { q with ctrTx := c, rekeying := false }) (draw s))

/-- The keying exchange ends (R305): keys agreed, or the port retrains; a rekey in UP goes by the same exchange. Until the next
power-on reset after a debug unlock no link is encrypted (R332). -/
def keyingEnd (p : Nat) (verified : Bool) (s : State) : State :=
  let x := portSt s p
  let ok := verified && !s.ten.debug
  if x.state == .keying then
    if ok then comeUp p (setPort p { x with keyed := true, epochTx := false, epochRx := false, ctrRx := none, ctrOld := none }
        (modEg p (fun q => { q with ctrTx := 0 }) s))
    else raisePrt p evPrtEncFail (toDetect p true s)
  else if (egOf s p).rekeying then
    if ok then rekeyed p s else raisePrt p evPrtEncFail (toDetect p true s)
  else s

/-! ### Equalisation (R294) -/

/-- Taps of a lane's transmitter: PRE2, PRE1, MAIN, POST1; MAIN is 0x40 at reset (R308). -/
def tapsOf (x : PortSt) (lane : Nat) : List (BitVec 8) := tget [0, 0, 0x40, 0] x.taps lane

/-- The amplitude cap: 1,100 mV, where 64 units of swing give 1,000 mV (R294, R436). -/
def tapsOk (ts : List (BitVec 8)) : Bool := decide ((ts.map (fun t => t.toInt.natAbs)).sum * 1000 ≤ 1100 * 64)

/-- What a COEFF request asks for. -/
def coeffAsk (ts : List (BitVec 8)) (c : Coeff) : List (BitVec 8) :=
  let k := c.tap.toNat % 4
  if c.req = 1 then (List.range 4).map (fun t => Config.presetTap (c.preset.toNat % 8) t)
  else if c.req = 2 then ts.set k (ts.getD k 0 + 1)
  else if c.req = 3 then ts.set k (ts.getD k 0 - 1) else ts

/-- Transmitter taps may change in EQUALISE, and in UP on lanes being retrained. -/
def coeffLane (x : PortSt) (lane : Nat) : Bool :=
  x.state == .equalise || (x.state == .up && !x.active.getLsbD lane && !x.locked.getLsbD lane)

/-- A COEFF group: a request is answered; after a reply our receiver goes on to its next request, if it has one. -/
def coeffAt (p : Port) (c : Coeff) (s : State) : State :=
  let x := portSt s p
  if !coeffLane x c.lane || !(laneMask s p).testBit c.lane then s
  else if c.reply != 0 then coeffSend p c.lane false s
  else if c.req = 0 then s
  else
    let new := coeffAsk (tapsOf x c.lane) c
    let wraps := (c.req == 2 && (tapsOf x c.lane).getD (c.tap.toNat % 4) 0 == 0x7F) ||
      (c.req == 3 && (tapsOf x c.lane).getD (c.tap.toNat % 4) 0 == 0x80)
    if tapsOk new && !wraps then
      emit (.linkCoeff p { c with reply := 1 }) (setPort p { x with taps := tput [0, 0, 0x40, 0] x.taps c.lane new } s)
    else emit (.linkCoeff p { c with reply := 2 }) s

/-! ### Planned changes of lanes (R296, R298) -/

/-- The lanes by their logical number once the lanes of `m` carry the port: a lane that comes takes the place of one that goes,
and the others keep their order (R288, R296). DESIGN CHOICE, unsafe (log 133): lanes that come beyond those that go follow last. -/
def newOrder (order : List Nat) (m : Nat) : List Nat :=
  let come := (bitsSet 9 m).filter (fun k => !order.contains k)
  let r := order.foldl (fun (acc : List Nat × List Nat) k =>
    if m.testBit k then (acc.1 ++ [k], acc.2)
    else match acc.2 with
      | [] => acc
      | c :: cs => (acc.1 ++ [c], cs)) ([], come)
  r.1 ++ r.2

/-- Put a set of lanes in use; SPARE and WIDTH rise as they apply. The lanes removed are turned off for power, and otherwise
retrained at once in the background (R296). -/
def useLanes (p m : Nat) (power : Bool) (s : State) : State :=
  let x := portSt s p
  let w := widthCode (popCount 9 m)
  let spare := m.testBit 8
  let gone := x.active &&& ~~~(BitVec.ofNat 9 m)
  let s := setPort p { x with
    active := BitVec.ofNat 9 m, order := newOrder x.order m, width := w, spareUsed := spare, locked := x.locked &&& ~~~gone
    off := if power then x.off ||| gone else x.off, signal := if power then x.signal &&& ~~~gone else x.signal } s
  let s := if power then s else each (bitsSet 9 gone.toNat) (fun k => coeffSend p k true) s
  let s := if spare && !x.spareUsed then hlth (792 + p) (32 * 1024) (raisePrt p evPrtSpare s) else s
  if w != x.width then hlth (792 + p) (32 * 1024) (raisePrt p evPrtWidth s) else s

/-- What waited for a change or RECOVER to end goes on (R298). -/
def laneSettled (p : Nat) (s : State) : State :=
  let s := if (portSt s p).narrowDue then narrowToCap p s else s
  if (egOf s p).rekeyDue && (portSt s p).change.isNone then rekeyStart p s else s

/-- A lane has reached UE_THR: spare switch, or narrowing without it (R296). While the cluster core is paused the decision
waits (R298). -/
def laneUe (p lane : Nat) (s : State) : State :=
  let x := portSt s p
  if x.state != .up || x.change.isSome || !x.active.getLsbD lane then s
  else if !clusterRuns s p then setPort p { x with ueDue := insertNat lane x.ueDue } s
  else
    let rest := x.active.toNat - 2 ^ lane
    if spareFree x then startLaneChange p 1 (rest + 2 ^ 8) false s
    else
      let n := widest (popCount 9 rest)
      if n = 0 then s else startLaneChange p 2 (bestLanes s p rest n) false s

/-- The effective group of a planned change: the striping switches, or the change is cancelled. -/
def widthSwitch (p : Nat) (s : State) : State :=
  let x := portSt s p
  match x.change with
  | none => s
  | some c =>
    let s := setPort p { x with change := none } s
    laneSettled p (if c.agreed && x.state == .up then useLanes p c.mask.toNat c.power s else s)

/-- Removed lanes have retrained: the port widens where AUTO_WIDEN and WIDTH_CAP allow it, once its cluster core runs (R298). -/
def retrainDone (p : Nat) (lanes : BitVec 9) (s : State) : State :=
  let x := portSt s p
  if x.state != .up then s
  else
    let got := Nat.land (lanes &&& ~~~x.off).toNat (laneMask s p)
    let lk := BitVec.ofNat 9 (Nat.lor x.locked.toNat got)
    let s := setPort p { x with locked := lk } s
    let use_ := Nat.lor x.active.toNat (Nat.land got 0xFF)
    let n := Nat.min (widest (popCount 9 use_)) (capLanes s p)
    if !clusterRuns s p then modPort p (fun x => { x with wideDue := x.wideDue ||| BitVec.ofNat 9 got }) s
    else if autoWiden s p && x.change.isNone && decide (lanesOf x.width.toNat < n) then
      startLaneChange p 3 (maskNat ((bitsSet 9 use_).take n)) false s
    else s

/-- The pause of a cluster core ends: what its ports' lanes had waiting is decided (R298). -/
def clusterResumes (n : Nat) (s : State) : State :=
  if 7 ≤ n ∧ n < 18 then
    each ((List.range 8).map (fun i => (n - 7) * 8 + i)) (fun p s =>
      let x := portSt s p
      let s := modPort p (fun x => { x with ueDue := [], wideDue := 0 }) s
      let s := each x.ueDue (laneUe p) s
      if x.wideDue == 0 then s else retrainDone p x.wideDue s) s
  else s

/-! ### RECOVER (R297) -/

/-- The lanes a port proposes in RECOVER: the spare in place of the lost lane, else the largest width left. -/
def recoverMask (s : State) (p : Nat) : Nat :=
  let x := portSt s p
  let live_ := (x.active &&& x.locked).toNat
  let all := if spareFree x then live_ + 2 ^ 8 else live_
  let n := Nat.min (widest (popCount 9 all)) (lanesOf x.width.toNat)
  bestLanes s p all n

/-- Propose lanes with WIDTH op 4. -/
def sendRecover (p : Nat) (s : State) : State :=
  if h : p < 88 then emit (.linkWidth ⟨p, h⟩ { op := 4, mask := BitVec.ofNat 9 (recoverMask s p), group := 0, ok := false }) s
  else s

/-- UP to RECOVER; a pending planned change is cancelled, and a narrowing for WIDTH_CAP comes again once RECOVER is over (R298,
R358). -/
def enterRecover (p : Nat) (s : State) : State :=
  let s := modPort p (fun x => { x with
    state := .recover, change := none, secondLoss := false
    narrowDue := x.narrowDue || (match x.change with | some c => c.power | none => false) }) s
  raisePrt p evPrtRecover (bump (cntPrtRecoverCnt p) s)

/-- A lane loses lock or alignment (R297, R298): a planned change that would use it is cancelled, a lane that carries the port
leads to RECOVER, and any lane that RECOVER could use restarts it once. -/
def lockLostOn (p lane : Nat) (s : State) : State :=
  let x := portSt s p
  if x.state == .disabled || x.state == .detect || !x.locked.getLsbD lane then s
  else
    let inUse := x.active.getLsbD lane
    let s := hlth (9 * p + lane) (64 * 1024) s
    let cut := match x.change with | some c => c.mask.getLsbD lane | none => false
    let s := modPort p (fun x => { x with
      locked := x.locked &&& ~~~(BitVec.ofNat 9 (2 ^ lane)), change := if cut then none else x.change }) s
    if x.state == .recover || (x.state == .up && inUse) then
      let lk := popCount 9 (recoverMask s p)
      if lk < 2 then toDetect p false s
      else if x.state == .up then sendRecover p (enterRecover p s)
      else if x.secondLoss then s
      else sendRecover p (modPort p (fun x => { x with secondLoss := true }) s)
    else if cut then laneSettled p s
    else s

/-- New lanes are agreed in RECOVER: the port resumes in UP, and the messages that waited start (R297). -/
def resumeUp (p m : Nat) (s : State) : State :=
  laneSettled p (releaseLink p (useLanes p m false (modPort p (fun x => { x with state := .up, secondLoss := false }) s)))

/-- A WIDTH group arrives: our own change is accepted, the peer's is accepted and answered, RECOVER is agreed. -/
def widthAt (p : Port) (w : WidthMsg) (s : State) : State :=
  let x := portSt s p
  let m := w.mask.toNat
  let n := popCount 9 m
  let fits := (w.mask &&& ~~~x.locked) == 0 && decide (n = 8 ∨ n = 4 ∨ n = 2)
  if w.op = 4 then
    if x.state == .recover && fits then
      resumeUp p m (if w.ok then s else emit (.linkWidth p { w with ok := true }) s)
    else if x.state == .up && fits && !w.ok then
      resumeUp p m (emit (.linkWidth p { w with ok := true }) (enterRecover p s))
    else s
  else if x.state != .up then s
  else if w.ok then
    match x.change with
    | some c =>
      if c.op = w.op.toNat ∧ c.mask = w.mask ∧ c.group = w.group then
        setPort p { x with change := some { c with agreed := true } } s
      else s
    | none => s
  else
    let old := lanesOf x.width.toNat
    let shape := (w.op == 1 && n == old) || (w.op == 2 && decide (n < old)) || (w.op == 3 && decide (old < n))
    if x.change.isNone && fits && shape then
      emit (.linkWidth p { w with ok := true })
        (setPort p { x with change := some { op := w.op.toNat, mask := w.mask, group := w.group, agreed := true } } s)
    else s

/-! ### Bounds, retries and DOWN (R292, R293, R299, R381) -/

/-- A state bound passes, the signal is lost, or too few lanes are left. A port in UP has no bound, and a port in training stays
as it is while its cluster core is out (R337). -/
def portBound_ (p : Nat) (b : PortBound) (s : State) : State :=
  let st := (portSt s p).state
  let training := st == .detect || st == .equalise || st == .align || st == .negotiate || st == .keying
  if (st == .up && b == .stateBound) || (training && !clusterRuns s p) then s else toDetect p true s

/-- 10 s after a refusal the port tries again (R293). -/
def portRetry (p : Nat) (s : State) : State := modPort p (fun x => { x with refused := false }) s

/-- No signal on any lane for 5 s since DETECT: given up (R381). -/
def portGiveUp (p : Nat) (s : State) : State :=
  let x := portSt s p
  if x.state == .detect && x.signal == 0 then setPort p { x with givenUp := true } s else s

/-- A DOWN group arrives (R299): reason 1 is a link failure, 2 to 4 a going-down of the neighbour. -/
def downAt (p : Nat) (reason : Nat) (s : State) : State :=
  let x := portSt s p
  if x.state == .disabled then s
  else
    let far := if linkRuns s p then x.peerNode else none
    let gone := match far with | some n => cutOff s n.toNat | none => []
    let s := toDetect p false (raisePrt p evPrtPeerDown s)
    match far with
    | some n => if 2 ≤ reason ∧ reason ≤ 4 then nodeDown n.toNat gone s else s
    | none => s

/-- A unit with errored blocks comes in (R285): with an errored header it is discarded as a failed check and delineation is lost,
a message is discarded as a bad CRC-32, and a frame errored beyond its header goes on with its trailer inverted. -/
def unitErrored (p : Nat) (errored : List Bool) (s : State) : State :=
  let fab := isFabricPort s p
  if !(portSt s p).delin then s
  else match unitFate (!fab) errored with
    | .whole => s
    | .inverted => modPort p (fun x => { x with late := true }) s
    | .dropped => corruptAt p s
    | .undelineated =>
      let s := if fab then bump cntTrnHcrcDropCnt s else corruptAt p s
      bump (cntPrtResyncCnt p) (modPort p (fun x => { x with delin := false }) s)

/-- An uncorrectable codeword, or a block whose sync header is invalid after correction (R285, R286). -/
def codewordAt (p lane : Nat) (at_ : ErroredAt) (s : State) : State :=
  let x := portSt s p
  if x.state == .disabled || x.state == .detect then s
  else
    let s := if at_.sync then s else bump (cntLnkUeCwCnt p lane) s
    if x.state != .up || !x.active.getLsbD lane then s else each at_.units (unitErrored p) s

/-! ### Retimers and lasers (R300 to R303) -/

/-- The cluster core polls the retimer of a port it manages, over the I3C bus on die E3 (R10); the bus address it assigns is its
own choice. -/
def retimerPoll (p : Nat) (present lock : Bool) (temp : BitVec 8) (s : State) : State :=
  if !retimerOn s p || !clusterRuns s p || !mgmtUp s then s
  else
    let x := portSt s p
    let new := present && !x.present
    let a := if new then BitVec.ofNat 7 (Config.freeByte s.fresh 0).toNat else if present then x.rtAddr else 0
    setPort p { x with present := present, rtLock := present && lock, rtTemp := temp, rtAddr := a } (if new then draw s else s)

/-- A port in DETECT for 100 ms has its retimer reset. -/
def retimerRst (p : APort) (s : State) : State :=
  if retimerOn s p && clusterRuns s p && mgmtUp s && (portSt s p).state == .detect then
    emit (.retimerReset p (i3cBus p)) (bump (cntPrtRtmResetCnt p) s)
  else s

/-- No light on any lane for 100 µs: transmitted light is cut, and the port goes to DETECT (R302, R298). -/
def lightLost (p : Nat) (s : State) : State :=
  let x := portSt s p
  if !isOptical s p || x.state == .disabled || x.lightOff then s
  else raisePrt p evPrtSafety (modPort p (fun x => { x with lightOff := true }) (toDetect p true s))

/-- A dark port sends a probe pulse, where its module gives it light to send (R301, R302). -/
def laserProbe (p : Port) (s : State) : State :=
  if (portSt s p).lightOff && lasersOn s p then emit (.probe p) (raisePrt p evPrtSafety s) else s

/-- Light from the peer returns (R302). -/
def lightBack (p : Nat) (s : State) : State :=
  if (portSt s p).lightOff then raisePrt p evPrtSafety (modPort p (fun x => { x with lightOff := false }) s) else s

/-- A laser module is absent, which its interlock shows, or fails: its two ports lose light and go to DETECT (R301); a module that separates
is disabled by its presence contact, which raises SAFETY (R302). -/
def moduleFail (m : Nat) (present : Bool) (s : State) : State :=
  let l := tget {} s.lasers m
  let s := { s with lasers := tput {} s.lasers m { l with present := present, enabled := false, interlock := !present, fault := present } }
  each [72 + 2 * m, 73 + 2 * m] (fun p s =>
    let s := toDetect p true s
    if present then s else raisePrt p evPrtSafety s) s

/-- A module's presence and interlock have been steady for 100 ms: hardware enables it (R301). -/
def moduleEnable (m : Nat) (s : State) : State :=
  let l := tget {} s.lasers m
  { s with lasers := tput {} s.lasers m { l with present := true, enabled := true, interlock := false, fault := false } }

end Sys2Proof.Machine
end

