-- ==== Sys2Proof/Machine/Tenancy.lean ====
section
/-!
DEFINITION. Tenancy (chapter 13): the endpoint binding (R316), admission (R314), release, drain and scrub
(R315, R321, R322), and the debug unlock (R332).
-/

namespace Sys2Proof.Machine
open Sys2Proof

/-! ### Units -/

/-- The units R28 grants whole that a scrub must pass before they are offered (R315). -/
def bootUnits : List ScrubUnit :=
  (List.finRange 16).map .stacksGroup ++ (List.finRange 16).map .annexPackage ++ (List.finRange 16).map .cellarSet

/-- The units two masks and a Cellar set name. -/
def namedUnits (stk anx : Nat) (cel : Option Nat) : List ScrubUnit :=
  (List.finRange 16).filterMap (fun g => if stk.testBit g.val then some (.stacksGroup g) else none) ++
  (List.finRange 16).filterMap (fun k => if anx.testBit k.val then some (.annexPackage k) else none) ++
  (List.finRange 16).filterMap (fun c => if cel == some c.val then some (.cellarSet c) else none)

/-- The array groups a mask names, with their landing stores. -/
def namedGroups (grp : Nat) : List ScrubUnit :=
  (List.finRange 32).filterMap (fun g => if grp.testBit g.val then some (.arrayGroup g) else none)

/-- An array group is held by no slot, is not being scrubbed and has not failed. -/
def groupFree (s : State) (u : ScrubUnit) : Bool :=
  !s.home.failed.contains u && s.ten.ten.all (fun x => !x.2.dirty.contains u && !(namedGroups x.2.grp.toNat).contains u)

/-- Every named unit is clean, held by no slot and not out of service (R314, check 2; R315; DEDUCED, safe: log 131). -/
def unitsFree (s : State) (stk anx : Nat) (cel : Option Nat) (grp : Nat) : Bool :=
  (namedUnits stk anx cel).all (fun u => s.ten.clean.contains u && !unitOut s u) && (namedGroups grp).all (groupFree s)

/-- Every interleave set a mask touches is named whole (R238, R314). -/
def wholeSets (s : State) (base mask : Nat) : Bool :=
  (bitsSet 16 mask).all (fun g =>
    let n := 2 ^ fieldOf s (base + 0x100 + g * 4) 20 3
    (List.range n).all (fun i => mask.testBit (g / n * n + i)))

/-- Stacks groups and Annex packages that the scrub after training has not yet passed (R376). -/
def bootDirty (s : State) : List ScrubUnit :=
  bootUnits.filter (fun u => !s.ten.clean.contains u && !s.home.failed.contains u &&
    s.ten.ten.all (fun x => !(namedUnits x.2.stk.toNat x.2.anx.toNat (x.2.cel.map (·.toNat))).contains u) &&
    (match u with
     | .stacksGroup _ => s.fab.stkTrained
     | .annexPackage _ => s.fab.anxTrained
     | _ => s.fab.catalogue))

/-- SEC_SCRUB.UNITS_LEFT (R333): a unit marked failed is scrubbed no more. -/
def unitsLeft (s : State) : Nat :=
  ((s.ten.ten.flatMap (fun x => x.2.dirty) ++ bootDirty s).filter (fun u => !s.home.failed.contains u && (match u with
    | .stacksGroup _ | .annexPackage _ => true
    | _ => false))).length

/-! ### Per-tenant registers (R309) -/

/-- Write V and TENANT of an entry. -/
def nameTenant (o t : Nat) (s : State) : State := setField o 4 12 t (setField o 0 1 1 s)

/-- Clear V and TENANT of an entry. -/
def unnameTenant (o : Nat) (s : State) : State := setField o 4 12 0 (setField o 0 1 0 s)

/-- The per-unit registers of the units a slot holds. -/
def unitRegs (x : TenSlot) : List Nat :=
  (bitsSet 16 x.stk.toNat).map (fun g => stkBase + 0x100 + g * 4) ++
  (bitsSet 16 x.anx.toNat).map (fun k => anxBase + 0x100 + k * 4) ++
  (match x.cel with | some c => [celBase + 0x100 + c.toNat * 4] | none => []) ++
  (bitsSet 32 x.grp.toNat).map (fun g => rdaBase + 0x100 + g * 4) ++
  (bitsSet 16 x.eng.toNat).map (fun e => movBase + 0x100 + e * 4)

/-- The registers of tenant slot `n` itself. -/
def slotRegs (n : Nat) : List Nat := [swcBase + 0x100 + n * 4, cmbBase + 0x100 + n * 4, colBase + 0x100 + n * 4]

/-- The divisor of a share: the tenant slots in isolated tenancy, none in shared (R118, R201, R310). -/
def shareDiv (s : State) : Nat := if s.ten.shared then 1 else Nat.max 1 s.ten.slots

/-- Write every register of R309 for an admitted tenant; BOUND follows last (R314). -/
def writeTenant (n : Nat) (x : TenSlot) (s : State) : State :=
  let t := x.tenant.toNat
  let s := each (slotRegs n ++ unitRegs x) (fun o s => nameTenant o t s) s
  let s := setField (swcBase + 0x100 + n * 4) 16 5 n s
  let s := setField (cmbBase + 0x100 + n * 4) 1 1 (b2n x.fpRel) s
  let s := setField (cmbBase + 0x100 + n * 4) 16 14 (8192 / shareDiv s) s
  let s := setField (colBase + 0x100 + n * 4) 16 13 (4096 / shareDiv s) s
  each (bitsSet 72 x.ports.toNat) (fun p s =>
    setField (epbBase p + 0x40) 13 1 1
      (setField (epbBase p + 0x40) 12 1 (b2n x.fifo) (setField (epbBase p + 0x40) 0 12 t s))) s

/-- Clear them when the slot becomes FREE. -/
def clearTenant (n : Nat) (x : TenSlot) (s : State) : State :=
  let s := each (slotRegs n ++ unitRegs x) unnameTenant s
  each (bitsSet 72 x.ports.toNat) (fun p s =>
    setField (epbBase p + 0x40) 12 1 0 (setField (epbBase p + 0x40) 0 12 0 s)) s

/-- The slot table of the clusters in time-division mode, from the number of tenant slots (R270). -/
def writeSlotTable (s : State) : State :=
  let n := Nat.max 1 s.ten.slots
  let owner := fun k => if k = 0 then 0x80 else if k ≤ n * (63 / n) then (k - 1) % n else 0x40
  each ((List.range 11).filter (fun c => clusterMode s c != 0)) (fun c s =>
    each (List.range 64) (fun k s => setField (swcBase + 0x1000 + c * 0x40 + k / 4 * 4) (8 * (k % 4)) 8 (owner k) s) s) s

/-! ### The endpoint binding (R316) -/

/-- The tenant an accelerator slot is bound to. -/
def bindOf (s : State) (p : Nat) : Option (BitVec 12) := tget none s.ten.bind p

def setBind (p : Nat) (t : Option (BitVec 12)) (s : State) : State :=
  { s with ten := { s.ten with bind := tput none s.ten.bind p t } }

/-- The Catalogue's CABLING record marks slot `p` empty (R373). -/
def slotEmpty (s : State) (p : Nat) : Bool := s.fab.cabling[8 + p]? == some (BitVec.allOnes 64)

/-- A tenant ID field is well formed. -/
def tenantOk (t : Nat) : Bool := decide (t < 0x1000)

/-- EP_BIND. A slot that holds no accelerator cannot be bound: one marked empty, or one whose cluster runs in electrical
fabric mode (R13, R316). -/
def epBindAt (c : Nat) (inp : Bytes) (s : State) : State :=
  let t := beField inp 0 2
  let ps := bitsSet 72 (beField inp 4 9)
  let taken := fun p => match bindOf s p with
    | some u => u.toNat != t && (slotOfTenant s u.toNat).isSome
    | none => false
  if !tenantOk t || beField inp 2 2 != 0 || ps.any (fun p => slotEmpty s p || isFabricPort s p) then mbxEnd c .malformed [] s
  else if ps.any taken then mbxEnd c .busy [] s
  else mbxEnd c .done [] (each ps (fun p s => setBind p (some (BitVec.ofNat 12 t)) s) s)

/-- EP_UNBIND. -/
def epUnbindAt (c : Nat) (inp : Bytes) (s : State) : State :=
  let t := beField inp 0 2
  let m := beField inp 4 9
  let used := match slotOfTenant s t with
    | some n => (tenSlot s n).ports.toNat &&& m != 0
    | none => false
  if !tenantOk t || beField inp 2 2 != 0 then mbxEnd c .malformed [] s
  else if used then mbxEnd c .busy [] s
  else
    let ps := (bitsSet 72 m).filter (fun p => bindOf s p == some (BitVec.ofNat 12 t))
    mbxEnd c .done [] (each ps (fun p s => setBind p none s) s)

/-! ### Admission (R314) -/

/-- FIFO and FP_RELAXED of a tenant from the Catalogue's ORDERING record (R87, R115, R373). -/
def orderingOf (s : State) (t : BitVec 12) : Bool × Bool :=
  match s.fab.ordTen.find? (fun e => e.1 == t) with
  | some e => e.2
  | none => (s.fab.ordFifo, s.fab.ordFp)

/-- A key set is made anew: `k` is a group, 16 + a package, 32 + a tenant slot (R319). -/
def newKey (k : Nat) (s : State) : State :=
  { s with ten := { s.ten with keyGen := tput 0 s.ten.keyGen k (tget 0 s.ten.keyGen k + 1) } }

/-- The checks of R314, in their order; in shared tenancy the unit fields are ignored. DESIGN CHOICE, unsafe (log 129): any two
array groups make a pair of R28. -/
def admitCheck (s : State) (t n cel stk anx grp ports : Nat) (resv : Bool) : Status :=
  let iso := !s.ten.shared
  let transit := cel == 0xFF
  let set := if transit then none else some cel
  if !tenantOk t || !decide (n < s.ten.slots) || !resv || (iso && !transit && !decide (cel < 16)) ||
     (slotOfTenant s t).isSome then .malformed
  else if (tenSlot s n).state != .free || (iso && !unitsFree s stk anx set grp) then .busy
  else if iso && !(if transit then stk == 0 && anx == 0 && grp == 0 && ports == 0
      else wholeSets s stkBase stk && wholeSets s anxBase anx && popCount 32 grp == 2) then .malformed
  else if (bitsSet 72 ports).any (fun p => bindOf s p != some (BitVec.ofNat 12 t)) then .accessDenied
  else .done

/-- The slot a tenant that passes takes. -/
def admitted (s : State) (t n cel stk anx grp ports : Nat) : TenSlot :=
  let o := orderingOf s (BitVec.ofNat 12 t)
  let iso := !s.ten.shared
  let k := 16 / Nat.max 1 s.ten.slots
  { state := .active, tenant := BitVec.ofNat 12 t, fifo := o.1, fpRel := o.2
    stk := if iso then BitVec.ofNat 16 stk else 0, anx := if iso then BitVec.ofNat 16 anx else 0
    grp := if iso then BitVec.ofNat 32 grp else 0
    cel := if iso && decide (cel < 16) then some (BitVec.ofNat 4 cel) else none
    eng := if iso then BitVec.ofNat 16 ((2 ^ k - 1) * 2 ^ (n * k)) else 0
    ports := BitVec.ofNat 72 ports }

/-- TEN_ADMIT. Until the next power-on reset after a debug unlock no tenant is admitted (R332). -/
def tenAdmitAt (c : Nat) (inp : Bytes) (s : State) : State :=
  let t := beField inp 0 2
  let n := beField inp 2 1
  let cel := beField inp 3 1
  let stk := beField inp 4 2
  let anx := beField inp 6 2
  let grp := beField inp 8 4
  let ports := beField inp 12 9
  let st := admitCheck s t n cel stk anx grp ports (allZero (slice inp 21 3))
  if s.ten.debug then mbxEnd c .accessDenied [] s
  else if st != .done then mbxEnd c st [] s
  else
    let x := admitted s t n cel stk anx grp ports
    let held := namedUnits x.stk.toNat x.anx.toNat (x.cel.map (·.toNat))
    let s := writeTenant n x (setTen n x s)
    let s := { s with ten := { s.ten with
      clean := s.ten.clean.filter (fun u => !held.contains u)
      tdmOn := s.ten.tdmOn || !s.ten.shared } }
    let s := if s.ten.shared then newKey (32 + n) s else s
    let s := each (bitsSet 72 ports) (fun p s =>
      if (sess s p).state == .fenced && linkUp s p && attEn s p then startHello p s else s) s
    mbxEnd c .done [] (raiseSec evSecAdmitDone n s)

/-! ### Release, drain and scrub (R321, R322) -/

/-- The mirror sessions whose filter names a tenant are deleted (R275, R321). -/
def dropMirrors (t : Nat) (s : State) : State :=
  each (List.range 8) (fun i s =>
    let o := swcBase + 0x2000 + i * 0x20
    if bitAt s o 0 && !bitAt s o 7 && fieldOf s o 8 12 == t then
      let p := fieldOf s (o + 8) 0 7
      let was := bitAt s o 1
      let s := mirStop i (setField o 0 1 0 s)
      if was then returnPort p s else s
    else s) s

/-- A tenant's CXL.mem windows are deleted. -/
def dropWindows (t : Nat) (s : State) : State :=
  each (List.range 16) (fun i s =>
    let o := stkBase + 0x400 + i * 0x10
    if bitAt s o 0 && fieldOf s o 4 12 == t then setField o 0 1 0 s else s) s

/-- A tenant's fault records are deleted, and the MOVEs parked on them end with FENCED. -/
def dropFaults (t : BitVec 12) (s : State) : State :=
  let rs := s.mov.faults.filter (fun r => r.key.tenant == t)
  let ms := rs.flatMap (fun r => parkedOn s r.num)
  let s := { s with mov := { s.mov with faults := s.mov.faults.filter (fun r => !(r.key.tenant == t)) } }
  each ms (fun m s => endMove m .fenced s) s

/-- Steps 1 and 2 of R321 for the tenant of slot `n`. -/
def startRelease (n : Nat) (s : State) : State :=
  let x := tenSlot s n
  let s := modTen n (fun x => { x with state := .fenced }) s
  let s := each (bitsSet 72 x.ports.toNat) (fun p s =>
    collPortLost p .fenced (fencePort p (setField (epbBase p + 0x40) 13 1 0 s))) s
  let s := each ((s.alm.filter (fun a => a.tenant == x.tenant)).map (·.job)) unloadJob s
  let s := freeTenant (fun t => t == x.tenant) s
  dropFaults x.tenant (dropWindows x.tenant.toNat (dropMirrors x.tenant.toNat s))

/-- TEN_RELEASE: the command ends when the slot is FREE. -/
def tenReleaseAt (c : Nat) (inp : Bytes) (s : State) : State :=
  let t := beField inp 0 2
  match (if tenantOk t then slotOfTenant s t else none) with
  | none => mbxEnd c .malformed [] s
  | some n =>
    if (tenSlot s n).state != .active then mbxEnd c .busy [] s
    else startRelease n (modTen n (fun x => { x with relChan := some c }) s)

/-- Some request of the tenant is outstanding on this device (R321, step 3). -/
def tenantBusy (s : State) (x : TenSlot) : Bool :=
  (bitsSet 72 x.ports.toNat).any (fun p => !(sess s p).out.isEmpty) ||
  s.trn.reqs.any (fun r => r.sid.tenant == x.tenant) ||
  s.home.accesses.any (fun a => a.frame.tenant == x.tenant) ||
  s.hif.cxl.wait.any (fun f => f.tenant == x.tenant) ||
  s.mov.arrWait.any (fun w => w.2.2.tenant == x.tenant) ||
  s.mov.moves.any (fun m => m.tenant == x.tenant) || s.mov.held.any (fun h => h.frame.tenant == x.tenant)

/-- The regions a tenant has at this node's fabric-memory endpoint (R322, shared tenancy). -/
def ownRegions (s : State) (t : Nat) : List (Nat × Region) :=
  let lo := sysPart + 0x09000000
  let is := ((s.home.stk.filter (fun x => decide (lo ≤ x.1 ∧ x.1 < lo + 0x200000))).map (fun x => (x.1 - lo) / 32)).eraseDups
  is.filterMap (fun i => match readRegion s (memEp s) i with
    | some d => if d.v && d.tenant == t then some (i, d) else none
    | none => none)

/-- Frames of a tenant in the packet buffer are gone (R322). -/
def dropTenantFrames (t : BitVec 12) (s : State) : State :=
  dropFrames (fun f => !(f.tenant == t) || f.type == tCtl) s

/-- What is on the die of a tenant is invalidated: cached translations and descriptors, program table
entries, packet-buffer cells, and the requests and chunk frames that lie in them or wait (R322). -/
def invalidateTenant (t : BitVec 12) (s : State) : State :=
  let s := cacheDrop (fun e => (slotW (e.w0, e.w1)).tenant == t.toNat) s
  let cut := fun (tb : Table (List (Nat × Nat × Nat))) c =>
    tput [] tb c ((tget [] tb c).filter (fun e => !(e.2.2 == t.toNat)))
  let s := { s with xlat := { s.xlat with rgnCache := (List.range 10).foldl cut s.xlat.rgnCache } }
  let ps := s.arr.programs.filter (fun p => match p.2 with | some g => !(g.tenant == t) | none => true)
  dropTenantFrames t { s with
    arr := { s.arr with programs := ps }
    sw := { s.sw with lag := s.sw.lag.filter (fun x => !(x.tenant == t)) }
    mov := { s.mov with arrWait := s.mov.arrWait.filter (fun x => !(x.2.2.tenant == t))
                        measWait := s.mov.measWait.filter (fun f => !(f.tenant == t)) }
    coll := { s.coll with frames := s.coll.frames.filter (fun f => !(f.tenant == t)) } }

/-- The transport contexts of a tenant go without a handshake (R322; log 103), and what waited for them goes on. -/
def dropSessions (t : BitVec 12) (s : State) : State :=
  let s := each (s.trn.send.filter (fun c => c.sid.tenant == t))
    (fun c s => feedStarved (sendUnit s c) (dropSend c.num s)) s
  { s with trn := { s.trn with recv := s.trn.recv.filter (fun r => !(r.sid.tenant == t)) } }

/-- TENANT_DRAIN_DONE: steps 4 and 5 of R321. -/
def drainDone (n : Fin 64) (s : State) : State :=
  let x := tenSlot s n
  if x.state != .fenced || tenantBusy s x then s
  else
    let units := namedUnits x.stk.toNat x.anx.toNat (x.cel.map (·.toNat))
    let areas := if s.ten.shared then (ownRegions s x.tenant.toNat).map (fun r => (r.2.space, r.2.base, r.2.len)) else []
    let dirty := units ++ namedGroups x.grp.toNat ++ [.tables n] ++ (if s.ten.shared then [.regions n] else [])
    let keys := bitsSet 16 x.stk.toNat ++ (bitsSet 16 x.anx.toNat).map (· + 16) ++ (if s.ten.shared then [32 + n.val] else [])
    let s := each keys newKey s
    modTen n (fun x => { x with state := .scrubbing, dirty := dirty, areas := areas }) (dropSessions x.tenant (invalidateTenant x.tenant s))

/-- The slot's tables and descriptors are written as zeros under the system key (R322). -/
def zeroTables (x : TenSlot) (s : State) : State :=
  let t := x.tenant.toNat
  let tabs := ((List.range 9).filterMap (fun c => tableOf s c t)).eraseDups
  let regs := ownRegions s t
  let s := each tabs (fun k s => zeroRange 1 (sysPart + k.2) (2 ^ k.1 * 128) s) s
  let s := each (bitsSet 72 x.ports.toNat) (fun p s => zeroRange 1 (sysPart + p * 0x200000) 0x200000 s) s
  let s := each regs (fun r s => zeroRange 1 (sysPart + 0x09000000 + r.1 * 32) 32 s) s
  { s with mov := { s.mov with measured := s.mov.measured.filter (fun m => !(m.tenant == x.tenant)) } }

/-- Zeros are written over a unit or an area of slot `x`. -/
def zeroUnit (x : TenSlot) (u : ScrubUnit) (s : State) : State :=
  match u with
  | .stacksGroup g => zeroRange 1 (g.val * (9088 * 2 ^ 20)) (9088 * 2 ^ 20) s
  | .annexPackage k => zeroRange 2 (k.val * (96 * 2 ^ 30)) (96 * 2 ^ 30) s
  | .cellarSet _ | .arrayGroup _ => s
  | .tables _ => zeroTables x s
  | .regions _ => each x.areas (fun r s => zeroRange r.1 r.2.1 r.2.2 s) s

/-- Every unit and area of slot `n` is clean: a RELEASED item, and the slot is FREE (R315). -/
def finishRelease (n : Nat) (s : State) : State :=
  let x := tenSlot s n
  let units := (namedUnits x.stk.toNat x.anx.toNat (x.cel.map (·.toNat))).filter (fun u => !s.home.failed.contains u)
  let item : Released := { tenant := x.tenant, stk := x.stk, anx := x.anx, failed := x.failedUnits, tick := s.time.count }
  let s := clearTenant n x (setTen n {} s)
  let s := { s with ten := { s.ten with
    released := tput none s.ten.released n (some item), clean := s.ten.clean ++ units } }
  let s := raiseSec evSecReleaseDone n s
  match x.relChan with
  | some c => mbxEnd c .done [] s
  | none => s

/-- UNIT_SCRUB_DONE: a unit or area of a departing tenant, or one of the scrub after training (R376). A unit that is out of
service is failed, whatever the engine says (R315, R324). -/
def scrubDone (u : ScrubUnit) (fails : Bool) (s : State) : State :=
  let failed := fails || unitOut s u
  match s.ten.ten.find? (fun x => x.2.state == .scrubbing && x.2.dirty.contains u) with
  | some x =>
    let n := x.1
    let s := if failed then unitFailed u s else zeroUnit x.2 u s
    let s := modTen n (fun y => { y with
      dirty := y.dirty.erase u
      failedUnits := if failed then y.failedUnits ||| BitVec.ofNat 32 (unitBit u) else y.failedUnits }) s
    if (tenSlot s n).dirty.isEmpty then finishRelease n s else s
  | none =>
    if !(bootDirty s).contains u then s
    else if failed then unitFailed u s
    else
      let s := match u with
        | .stacksGroup g => newKey g.val s
        | .annexPackage k => newKey (16 + k.val) s
        | _ => s
      let s := zeroUnit {} u s
      { s with ten := { s.ten with clean := s.ten.clean ++ [u] } }

/-! ### Debug (R332) -/

/-- Every slot is FREE. -/
def allFree (s : State) : Bool := s.ten.ten.all (fun x => x.2.state == .free)

/-- DBG_CHALLENGE: 32 bytes from the TRNG, valid for one attempt. -/
def dbgChallengeAt (c : Nat) (s : State) : State :=
  let ch := beBytes 32 (Config.trng s.fresh).toNat
  mbxAnswer c ch (fun s => draw { s with ten := { s.ten with challenge := some ch } }) s

/-- The debug authorities: Axwick unless its entry is disabled, and the operator where provisioned. -/
def debugKeys (s : State) : List Bytes :=
  (if s.fuses.axwickOff then [] else [Config.axwickKey]) ++ (s.fuses.opKeys.filter (fun k => !k.2)).map (·.1)

/-- Every key of R319 that this device holds is destroyed; no unit is held by a slot then, and none is clean any more, so that no
line reads under any key. -/
def destroyKeys (s : State) : State :=
  let s := { s with ports := s.ports.map (fun (x : Nat × PortSt) => (x.1, { x.2 with keyed := false, oldKey := false })) }
  { s with
    ten := { s.ten with sysKey := 0, idReady := false, secretOpen := false, clean := [] }
    hif := { s.hif with cxl := { s.hif.cxl with ideIo := false, ideMem := false } } }

/-- DEBUG_UNLOCK: an unlock token over JTAG. -/
def debugUnlockAt (serial : BitVec 64) (challenge : Bytes) (scopes : BitVec 32) (sig : Bytes) (fusePower : Bool)
    (s : State) : State :=
  let body := beBytes 8 serial.toNat ++ challenge ++ beBytes 4 scopes.toNat
  let signed := (debugKeys s).any (fun k => Config.verifies k body sig)
  let good := signed && serial == s.fuses.serial && s.ten.challenge == some challenge
  let s := { s with ten := { s.ten with challenge := none } }
  if !fusePower || (tget {} s.chip.bridges 3).down then s
  else if !allFree s then emit (.jtag .busy) s
  else if !good then
    let s := if signed then s else bump cntSecSigFailCnt s
    raiseSec evSecSigFail 0 (bump cntSecDbgFailCnt s)
  else
    let s := destroyKeys s
    raiseSec evSecUnlock 0 { s with
      ten := { s.ten with debug := true, scopes := scopes }
      fuses := { s.fuses with unlocks := Nat.min 64 (s.fuses.unlocks + 1) } }

end Sys2Proof.Machine
end

