-- ==== Sys2Proof/Machine/Catalogue.lean ====
section
/-!
DEFINITION. The Catalogue (R371 to R376): its records, its checks, and what applying it writes.
-/

namespace Sys2Proof.Machine
open Sys2Proof

/-! ### Layout (R372) -/

abbrev catMagic : Nat := 0x4F434154
/-- Bytes of the signature block: two public keys and two signatures. -/
abbrev catSigLen : Nat := 32 + 1952 + 64 + 3309

def catLength (b : Bytes) : Nat := beField b 24 4

/-- The records of a Catalogue from byte `o` to byte `stop`; none where one does not lie within, or its
padding is not 0. -/
def catRecords (b : Bytes) (stop : Nat) : Nat → Nat → Option (List (Nat × Bytes))
  | 0, o => if o = stop then some [] else none
  | fuel + 1, o =>
    if o = stop then some []
    else if stop < o + 4 then none
    else
      let n := beField b (o + 2) 2
      let e := ceilDiv n 4 * 4
      if stop < o + 4 + e || !allZero (slice b (o + 4 + n) (e - n)) then none
      else (catRecords b stop fuel (o + 4 + e)).map (fun rs => (beField b o 2, slice b (o + 4) n) :: rs)

/-- The value of a record. -/
def catRec (rs : List (Nat × Bytes)) (ty : Nat) : Option Bytes := (rs.find? (fun r => r.1 == ty)).map (·.2)

/-- The records of a Catalogue, as far as they parse. -/
def recordsOf (b : Bytes) : List (Nat × Bytes) :=
  (catRecords b (catLength b) (catLength b / 4) 64).getD []

/-! ### Values of the records (R373) -/

/-- Nibble `i` of a nibble string, the high nibble of each byte first. -/
def nibble (b : Bytes) (i : Nat) : Nat :=
  let x := beField b (i / 2) 1
  if i % 2 = 0 then x / 16 else x % 16

/-- SET_LOG2 of 16 units: sets of 1 to 16 units, aligned, every unit of a set naming the same size. -/
def setsOk (f : Nat → Nat) : Bool :=
  (List.range 16).all (fun g =>
    let n := 2 ^ f g
    decide (f g ≤ 4) && (List.range n).all (fun i => f (g / n * n + i) == f g))

/-- The value of a known record lies in the ranges of R373. -/
def recordOk (ty : Nat) (v : Bytes) : Bool :=
  let n := v.length
  match ty with
  | 1 => n == 8 && beField v 0 4 != 0 && decide (beField v 5 1 ≤ 7) &&
    decide (beField v 4 1 < beField v 6 2 ∧ beField v 6 2 ≤ 256)
  | 2 => n == 11 && (List.range 11).all (fun c => if c < 9 then decide (beField v c 1 ≤ 1) else beField v c 1 == 2)
  | 3 => n == 2 && decide (beField v 0 1 ≤ 1) && decide (1 ≤ beField v 1 1) &&
    decide (beField v 1 1 ≤ (if beField v 0 1 = 0 then 16 else 64))
  | 4 => decide (4 ≤ n) && n % 4 == 0 && decide ((n - 4) / 4 ≤ 255) && decide (beField v 0 1 ≤ 3) && beField v 1 3 == 0 &&
    (List.range ((n - 4) / 4)).all (fun k => tenantOk (beField v (4 + 4 * k) 2) &&
      decide (beField v (6 + 4 * k) 1 ≤ 3) && beField v (7 + 4 * k) 1 == 0)
  | 5 => n == 4 && (List.range 2).all (fun i => decide (950 ≤ beField v (2 * i) 2 ∧ beField v (2 * i) 2 ≤ 1400))
  | 6 => n == 28 && (List.range 4).all (fun i =>
      let g := beField v (2 * i) 2
      g == 0x7FF || (decide (g < 2048) && g % 8 == 0)) &&
    decide (beField v 24 1 ≤ 3) && beField v 25 3 == 0
  | 7 => n == 16 && setsOk (nibble v) && setsOk (fun i => nibble v (16 + i))
  | 8 => n == 640
  | 9 => n % 8 == 0 && decide (n / 8 ≤ 512)
  | 10 => n == 20 && beField v 18 2 == 0
  | _ => decide (0x8000 ≤ ty)

/-- Check 6 of R374. -/
def catRecordsOk (b : Bytes) : Bool :=
  match catRecords b (catLength b) (catLength b / 4) 64 with
  | none => false
  | some rs =>
    let tys := rs.map (·.1)
    rs.length == beField b 28 4 && allZero (slice b 5 3) && allZero (slice b 32 32) &&
    [1, 2, 3].all tys.contains && tys.eraseDups.length == tys.length && rs.all (fun r => recordOk r.1 r.2)

/-! ### REGS entries (R374, check 7) -/

/-- The host may write the field through a REGS entry. -/
def regsField (f : RegField) : Bool := f.who == .host && (f.acc == .rw || f.acc == .rws || f.acc == .rwl)

/-- What the field tables ask of a whole word beyond each field's range: CW_MAX at least CW_INIT (R147),
PREDICT at least WARN (R399), and the alignment of the host addresses (R356, R422, R424). -/
def wordOk (o v : Nat) : Bool :=
  if o = trnBase + 4 then decide (bitsOf v 0 11 ≤ bitsOf v 16 11)
  else if mgtBase + 0x420 ≤ o ∧ o < mgtBase + 0x438 then decide (bitsOf v 0 16 ≤ bitsOf v 16 16)
  else if o = mgtBase + 0x304 then v % 4096 == 0
  else if o = 0xC0 then v % 65536 == 0
  else if cxlBase + 0x100 ≤ o ∧ o < cxlBase + 0x200 ∧ o % 0x20 = 0xC then v % 2097152 == 0
  else true

/-- An entry names a host-writable field, sets no bit outside such fields, and gives values in range. -/
def regsEntryOk (o v : Nat) : Bool :=
  let fs := (fieldsAt o).filter regsField
  let bits := fs.foldl (fun m f => m ||| ((2 ^ f.w - 1) * 2 ^ f.lo)) 0
  o % 4 == 0 && !fs.isEmpty && v &&& bits == v && wordOk o v &&
  fs.all (fun f => decide (f.rmin ≤ bitsOf v f.lo f.w ∧ bitsOf v f.lo f.w ≤ f.rmax))

/-- The entries of the REGS record. -/
def regsEntries (rs : List (Nat × Bytes)) : List (Nat × Nat) :=
  match catRec rs 9 with
  | some v => (List.range (v.length / 8)).map (fun k => (beField v (8 * k) 4, beField v (8 * k + 4) 4))
  | none => []

/-! ### The checks of R374 -/

/-- The outcome of a check, and whether a signature was missing or failed (R327). -/
def catCheck (s : State) (b : Bytes) : Status × Bool :=
  let l := catLength b
  let sig := slice b l catSigLen
  let key := sha384 (sig.take 1984)
  if b.length < 64 || beField b 0 4 != catMagic || !decide (64 ≤ l ∧ l ≤ 1040384) || !decide (l + catSigLen ≤ 1048576) ||
     !decide (l + catSigLen ≤ b.length) then (.malformed, false)
  else if beField b 4 1 != 3 then (.version, false)
  else if !s.fuses.opKeys.any (fun k => k.1 == key && !k.2) then (.accessDenied, false)
  else if !Config.verifies key (b.take l) (sig.drop 1984) then (.accessDenied, true)
  else if beField b 8 8 != s.fuses.serial.toNat then (.accessDenied, false)
  else if !catRecordsOk b then (.malformed, false)
  else if !(regsEntries (recordsOf b)).all (fun e => regsEntryOk e.1 e.2) then (.malformed, false)
  else (.done, false)

/-- A signed object was refused for its signature (R327). -/
def noteSig (failed : Bool) (s : State) : State :=
  if failed then raiseSec evSecSigFail 0 (bump cntSecSigFailCnt s) else s

/-- CAT_WRITE (R371): the checks, then copy 1 and copy 0. DESIGN CHOICE, unsafe (log 74): with the flash out of reach it ends
with DATA_ERROR. -/
def catWriteAt (c : Nat) (b : Bytes) (s : State) : State :=
  let r := catCheck s b
  if s.fw.staging then mbxEnd c .busy [] s
  else if !mgmtUp s then mbxEnd c .dataError [] s
  else if r.1 != .done then mbxEnd c r.1 [] (noteSig r.2 s)
  else mbxEnd c .done [] { s with fw := { s.fw with flash := { s.fw.flash with cat1 := some b, cat0 := some b } } }

/-! ### Applying it (R376) -/

/-- Write the host-writable fields of a register. -/
def regsWrite (o v : Nat) (s : State) : State :=
  each ((fieldsAt o).filter regsField) (fun f s => setField o f.lo f.w (bitsOf v f.lo f.w) s) s

/-- Write SET_LOG2 and SET_BASE of 16 units. -/
def writeSets (base : Nat) (f : Nat → Nat) (s : State) : State :=
  each (List.range 16) (fun g s =>
    setField (base + 0x100 + g * 4) 16 4 (g / 2 ^ f g * 2 ^ f g) (setField (base + 0x100 + g * 4) 20 3 (f g) s)) s

/-- IDENTITY, CLUSTERS and TENANCY (R373). -/
def applyIdentity (rs : List (Nat × Bytes)) (s : State) : State :=
  let i := (catRec rs 1).getD []
  let m := (catRec rs 2).getD []
  let t := (catRec rs 3).getD []
  { s with
    fab := { s.fab with
      domain := BitVec.ofNat 32 (beField i 0 4), rack := BitVec.ofNat 8 (beField i 4 1)
      plane := BitVec.ofNat 3 (beField i 5 1), nodeV := true
      modes := (List.range 11).map (fun c => BitVec.ofNat 2 (beField m c 1)) }
    ten := { s.ten with shared := beField t 0 1 == 1, slots := beField t 1 1 } }

/-- ORDERING, CABLING and MGMT. -/
def applyLists (rs : List (Nat × Bytes)) (s : State) : State :=
  let o := (catRec rs 4).getD [0, 0, 0, 0]
  let flag := fun k b => (beField o k 1).testBit b
  let ents := (List.range ((o.length - 4) / 4)).map (fun k =>
    (BitVec.ofNat 12 (beField o (4 + 4 * k) 2), flag (6 + 4 * k) 0, flag (6 + 4 * k) 1))
  let cab := match catRec rs 8 with
    | some v => (List.range 80).map (fun k => BitVec.ofNat 64 (beField v (8 * k) 8))
    | none => []
  let coll := match catRec rs 10 with | some v => !allZero (v.take 18) | none => false
  { s with fab := { s.fab with ordFifo := flag 0 0, ordFp := flag 0 1, ordTen := ents, cabling := cab, collector := coll } }

/-- POWER: ORPHAN_W and START_W, and the cap unless the tray manager has written one (R361, R376). -/
def applyPower (rs : List (Nat × Bytes)) (s : State) : State :=
  let s := match catRec rs 5 with
    | some v => setField pwrBase 0 11 (beField v 2 2) (setField pwrBase 11 11 (beField v 0 2) s)
    | none => s
  if s.pwr.capWritten then s else setField (pwrBase + 4) 0 11 (fieldOf s pwrBase 11 11) s

/-- TIME: the grandmaster list, the segment delays and the pulse enables. -/
def applyTime (rs : List (Nat × Bytes)) (s : State) : State :=
  match catRec rs 6 with
  | none => s
  | some v =>
    let s := each (List.range 4) (fun i s => setField (ftmBase + 0x40 + i / 2 * 4) (16 * (i % 2)) 11 (beField v (2 * i) 2) s) s
    let s := each (List.range 8) (fun i s => setField (ftmBase + 0x20 + i * 4) 0 16 (beField v (8 + 2 * i) 2) s) s
    let flags := beField v 24 1
    setField ftmBase 1 1 (b2n (flags.testBit 0)) (setField ftmBase 2 1 (b2n (flags.testBit 1)) s)

/-- MEMORY: the interleave sets (R238). -/
def applyMemory (rs : List (Nat × Bytes)) (s : State) : State :=
  match catRec rs 7 with
  | none => s
  | some v => writeSets anxBase (fun i => nibble v (16 + i)) (writeSets stkBase (nibble v) s)

/-- Steps 1 and 2 of R376: the records, then the REGS entries in order; in isolated tenancy the security
core writes the slot tables (R270). -/
def applyCatalogue (b : Bytes) (s : State) : State :=
  let rs := recordsOf b
  let s := applyMemory rs (applyTime rs (applyPower rs (applyLists rs (applyIdentity rs s))))
  let s := if s.ten.shared then s else writeSlotTable s
  let s := each (regsEntries rs) (fun e s => regsWrite e.1 e.2 s) s
  { s with fab := { s.fab with catalogue := true, catDigest := sha384 (b.take (catLength b)) } }

end Sys2Proof.Machine
end

