-- ==== Sys2Proof/Machine/Firmware.lean ====
section
/-!
DEFINITION. Firmware (chapter 14): the flash and its slots (R338 to R341), boot (R342), anti-rollback (R343),
recovery (R344, R345), updates (R346 to R350), negotiation (R351), Ledger export (R354), and the device
reset (R368).
-/

namespace Sys2Proof.Machine
open Sys2Proof

/-- The number of a die in the table of bridges. -/
def dieNum : Die → Nat
  | .e0 => 0 | .e1 => 1 | .e2 => 2 | .e3 => 3 | .o0 => 4 | .o1 => 5 | .m0 => 6 | .m1 => 7

def modFlash (f : Flash → Flash) (s : State) : State := { s with fw := { s.fw with flash := f s.fw.flash } }

/-! ### The slot directory (R339) -/

/-- The copy in force: a good CRC and the higher sequence number. -/
def Flash.dir (f : Flash) : Option Directory :=
  match f.dir0, f.dir1 with
  | none, d => d
  | d, none => d
  | some a, some b => some (if b.seq.toNat ≤ a.seq.toNat then a else b)

/-- The directory changes: the other copy is written with the sequence number plus 1, where the flash is reached (R10;
log 74). -/
def writeDir (g : Directory → Directory) (s : State) : State :=
  if !mgmtUp s then s
  else match s.fw.flash.dir with
  | none => modFlash (fun f => { f with dir0 := some (g { seq := 1, active := false, validA := false, validB := false }) }) s
  | some d =>
    let d' := { g d with seq := d.seq + 1 }
    modFlash (fun f => if f.dir0 = some d then { f with dir1 := some d' } else { f with dir0 := some d' }) s

def activeB (s : State) : Bool := match s.fw.flash.dir with | some d => d.active | none => false
def slotValid (s : State) (b : Bool) : Bool :=
  match s.fw.flash.dir with
  | some d => if b then d.validB else d.validA
  | none => false
def setValid (b v : Bool) (s : State) : State :=
  writeDir (fun d => if b then { d with validB := v } else { d with validA := v }) s
def slotBytes (s : State) (b : Bool) : Bytes := ((if b then s.fw.flash.slotB else s.fw.flash.slotA)).getD []

/-! ### Manifests (R340, R341) -/

abbrev slotSize : Nat := 48 * 2 ^ 20

def manSvn (b : Bytes) : Nat := beField b 8 1
def manVersion (b : Bytes) : Nat := beField b 16 8
def manCompat (b : Bytes) : Nat := beField b 24 8

/-- Where the entry of an image role lies in a manifest. -/
def manEntry (b : Bytes) (role : Nat) : Nat :=
  64 + 80 * ((List.range 5).find? (fun e => beField b (64 + 80 * e) 1 == role)).getD 0

def manImgVersion (b : Bytes) (role : Nat) : Nat := beField b (manEntry b role + 16) 8
def manDigest (b : Bytes) (role : Nat) : Bytes := slice b (manEntry b role + 24) 48

/-- The longest image of a role. -/
def roleMax (role : Nat) : Nat := if role = 1 then 8 * 2 ^ 20 else if role = 3 ∨ role = 4 then 2 ^ 20 else 512 * 2 ^ 10

/-- Check 1 of R341. -/
def manifestOk (b : Bytes) : Bool :=
  beField b 0 4 == 0x4F46574D && beField b 4 1 == 1 && beField b 5 1 == 5 && beField b 6 2 == 0 &&
  decide (manSvn b ≤ 64) && allZero (slice b 9 7) && beField b 32 4 == 0x8872 && allZero (slice b 36 28) &&
  (List.range 5).all (fun r => (List.range 5).any (fun e => beField b (64 + 80 * e) 1 == r)) &&
  (List.range 5).all (fun e =>
    let o := 64 + 80 * e
    allZero (slice b (o + 1) 3) && allZero (slice b (o + 12) 4) && allZero (slice b (o + 72) 8) &&
    beField b (o + 4) 4 % 4096 == 0 && decide (beField b (o + 8) 4 ≤ roleMax (beField b o 1)) &&
    decide (beField b (o + 4) 4 + beField b (o + 8) 4 ≤ slotSize))

/-- The count of the anti-rollback fuses (R343). -/
def arbCount (s : State) : Nat := popCount 64 s.fuses.arb.toNat

/-- Check 4 of R341: the digest of each image. -/
def imagesOk (b : Bytes) : Bool :=
  (List.range 5).all (fun e =>
    let o := 64 + 80 * e
    sha384 (slice b (beField b (o + 4) 4) (beField b (o + 8) 4)) == slice b (o + 24) 48)

/-- The checks of R341, and whether a signature failed. -/
def slotCheck (s : State) (b : Bytes) : Status × Bool :=
  if !manifestOk b then (.malformed, false)
  else if !Config.verifies Config.axwickKey (slice b 0 464) (slice b 464 3373) then (.accessDenied, true)
  else if manSvn b < arbCount s then (.version, false)
  else if !imagesOk b then (.malformed, false)
  else (.done, false)

/-! ### Cores -/

/-- Some core is held in reset (R337). -/
def coreHeld (s : State) : Bool := s.fw.cores.any (fun c => c.2 == .held)

/-- The Ledger ring is copied to the recovery area where the flash can be written (R353). -/
def dumpLedger (s : State) : State :=
  if s.fw.flash.readable && mgmtUp s then
    emit (.ledgerDump s.fw.ledger.length) (modFlash (fun f => { f with dump := s.fw.ledger }) s)
  else s

/-! ### The power level (R318, R358) -/

def modPwr (f : Power → Power) (s : State) : State := { s with pwr := f s.pwr }

/-- WIDTH_CAP of every port, which narrows by a planned change where it must (R358). -/
def setWidthCap (w : Nat) (s : State) : State :=
  each (List.range 88) (fun p s => narrowToCap p (setField (prtBase p) 9 2 w s)) s

/-- Ports held DISABLED for refusing to narrow come back when the level rises to Brake or above (R358). -/
def freeForced (s : State) : State :=
  each ((List.range 88).filter (fun p => (portSt s p).forced)) (fun p s =>
    startPort p (modPort p (fun x => { x with forced := false }) s)) s

/-- The level changes (R318, R358). -/
def changeLevel (l t : Nat) (s : State) : State :=
  let old := s.pwr.level.toNat
  if l = old then s
  else
    let s := modPwr (fun x => { x with level := BitVec.ofNat 2 l, last := some t }) s
    let s := if old < l then raisePwr evPwrLevelFall l (bump cntPwrFallCnt s) else raisePwr evPwrLevelRise l s
    let s := raiseRda evRdaClkChange l (raiseSec evSecLevel l s)
    if l = 3 then setWidthCap 1 s else if old = 3 then freeForced (setWidthCap 0 s) else s

/-! ### Device reset (R368) -/

/-- Everything but the fuses, the flash and the pins is cleared; the session number counter is loaded
afresh from the TRNG (R140). What the device has put out is the model's record and stays. -/
def resetState (s : State) : State :=
  { fuses := s.fuses, pending := s.pending, out := s.out, fresh := s.fresh + 1
    trn := { ipsn := BitVec.ofNat 32 ((Config.trng s.fresh).toNat / 65536 * 65536) }
    fw := { flash := s.fw.flash }
    chip := { porN := s.chip.porN, sysRstN := s.chip.sysRstN, perstN := s.chip.perstN, running := s.chip.running
              brakePin := s.chip.brakePin, tripped := s.chip.tripped } }

/-- DOWN on every port that is not DISABLED, for a stop or a reset of the whole device (R299). -/
def downAll (reason : Nat) (s : State) : State :=
  each ((List.range 88).filter (fun p => (portSt s p).state != .disabled)) (fun p s => downGroups p reason s) s

/-- The clocks run with PWR_BRAKE_N low: the brake logic holds Brake from the first moment (R336, R359). -/
def brakeHeld (s : State) : State := if s.chip.brakePin && s.chip.running then changeLevel 2 (now s) s else s

/-- An internal device reset: the security core's watchdog, or recovery (R337, R344, R368). -/
def deviceReset (s : State) : State := brakeHeld (resetState (dumpLedger (downAll 4 s)))

/-! ### Boot (R342) -/

/-- The ROM enters recovery (R344). -/
def enterRecovery (reason : Nat) (s : State) : State :=
  traceFw 0x05 coreSec { s with
    fw := { s.fw with recovery := true, reason := reason }, fab := { s.fab with state := .recovery } }

/-- The images of a slot run: identity is derived, the secret's read path is latched off, and the power core
starts, with which the device reaches SPROUT (R326, R342). -/
def startSlot (b : Bool) (s : State) : State :=
  let man := (slotBytes s b).take 3837
  let s := { s with
    fw := { s.fw with booted := true, slotB := b, secB := b, running := man, secRun := man }
    ten := { s.ten with idReady := true, secretOpen := false }
    fab := { s.fab with state := .sprout } }
  traceFw 0x01 coreSec s

/-- SPROUT: the ROM boots slot ACTIVE, or the other slot, or enters recovery. -/
def bootRom (s : State) : State :=
  if s.fab.state != .reset || s.fw.recovery || coreSt s coreSec == .held then s
  else
    let s := traceFw 0x00 coreSec s
    match (if s.fw.flash.readable && mgmtUp s then s.fw.flash.dir else none) with
    | none => enterRecovery 2 s
    | some d =>
      let ra := slotCheck s (slotBytes s d.active)
      if ra.1 == .done then startSlot d.active s
      else
        let s := traceFw 0x03 coreSec (noteSig ra.2 s)
        let rb := slotCheck s (slotBytes s (!d.active))
        let s := setValid d.active false s
        if rb.1 == .done then
          startSlot (!d.active) (raiseMgt evMgtBootFallback (traceFw 0x04 coreSec s))
        else enterRecovery 1 (setValid (!d.active) false (traceFw 0x03 coreSec (noteSig rb.2 s)))

/-! ### Emergencies (R347, R356) -/

/-- MGT_EMERG: BRAKE, SHED, CAP_UNMET, UNDERVOLT, THERMAL. -/
def emergWord (s : State) : Word :=
  packBits [(0, b2n (decide (2 ≤ s.pwr.level.toNat))), (1, b2n (s.pwr.level == 3)), (2, b2n s.pwr.capUnmet),
    (3, b2n s.pwr.undervolt), (4, b2n (decide (420 ≤ s.pwr.tj.toNat)))]

/-! ### Anti-rollback (R343) -/

/-- Blow the lowest unblown bits until `n` are blown. -/
def blowTo (n : Nat) (a : BitVec 64) : BitVec 64 :=
  (List.range 64).foldl (fun a i => if popCount 64 a.toNat < n then a ||| BitVec.ofNat 64 (2 ^ i) else a) a

/-- FW_ARB_COMMIT; without VDD_FUSE it ends with BUSY (R434). -/
def arbCommit (c : Nat) (inp : Bytes) (fusePower : Bool) (s : State) : State :=
  let n := beField inp 0 1
  if 64 < n then mbxEnd c .malformed [] s
  else if manSvn s.fw.running < n || s.fab.state != .ready || s.fw.resetPending || !fusePower then mbxEnd c .busy [] s
  else
    let s := { s with fuses := { s.fuses with arb := blowTo n s.fuses.arb } }
    let low := fun (s : State) b => slotValid s b && decide (manSvn (slotBytes s b) < n)
    let s := if low s false then setValid false false s else s
    let s := if low s true then setValid true false s else s
    mbxEnd c .done [] (traceFw 0x0B coreSec s)

/-! ### Updates (R346 to R350) -/

/-- FW_STAGE: the bundle read by DMA goes into the slot that is not ACTIVE and is checked. DESIGN CHOICE, unsafe (log 74): with
the flash out of reach it ends with DATA_ERROR. -/
def fwStageAt (c : Nat) (o : DmaOutcome) (inp : Bytes) (s : State) : State :=
  let n := beField inp 8 4
  let b := !activeB s
  if s.fw.stage ≠ 0 then mbxEnd c .busy [] s
  else if slotSize < n then mbxEnd c .malformed [] s
  else if !mgmtUp s then mbxEnd c .dataError [] s
  else if !dmaOn s then mbxEnd c .tierFailed [] (bump cntCxlDmaErrCnt s)
  else
    let s := emit (.hostRead (beField inp 0 8) n) s
    match o with
    | .poisoned => mbxEnd c .dataError [] (bump cntCxlPoisonCnt s)
    | .refusedByHost => mbxEnd c .tierFailed [] (bump cntCxlDmaErrCnt s)
    | .ok data =>
      let img := slice data 0 n
      let s := setValid b false (modFlash (fun f => if b then { f with slotB := some img } else { f with slotA := some img }) s)
      let r := slotCheck s img
      if r.1 == .done then mbxEnd c .done [] (setValid b true s)
      else mbxEnd c r.1 [] (traceFw 0x03 coreSec (noteSig r.2 s))

/-- The checks of R347; the staged bundle cannot be read where the flash is out of reach (R10; log 74). -/
def activateCheck (s : State) (mode : Nat) : Status × Bool :=
  let b := !activeB s
  let img := slotBytes s b
  let r := slotCheck s img
  let agreed := s.fw.agreed.getD 0
  if 1 < mode then (.malformed, false)
  else if mode = 1 ∧ !agreed.getLsbD 1 then (.version, false)
  else if emergWord s != 0 then (.busy, false)
  else if s.fw.stage ≠ 0 ∨ s.fw.staging ∨ coreHeld s then (.busy, false)
  else if !mgmtUp s then (.dataError, false)
  else if r.1 != .done then r
  else if !slotValid s b then (.malformed, false)
  else if manVersion s.fw.running < manCompat img then (.version, false)
  else if Config.imageFeatures (manDigest img 1) &&& agreed != agreed then (.version, false)
  else (.done, false)

/-- FW_ACTIVATE: AT_RESET sets ACTIVE, and the security image of another slot waits for the reset (DEDUCED, log 105); HITLESS loads the images into standby memory and waits for its stages. -/
def fwActivateAt (c : Chan) (inp : Bytes) (s : State) : State :=
  let mode := beField inp 0 1
  let r := activateCheck s mode
  if r.1 != .done then mbxEnd c r.1 [] (traceFw 0x0A 0 (noteSig r.2 s))
  else
    let s := traceFw 0x07 0 s
    if mode = 0 then
      let s := writeDir (fun d => { d with active := !d.active }) s
      mbxEnd c .done [] { s with fw := { s.fw with resetPending := activeB s != s.fw.secB } }
    else { s with fw := { s.fw with stage := 1, actChan := some c, actDone := false } }

/-- The cores of a stage of R348. -/
def stageCores (k : Nat) : List Nat :=
  match k with
  | 1 => [coreSched] | 2 => (List.range 11).map (· + 7) | 3 => [0, 1, 2, 3] | 4 => [corePower] | _ => []

/-- A CHECK_READY of a loaded Almanac falls due within the next 100 µs. -/
def checkSoon (s : State) : Bool :=
  s.alm.any (fun a => a.entries.any (fun e => e.type == 5 &&
    (match entryDue a e.offset (now s) with
     | some d => decide (d ≤ now s + 100 * tickUs)
     | none => false)))

/-- The condition under which a stage begins. -/
def stageMay (s : State) (k : Nat) : Bool :=
  if k = 1 then !checkSoon s else if k = 4 then emergWord s == 0 else true

/-- A stage begins: its cores switch image. A core that is in reset or held does not run, so it cannot. -/
def beginStage (k : Nat) (s : State) : State :=
  each (stageCores k) (fun n s => if coreSt s n == .running then setCore n .switching s else s)
    { s with fw := { s.fw with stage := k + 1 } }

/-- The cores of a stage resume; what a cluster core had to decide about its lanes it decides now (R298). -/
def resumeStage (k : Nat) (s : State) : State :=
  each (stageCores k) (fun n s => if coreSt s n == .switching then clusterResumes n (setCore n .running s) else s) s

/-- The running stage is done. -/
def endStage (k : Nat) (s : State) : State := traceFw 0x08 0 (resumeStage k s)

/-- Every core of a stage is switching: none has dropped out of it. -/
def stageWhole (s : State) (k : Nat) : Bool := (stageCores k).all (fun n => coreSt s n == .switching)

/-- A stage of a failed activation has been switched back; the one done before it follows, in reverse order (R350). -/
def stageBack (k : Nat) (s : State) : State :=
  let s := resumeStage k s
  if k ≤ 1 then { s with fw := { s.fw with stage := 0, back := false } } else beginStage (k - 1) s

/-- The command of the activation ends, where it has not ended yet. -/
def endActivate (st : Status) (s : State) : State :=
  match s.fw.actChan with
  | some c => if s.fw.actDone then s else mbxEnd c st [] s
  | none => s

/-- Stage 4 is done: ACTIVE names the staged slot, and its security image waits for the next reset. -/
def activationDone (s : State) : State :=
  let b := !activeB s
  let s := writeDir (fun d => { d with active := b }) s
  let s := { s with fw := { s.fw with
    stage := 0, slotB := b, running := (slotBytes s b).take 3837, resetPending := b != s.fw.secB } }
  let s := endActivate .done (raiseMgt evMgtActDone (traceFw 0x09 0 s))
  { s with fw := { s.fw with actChan := none, actDone := false } }

/-- ACTIVATION_STAGE: the running stage ends and the next one begins where its condition holds; a stage 4
that meets an emergency is deferred (R349). -/
def activationStage (s : State) : State :=
  let k := s.fw.stage - 1
  if s.fw.stage = 0 ∨ 5 < s.fw.stage then s
  else if s.fw.back then stageBack k s
  else if !stageWhole s k then s
  else
    let s := if k = 0 then s else endStage k s
    if k = 4 then activationDone s
    else if stageMay s (k + 1) then beginStage (k + 1) s
    else if k + 1 = 4 then
      let s := endActivate .done (raiseMgt evMgtPowerDeferred { s with fw := { s.fw with stage := 6 } })
      { s with fw := { s.fw with actDone := true } }
    else s

/-- ACTIVATION_STAGE_TIMEOUT (R350): the core restarts on its old image, and the stages done are switched back one after the
other; a stage that is being switched back ends likewise. -/
def stageTimeout (s : State) : State :=
  let k := s.fw.stage - 1
  if s.fw.stage < 2 ∨ 5 < s.fw.stage then s
  else if s.fw.back then stageBack k s
  else
    let s := endActivate .aborted (raiseMgt evMgtActFail (traceFw 0x0A 0 s))
    stageBack k { s with fw := { s.fw with actChan := none, actDone := false, back := true } }

/-- ACTIVATION_START_TIMEOUT (R348): no moment for stage 1 has come within 10 s. -/
def startTimeout (s : State) : State :=
  if s.fw.stage = 1 then
    let s := endActivate .busy (traceFw 0x0A 0 s)
    { s with fw := { s.fw with stage := 0, actChan := none, actDone := false } }
  else s

/-- POWER_STAGE_DEFERRED_RUN (R349): stage 4 begins by itself. -/
def deferredRun (s : State) : State :=
  if s.fw.stage = 6 ∧ emergWord s = 0 then beginStage 4 s else s

/-! ### Negotiation (R351) -/

/-- Some command that needs a feature is outstanding on a channel, running or waiting. -/
def featureBusy (s : State) (feats : BitVec 64) : Bool :=
  (List.range 4).any (fun d => (chan s d).busy &&
    (match mbxFeature (chan s d).opcode.toNat (if (chan s d).started then (chan s d).named else mbxInput (chan s d) []) with
     | some b => feats.getLsbD b
     | none => false))

/-- NEGOTIATE. -/
def negotiateAt (c : Nat) (inp : Bytes) (s : State) : State :=
  let both := BitVec.ofNat 64 (beField inp 4 8) &&& ownFeatures
  let dropped := s.fw.agreed.getD 0 &&& ~~~both
  if featureBusy s dropped then mbxEnd c .busy [] s
  else
    mbxAnswer c (beBytes 4 Config.interfaceVersion.toNat ++ beBytes 8 ownFeatures.toNat)
      (fun s => traceFw 0x0C 0 { s with fw := { s.fw with agreed := some both } }) s

/-! ### Status (R356, R416) -/

/-- MGT_FW_STATUS. -/
def fwStatusWord (s : State) : Word :=
  packBits [(0, b2n (activeB s)), (1, b2n s.fw.resetPending), (2, s.fw.stage), (5, b2n (slotValid s false)),
    (6, b2n (slotValid s true)), (8, manSvn s.fw.running)]

/-- The role's cores have already resumed on the staged image in an activation under way (R348). -/
def switched (s : State) (role : Nat) : Bool :=
  match role with
  | 1 => s.fw.stage == 5 || s.fw.stage == 6
  | 3 => decide (3 ≤ s.fw.stage ∧ s.fw.stage ≤ 6)
  | 4 => decide (4 ≤ s.fw.stage ∧ s.fw.stage ≤ 6)
  | _ => false

/-- The manifest of the bundle a role's image runs from. -/
def roleMan (s : State) (role : Nat) : Bytes :=
  if role = 0 then s.fw.secRun else if switched s role then (slotBytes s (!activeB s)).take 3837 else s.fw.running

/-- The slot a role's image runs from. -/
def roleSlot (s : State) (role : Nat) : Bool :=
  if role = 0 then s.fw.secB else if switched s role then !activeB s else s.fw.slotB

/-- The running image version of a role. -/
def imgVersion (s : State) (role : Nat) : Nat :=
  if !s.fw.booted then 0 else manImgVersion (roleMan s role) role

/-- FW_STATUS. -/
def fwStatusAt (c : Nat) (s : State) : State :=
  let seq := match s.fw.flash.dir with | some d => d.seq.toNat | none => 0
  mbxAnswer c (beBytes 4 (fwStatusWord s).toNat ++ (List.range 5).flatMap (fun r => beBytes 8 (imgVersion s r)) ++
    beBytes 4 seq ++ List.replicate 16 0) id s

/-! ### Recovery (R344, R345) -/

/-- The recovery protocol is served: by the ROM, or in FAULTED for a Catalogue by the management complex (R375). -/
def recoveryOn (s : State) : Bool := mgmtUp s && (s.fw.recovery || (s.fab.state == .faulted && s.fab.cause == 1))

/-- A recovery message this device sends: the 32-byte header, then the data (R345). -/
def recMsg (s : State) (op st next : Nat) (data : Bytes) : Bytes :=
  beBytes 2 0x4F52 ++ beBytes 1 op ++ beBytes 1 st ++ beBytes 4 s.fw.recSeq.toNat ++ beBytes 8 s.fuses.serial.toNat ++
  beBytes 8 next ++ beBytes 2 data.length ++ List.replicate 6 0 ++ data

/-- Send it, with the next message number (DESIGN CHOICE, log 106: numbered from 0 at reset). -/
def recSend (op st next : Nat) (data : Bytes) (s : State) : State :=
  emit (.recovery (recMsg s op st next data)) { s with fw := { s.fw with recSeq := s.fw.recSeq + 1 } }

/-- A STATUS answer. -/
def recStatus (st : Status) (next : Nat) (s : State) : State := recSend 6 st.code next [] s

/-- DISCOVER: OFFER, where the serial number is this device's or 0. -/
def recDiscover (serial : BitVec 64) (s : State) : State :=
  if recoveryOn s && (serial == 0 || serial == s.fuses.serial) then
    recSend 2 0 0 (beBytes 4 Config.romVersion.toNat ++ beBytes 1 (arbCount s) ++ beBytes 1 s.fw.reason) s
  else s

/-- A message to this device: one whose SERIAL names another is not taken (R345). -/
def recMine (s : State) (h : RecFrom) : Bool := recoveryOn s && h.serial == s.fuses.serial

/-- BEGIN. -/
def recBegin (from_ : RecFrom) (kind total : Nat) (s : State) : State :=
  let h := from_.host
  if !recMine s from_ then s
  else if (match s.fw.session with | some r => r.host != h | none => false) then recStatus .busy 0 s
  else if !(kind = 2 ∨ (kind = 1 ∧ s.fw.recovery)) ∨ slotSize < total then recStatus .malformed 0 s
  else recStatus .done 0 (modFlash (fun f => { f with object := [] })
    { s with fw := { s.fw with session := some { host := h, kind := kind, total := total } } })

/-- DATA: bytes at the offset expected next; a message already taken is answered again. -/
def recData (from_ : RecFrom) (off : Nat) (bs : Bytes) (s : State) : State :=
  let h := from_.host
  match (if recMine s from_ then s.fw.session else none) with
  | none => if recMine s from_ then recStatus .malformed 0 s else s
  | some r =>
    let n := s.fw.flash.object.length
    if r.host ≠ h then recStatus .busy 0 s
    else if off + bs.length ≤ n then recStatus .done n s
    else if off ≠ n ∨ 1024 < bs.length ∨ r.total < n + bs.length then recStatus .malformed n s
    else recStatus .done (n + bs.length) (modFlash (fun f => { f with object := f.object ++ bs }) s)

/-- END: the object is checked and written; a bundle resets the device. -/
def recEnd (from_ : RecFrom) (s : State) : State :=
  let h := from_.host
  match (if recMine s from_ then s.fw.session else none) with
  | none => if recMine s from_ then recStatus .malformed 0 s else s
  | some r =>
    let obj := s.fw.flash.object
    let n := obj.length
    let closed := fun (s : State) => { s with fw := { s.fw with session := none } }
    if r.host ≠ h then recStatus .busy 0 s
    else if n ≠ r.total then recStatus .malformed n s
    else if r.kind = 1 then
      let v := slotCheck s obj
      if v.1 != .done then recStatus v.1 n (closed (traceFw 0x03 coreSec (noteSig v.2 s)))
      else
        let s := modFlash (fun f => { f with slotA := some obj }) s
        let s := writeDir (fun d => { d with active := false, validA := true }) s
        deviceReset (recStatus .done n (closed s))
    else
      let v := catCheck s obj
      if v.1 != .done then recStatus v.1 n (closed (noteSig v.2 s))
      else recStatus .done n (closed (modFlash (fun f => { f with cat0 := some obj, cat1 := some obj }) s))

/-- A session ends after 10 s without a message. -/
def recTimeout (s : State) : State := { s with fw := { s.fw with session := none } }

/-! ### Ledger export (R354) -/

/-- Entries not yet sent, in datagrams of up to 32. -/
def datagrams : Nat → List LedgerEntry → List Emit
  | 0, _ => []
  | fuel + 1, es =>
    if es.isEmpty then [] else Emit.udp ((es.take 32).flatMap LedgerEntry.bytes) :: datagrams fuel (es.drop 32)

/-- LEDGER_EXPORT: entries go to the collector the Catalogue names. -/
def exportLedger (s : State) : State :=
  if !s.fab.collector || !mgmtRuns s || !mgmtUp s then s
  else
    let es := s.fw.ledger.filter (fun e => decide (s.fw.exported ≤ e.seq.toNat))
    emits (datagrams 1024 es) { s with fw := { s.fw with exported := s.fw.head.toNat } }

end Sys2Proof.Machine
end

