-- ==== Sys2Proof/Machine/Power.lean ====
section
/-!
DEFINITION. Power and thermal control (chapter 15): the levels and what a change of level does (R357, R358),
the causes (R359, R360), the cap (R361 to R363) and the failures of supply, cooling and tray manager (R365), with the
cores' watchdogs (R337).
-/

namespace Sys2Proof.Machine
open Sys2Proof

/-- Typical total power of a level in W (R357). -/
def levelTotal (l : Nat) : Nat := [1275, 1235, 1010, 650].getD l 0

/-- The junction threshold of a level in quarter degrees (R360). -/
def levelThreshold (l : Nat) : Nat := [0, 380, 420, 440].getD l 0

/-- PWR_CAP.CAP. -/
def powerCap (s : State) : Nat := fieldOf s (pwrBase + 4) 0 11

/-- The power core serves its loops and the tray manager (R342, R337). -/
def powerRuns (s : State) : Bool := s.fw.booted && coreSt s corePower == .running

/-- The level the standing causes demand, the cap aside (R359): temperature, the brake pin, undervoltage, and
the brake the hardware holds while the power core is out (R337). -/
def heldDemand (s : State) : Nat :=
  let t := s.pwr.tj.toNat
  let thermal := if 440 ≤ t then 3 else if 420 ≤ t then 2 else if 380 ≤ t then 1 else 0
  Nat.max thermal (if s.chip.brakePin || s.pwr.undervolt || s.pwr.coreBrake then 2 else 0)

/-- A fall to a level at tick `t`: within 100 ms of the last change it goes straight to Shed (R318, R359). -/
def fallTo (l t : Nat) (s : State) : State :=
  if l ≤ s.pwr.level.toNat then s
  else
    let soon := match s.pwr.last with | some x => decide (t < x + 100 * tickMs) | none => false
    changeLevel (if soon then 3 else l) t s

/-- CAP_UNMET is set, and its event rises when it was not (R362, R363). -/
def capUnmetSet (s : State) : State :=
  if s.pwr.capUnmet then s else raisePwr evPwrCapUnmet 0 (modPwr (fun x => { x with capUnmet := true }) s)

/-- The event bits of temperatures newly reached (R364). -/
def thermalEvents (old new sensor : Nat) (s : State) : State :=
  let hit := fun (th : Nat) => decide (old < th ∧ th ≤ new)
  let s := if hit 380 then raisePwr evPwrThrottleT sensor s else s
  let s := if hit 420 then raisePwr evPwrBrakeT sensor s else s
  if hit 440 then raisePwr evPwrShedT sensor s else s

/-- What a 1 ms boundary makes of the cap (R359, R362, R363). -/
def judgeCap (s : State) : State :=
  if powerCap s < s.pwr.avgW.toNat then
    let s := capUnmetSet s
    if s.pwr.level = 3 then
      let s := if s.pwr.episode then s else bump cntPwrUnmetCnt s
      modPwr (fun x => { x with belowFloor := true, episode := true }) s
    else s
  else
    let was := s.pwr.capUnmet
    let s := modPwr (fun x => { x with capUnmet := false, belowFloor := false, episode := false }) s
    if was then raisePwr evPwrCapMet 0 s else s

/-- POWER_BOUNDARY: a multiple of 1 ms of Fabric Time (R359). -/
def powerBoundaryAt (t : Tick) (avg : BitVec 11) (tj : BitVec 10) (sensor : BitVec 5) (s : State) : State :=
  if !powerRuns s || t.toNat % tickMs ≠ 0 then s
  else
    let s := thermalEvents s.pwr.tj.toNat tj.toNat sensor.toNat s
    let s := peakTo cntPwrTjPeak tj.toNat (peakTo cntPwrPeakW avg.toNat s)
    let s := modPwr (fun x => { x with avgW := avg, tj := tj, sensor := sensor, boundary := some t.toNat }) s
    let s := { s with hlth := { s.hlth with tjPeak := Nat.max s.hlth.tjPeak tj.toNat } }
    let above := decide (powerCap s < avg.toNat)
    let s := judgeCap s
    let l := Nat.max (heldDemand s) (if above then Nat.min 3 (s.pwr.level.toNat + 1) else 0)
    fallTo l t.toNat s

/-- POWER_RISE_BOUNDARY: a multiple of 100 ms of Fabric Time (R360). -/
def powerRiseAt (t : Tick) (avg100 : BitVec 11) (s : State) : State :=
  let cur := s.pwr.level.toNat
  let late := match s.pwr.last with | some x => decide (x + 100 * tickMs ≤ t.toNat) | none => true
  let above := decide (powerCap s < s.pwr.avgW.toNat)
  if powerRuns s && t.toNat % (100 * tickMs) == 0 && cur != 0 && late && decide (heldDemand s < cur) && !above &&
     decide (avg100.toNat * levelTotal (cur - 1) ≤ powerCap s * levelTotal cur) &&
     decide (s.pwr.tj.toNat + 20 ≤ levelThreshold cur) then
    changeLevel (cur - 1) t.toNat s
  else s

/-- PWR_BRAKE_N: Brake at once while it is low, in hardware (R336, R359). -/
def brakePinAt (level : Bool) (t : Tick) (s : State) : State :=
  if level then { s with chip := { s.chip with brakePin := false } }
  else if s.chip.brakePin then s
  else
    let s := raisePwr evPwrBrakePin 0 (bump cntPwrBrakePinCnt { s with chip := { s.chip with brakePin := true } })
    fallTo 2 t.toNat s

/-- UNDERVOLT and its end (R365). -/
def undervoltAt (t : Tick) (s : State) : State :=
  if s.pwr.undervolt then s
  else fallTo 2 t.toNat (raisePwr evPwrUndervolt 0 (modPwr (fun x => { x with undervolt := true }) s))

def undervoltOver (s : State) : State := modPwr (fun x => { x with undervolt := false }) s

/-- The device stops every clock, after DOWN with a reason on every running port (R365); FT_PPS_OUT and ELS_EN are low then
(R432). -/
def stopDevice (reason : Nat) (s : State) : State :=
  let s := downAll reason s
  { s with
    chip := { s.chip with running := false, stopped := true, ppsOut := false }
    lasers := s.lasers.map (fun x => (x.1, { x.2 with enabled := false })) }

/-- THERMAL_TRIP: THERMTRIP_N is asserted (R336, R365). -/
def thermalTripAt (s : State) : State :=
  let s := stopDevice 2 s
  { s with chip := { s.chip with tripped := true } }

/-- The trip acts while the clocks stand too, POR_N low included (R426). -/
def tripStanding (s : State) : State := { s with chip := { s.chip with tripped := true } }

/-- A cap takes effect (R361, R362). -/
def newCap (w sample t : Nat) (s : State) : State :=
  let s := peakTo cntPwrPeakW sample (setField (pwrBase + 4) 0 11 w s)
  if w < sample then fallTo 2 t (capUnmetSet s) else s

/-- PWR_CAP, written over I3C. -/
def pwrCapAt (w : BitVec 32) (sample : BitVec 11) (t : Tick) (s : State) : State :=
  if !powerRuns s || !mgmtUp s then s
  else
    let s := modPwr (fun x => { x with tmLost := false, orphaned := false }) s
    if 1400 < w.toNat then raisePwr evPwrCapRefused 0 s
    else newCap w.toNat sample.toNat t.toNat (modPwr (fun x => { x with orphan := false, capWritten := true }) s)

/-- PWR_TM_HB. -/
def tmHbAt (s : State) : State :=
  if powerRuns s && mgmtUp s then modPwr (fun x => { x with tmLost := false, orphaned := false }) s else s

/-- TM_LOST: no heartbeat for 3 s (R365). -/
def tmLostAt (s : State) : State :=
  if !powerRuns s || s.pwr.tmLost then s else raisePwr evPwrTmLost 0 (modPwr (fun x => { x with tmLost := true }) s)

/-- ORPHAN: the tray manager has been lost for 60 s; ORPHAN_W is the cap, once for each loss (R365). -/
def orphanAt (sample : BitVec 11) (t : Tick) (s : State) : State :=
  if !powerRuns s || !s.pwr.tmLost || s.pwr.orphaned then s
  else
    newCap (fieldOf s pwrBase 0 11) sample.toNat t.toNat
      (raisePwr evPwrOrphan 0 (modPwr (fun x => { x with orphan := true, orphaned := true }) s))

/-- PORT_FORCED: at Shed a peer has not accepted the narrowing within 10 ms (R358). -/
def portForcedAt (p : Nat) (s : State) : State :=
  let x := portSt s p
  if powerRuns s && s.pwr.level == 3 && (x.state == .up || x.state == .recover) &&
     decide (capLanes s p < lanesOf x.width.toNat) then
    raisePwr evPwrPortForced p (bump cntPwrForcedCnt (stopPort p (modPort p (fun x => { x with forced := true }) s)))
  else s

/-! ### Watchdogs (R337) -/

/-- The core after an expiry: in reset, or held at the third within 10 minutes. -/
def coreOut (n : Nat) (held : Bool) (s : State) : State := setCore n (if held then .held else .inReset) s

/-- A core is held: the device reports itself faulted (R337, R383). -/
def noteHeld (s : State) : State :=
  raiseMgt evMgtCoreHeld { s with fab := { s.fab with state := .faulted, cause := 3 } }

/-- The brake the hardware holds by itself while the power core is out: no level above Brake, and none below, which only that
core reaches (R336, R337; DEDUCED, log 107). -/
def hardwareBrake (s : State) : State := if s.pwr.level.toNat < 2 then changeLevel 2 (now s) s else s

/-- An expiry of a core's watchdog is counted for 10 minutes. -/
def noteExpiry (n : Nat) (s : State) : State :=
  let ok := (tget [] s.fw.expiries n).filter (fun t => decide (now s < t))
  { s with fw := { s.fw with expiries := tput [] s.fw.expiries n (ok ++ [now s + 600 * tickS]) } }

/-- The security core's expiries outlast the device reset that each brings, or a third could never be seen. DESIGN CHOICE, unsafe
(log 135): the 10 minutes are counted in Fabric Time, and over that reset go on from its new count. -/
def keepExpiries (was s : State) : State :=
  let left := (tget [] was.fw.expiries coreSec).map (fun t => now s + (t - now was))
  { s with fw := { s.fw with expiries := tput [] s.fw.expiries coreSec left } }

/-- A watchdog expires; the third time within 10 minutes its core is held. -/
def watchdogExpire (n : Nat) (s : State) : State :=
  let s := if coreSt s n == .held then s else noteExpiry n s
  let held := decide (3 ≤ (tget [] s.fw.expiries n).length)
  if coreSt s n == .held then s
  else
    let s := raiseMgt evMgtWdog (trace 0x06 n 0 n (bump (cntMgtWdogCnt n) s))
    let s := hlth 1088 (1024 * 1024) s
    if n = coreSec then
      let s := keepExpiries s (deviceReset s)
      if held then noteHeld (setCore n .held s) else s
    else
      let s := dumpLedger s
      let s := if n < 4 then
          mbxAbortAll (each (List.range 4) (fun m s => if coreSt s m == .held then s else coreOut m (held && m == n) s) s)
        else coreOut n held s
      let s := if n = corePower then hardwareBrake (modPwr (fun x => { x with coreBrake := true }) s) else s
      if held then noteHeld s else s

/-- The ports of a cluster that are neither UP nor in RECOVER restart from DETECT. -/
def restartPorts (c : Nat) (s : State) : State :=
  each ((List.range 8).map (fun i => c * 8 + i)) (fun p s =>
    let x := portSt s p
    if x.state == .up || x.state == .recover then s else startPort p (toDetect p false s)) s

/-- A core in reset after its watchdog runs again: the power core lets go of the hardware brake, a cluster core starts
its idle ports anew. -/
def coreRestarted (n : Nat) (s : State) : State :=
  if coreSt s n == .inReset then
    let s := setCore n .running s
    let s := if n = corePower then { s with pwr := { s.pwr with coreBrake := false } } else s
    if 7 ≤ n ∧ n < 18 then restartPorts (n - 7) (clusterResumes n s) else s
  else s

/-! ### The pins the device drives (R428, R432) -/

/-- A cause of ALERT_N holds (R364). -/
def alertOn (s : State) : Bool :=
  s.pwr.capUnmet || s.pwr.undervolt || decide (420 ≤ s.pwr.tj.toNat) || s.pwr.tmLost

/-- What the output pins show: lanes and buses idle or in use, light on the F-ports 72 to 87, the open-drain pins by what they
assert, and ELS_EN of modules 0 to 7. -/
structure OutPins where
  eLanesIdle : Bool
  cxlIdle    : Bool
  mgmtIdle   : Bool
  ftxIdle    : Bool
  light      : List Bool
  thermtrip  : Bool
  alert      : Bool
  ppsOut     : Bool
  elsEn      : List Bool
  deriving DecidableEq, Repr

/-- The pins of a device whose clocks stand. -/
def pinsStanding (s : State) (alert : Bool) : OutPins :=
  { eLanesIdle := true, cxlIdle := true, mgmtIdle := true, ftxIdle := true, light := List.replicate 16 false
    thermtrip := s.chip.tripped, alert := alert, ppsOut := false, elsEn := List.replicate 8 false }

/-- The table of R432. DEDUCED, unsafe (log 136): a reset pin that is low decides before a supply-loss stop, and after a trip
POR_N low only. -/
def pinsOf (s : State) : OutPins :=
  if !s.chip.porN then pinsStanding s false
  else if s.chip.tripped then pinsStanding s true
  else if !s.chip.sysRstN then pinsStanding s false
  else if !s.chip.running then pinsStanding s s.chip.stopped
  else
    { eLanesIdle := !s.fab.catalogue, cxlIdle := s.fab.state == .reset
      mgmtIdle := !s.fab.catalogue && s.fab.state != .recovery, ftxIdle := s.fab.state == .reset
      light := (List.range 16).map (fun i =>
        let x := portSt s (72 + i)
        x.state != .disabled && !x.lightOff && (tget {} s.lasers (i / 2)).enabled)
      thermtrip := false, alert := alertOn s, ppsOut := s.chip.ppsOut
      elsEn := (List.range 8).map (fun m => (tget {} s.lasers m).enabled) }

end Sys2Proof.Machine
end

