-- ==== Sys2Proof/Machine/Bringup.lean ====
section
/-!
DEFINITION. Start-up and discovery (chapter 16): the reset pins (R368), the clocks and bridges (R10, R18), the
CXL link as far as it gates the device (R24, R402), applying the Catalogue (R376), rack announces (R379),
adverts (R380), settling (R381), the readiness states (R383, R384), and quarantine from the host (R416).
-/

namespace Sys2Proof.Machine
open Sys2Proof

/-! ### The CXL link (R24, R402, R418) -/

/-- The link goes down: host-tier accesses end with TIER_FAILED, running commands lose their results, and CXL.mem accesses
not yet at MEM are gone. -/
def cxlDown (s : State) : State :=
  let s := dropFrames (fun f => !isCxlReq s f) s
  let s := mbxLose { s with hif := { s.hif with cxl := { trained := s.hif.cxl.trained } } }
  hostLost s

/-- The link trains, from Sprout onward, while PERST_N is high and its clock runs; that it trains shows that a lost REFCLK_CXL is
back (R369, R370, R402; DEDUCED, safe, log 53). -/
def cxlUpAt (width : BitVec 4) (speed : BitVec 2) (bme : Bool) (s : State) : State :=
  let ok := s.fab.state != .reset && s.chip.perstN && !(tget {} s.chip.bridges 0).down &&
    (width == 1 || width == 2 || width == 4 || width == 8) && speed != 3
  if !ok then s
  else
    let s := if s.hif.cxl.trained then bump cntCxlRetrainCnt s else s
    { s with
      chip := { s.chip with cxlClkLost := false }
      hif := { s.hif with cxl := { s.hif.cxl with up := true, width := width, speed := speed, bme := bme, trained := true } } }

/-! ### Reset pins (R368) -/

/-- A reset pin has fallen: DOWN on every running port, then everything but fuses and flash is cleared and the
clocks stand. A SYS_RST_N reset copies the Ledger ring first. POR_N low stands for the power-on that ends a trip (R432); no row
removes the supply (log 110). -/
def pinReset (por : Bool) (s : State) : State :=
  let s := if s.chip.running then downAll 4 s else s
  let s := if por || !s.chip.running then s else dumpLedger s
  let s := resetState s
  { s with chip := { s.chip with
    running := false, tripped := s.chip.tripped && !por
    porN := s.chip.porN && !por, sysRstN := s.chip.sysRstN && por } }

/-- The clocks run once both pins are high and no trip is in force. -/
def pinRelease (s : State) : State :=
  brakeHeld { s with chip := { s.chip with running := s.chip.porN && s.chip.sysRstN && !s.chip.tripped } }

def porAt (level : Bool) (s : State) : State :=
  if level = s.chip.porN then s
  else if level then pinRelease { s with chip := { s.chip with porN := true } }
  else pinReset true s

def sysRstAt (level : Bool) (s : State) : State :=
  if level = s.chip.sysRstN then s
  else if level then pinRelease { s with chip := { s.chip with sysRstN := true } }
  else pinReset false s

/-- PERST_N: the CXL controller, its IDE keys and the agreed feature set are cleared (R351, R368). -/
def perstAt (level : Bool) (s : State) : State :=
  let s := { s with chip := { s.chip with perstN := level } }
  if level then s else cxlDown { s with fw := { s.fw with agreed := none } }

/-! ### Bridges and clocks (R10, R18) -/

/-- Ports go down as link failures. -/
def portsFail (ps : List Nat) (s : State) : State := each ps (fun p s => toDetect p false s) s

/-- Half of the Stacks, the Annex and the Cellar is out of service (R377). -/
def halfLost (m : Nat) (s : State) : State :=
  let pcs := (List.range 64).map (· + 64 * m) ++ (List.range 8).map (· + 128 + 8 * m)
  let banks := (List.range 32).map (· + 32 * m)
  let s := { s with
    home := { s.home with pcOut := pcs.foldl (fun l c => insertNat c l) s.home.pcOut }
    arr := { s.arr with bankOut := banks.foldl (fun l b => insertNat b l) s.arr.bankOut } }
  each banks bankAborts s

/-- BRIDGE_DOWN. -/
def bridgeDownAt (d : Die) (s : State) : State :=
  let n := dieNum d
  if (tget {} s.chip.bridges n).down then s
  else
    let s := { s with chip := { s.chip with bridges := tmod {} s.chip.bridges n (fun b => { b with down := true }) } }
    let s := notice .bridgeDown 0 noEp 1088 s
    let s := portsFail ((List.range 88).filter (fun p => dieOf p == n)) s
    match d with
    | .e0 => cxlDown s
    | .m0 => halfLost 0 s
    | .m1 => halfLost 1 s
    | _ => s

/-- BRIDGE_FLIT_REPLAY: after 16 consecutive failed replays of one flit the bridge is down. -/
def bridgeReplay (d : Die) (failed : Bool) (s : State) : State :=
  let n := dieNum d
  let b := tget {} s.chip.bridges n
  if b.down then s
  else
    let run := if failed then b.failRun + 1 else 0
    let s := { s with chip := { s.chip with
      bridges := tput {} s.chip.bridges n { b with failRun := run, replays := b.replays + 1 } } }
    let s := hlth 1088 16 s
    if 16 ≤ run then bridgeDownAt d s else s

/-- REFCLK_LOST. -/
def refclkLostAt (k : RefClk) (s : State) : State :=
  match k with
  | .sys => stopDevice 3 s
  | .cxl => cxlDown { s with chip := { s.chip with cxlClkLost := true } }
  | .sd i =>
    let s := { s with chip := { s.chip with sdLost := insertNat i.val s.chip.sdLost } }
    portsFail ((List.range 88).filter (fun p => sdOf (dieOf p) == i.val)) s

/-! ### The Catalogue at start (R371, R375, R376) -/

/-- A copy of the Catalogue is checked; an absent one is not readable. -/
def catTry (s : State) (b : Option Bytes) : Option Bytes × Bool :=
  match b with
  | none => (none, false)
  | some b => let r := catCheck s b; (if r.1 == .done then some b else none, r.2)

/-- Entering CONFIG: A-ports of empty slots are held DISABLED, the others start (R376, R378). -/
def enterConfig (s : State) : State :=
  let s := { s with fab := { s.fab with state := .config } }
  each (List.range 88) (fun p s =>
    if !isFabricPort s p && slotEmpty s p then holdPort p s else startPort p s) s

/-- CATALOGUE_APPLY. -/
def catalogueApplyAt (s : State) : State :=
  if s.fab.state != .sprout || !mgmtRuns s then s
  else
    let copy := fun (b : Option Bytes) => if s.fw.flash.readable && mgmtUp s then b else none
    let r0 := catTry s (copy s.fw.flash.cat0)
    let s := noteSig r0.2 s
    match r0.1 with
    | some b => enterConfig (applyCatalogue b s)
    | none =>
      let r1 := catTry s (copy s.fw.flash.cat1)
      let s := noteSig r1.2 s
      match r1.1 with
      | some b => enterConfig (applyCatalogue b s)
      | none => { s with fab := { s.fab with state := .faulted, cause := 1 } }

/-- MEMORY_TRAINED: a tier has finished training, or retraining once it was trained: the channels that failed it are out of
service (R243), and with the first training of the Stacks the system partition is written as zeros under a fresh key (R64,
R376, R377). -/
def memoryTrainedAt (t : Tier) (failed : BitVec 128) (s : State) : State :=
  if !s.fab.catalogue then s
  else match t with
    | .stacks =>
      let bad := bitsSet 128 failed.toNat
      if s.fab.stkTrained then each bad channelFail s
      else
        let groups := (List.finRange 16).filter (fun g => bad.any (fun c => c / 8 == g.val))
        let s := each bad channelFail s
        draw { s with
          fab := { s.fab with stkTrained := true }
          home := { s.home with failed := s.home.failed ++ groups.map .stacksGroup }
          ten := { s.ten with sysKey := s.fresh } }
    | .annex =>
      let bad := bitsSet 16 failed.toNat
      if s.fab.anxTrained then each bad (fun k s => channelFail (128 + k) s) s
      else
        let pkgs := (List.finRange 16).filter (fun k => bad.contains k.val)
        let s := each bad (fun k s => channelFail (128 + k) s) s
        { s with
          fab := { s.fab with anxTrained := true }
          home := { s.home with failed := s.home.failed ++ pkgs.map .annexPackage } }

/-! ### Readiness (R383, R384) -/

/-- The port is UP or given up (R381). -/
def portDone (s : State) (p : Nat) : Bool :=
  let x := portSt s p
  x.state == .up || !prtEn s p || portHeld x

/-- The memories are initialised (R376). -/
def memoriesReady (s : State) : Bool := s.fab.stkTrained && s.fab.anxTrained && (bootDirty s).isEmpty

/-- The payload of an advert's CTL frame (R380). -/
def advertBytes (a : Advert) : Bytes :=
  beBytes 2 a.node.toNat ++ beBytes 8 a.unitId.toNat ++ beBytes 4 a.domain.toNat ++ beBytes 4 a.seq.toNat ++
  beBytes 1 (a.state.toNat + 16 * b2n a.transit) ++ beBytes 1 a.links.length ++
  a.links.flatMap (fun l => beBytes 1 l.port.toNat ++ beBytes 2 l.peer.toNat ++ beBytes 1 l.peerPort.toNat)

/-- Originate an advert on every fabric port in UP (R380). -/
def originate (s : State) : State :=
  let s := { s with fab := { s.fab with advSeq := s.fab.advSeq + 1 } }
  let a : Advert := {
    node := BitVec.ofNat 11 (nodeId s), unitId := s.fuses.serial, domain := s.fab.domain, seq := s.fab.advSeq
    state := BitVec.ofNat 4 s.fab.state.code, transit := s.fab.transit, links := ownLinks s }
  emits ((ownLinks s).filterMap (fun l =>
    if (portSt s l.port.toNat).state == .up then some (Emit.ctl l.peer (.advert (advertBytes a))) else none)) s

/-- The transitions of R383 whose conditions now hold. -/
def advanceReady (s : State) : State :=
  let up := (List.range 88).any (fun p => (portSt s p).state == .up)
  let s := if s.fab.state == .config && up then { s with fab := { s.fab with state := .init } } else s
  let s := if s.fab.state == .init && memoriesReady s && (List.range 88).all (portDone s) then
      { s with fab := { s.fab with state := .discover } } else s
  if s.fab.state == .discover && s.fab.settled && s.fab.routed && (s.time.servo == .locked || s.time.lockBound) then
    { s with fab := { s.fab with state := .standby, transit := s.fab.firstUp } } else s

/-- FAB_JOIN: STANDBY to READY; EN is released and HELLO goes out on the A-ports (R384). -/
def fabJoinAt (c : Nat) (s : State) : State :=
  let s := { s with fab := { s.fab with state := .ready, joined := true, transit := true } }
  let s := each (List.range 72) maybeHello s
  mbxEnd c .done [] (originate (traceFw 0x02 0 s))

/-! ### Rack announces (R379) -/

/-- The chain and its announces run from CONFIG on. -/
def chainRuns (s : State) : Bool := s.fab.catalogue

/-- RACK_ANNOUNCE_SEND: this device's own announce. -/
def announceOwn (s : State) : State :=
  if chainRuns s then
    emit (.chainAnnounce { node := BitVec.ofNat 11 (nodeId s), unitId := s.fuses.serial, domain := s.fab.domain, modes := s.fab.modes }) s
  else s

/-- The announce that arrives directly on FTX_IN is the expected neighbour's. -/
def announceOk (s : State) (a : Announce) : Bool :=
  let plane := (s.fab.plane.toNat + 7) % 8
  let unit := (s.fab.cabling[plane]?).getD 0
  a.node.toNat == s.fab.rack.toNat * 8 + plane && (unit == 0 || unit == a.unitId) && a.domain == s.fab.domain

def setMismatch (s : State) : State := { s with fab := { s.fab with mismatch := true } }

/-- RACK_ANNOUNCE. -/
def announceAt (a : Announce) (direct : Bool) (s : State) : State :=
  if !chainRuns s then s
  else
    let s := if direct && !announceOk s a then setMismatch (chainBreakAt s) else s
    let differ := if a.node.toNat / 8 = s.fab.rack.toNat then
        (List.range 11).filter (fun c => (a.modes[c]?).isSome && a.modes[c]? != s.fab.modes[c]?) else []
    let s := each differ (fun c s => setMismatch (each (List.range 8) (fun i s => holdPort (c * 8 + i) s) s)) s
    if a.node.toNat = nodeId s then s else emit (.chainAnnounce a) s

/-! ### Adverts (R380, R381) -/

/-- A conflict over a node ID takes it out of the routes; the device itself, where the ID is its own, is FAULTED with
TRANSIT = 0 (R381). -/
def noteConflict (n : Nat) (s : State) : State :=
  if !conflict s n then s
  else
    let s := { s with fab := { s.fab with routes := s.fab.routes.filter (fun x => x.1.toNat != n) } }
    if n == nodeId s && s.fab.state != .faulted then
      { s with fab := { s.fab with state := .faulted, cause := 2, transit := false } }
    else s

/-- The content of two adverts is the same but for SEQ. -/
def sameAdvert (a b : Advert) : Bool := { a with seq := 0 } == { b with seq := 0 }

/-- LINK_STATE_ADVERT on a port: another domain's is discarded and its link held out of UP; a newer one is
stored and goes on to every other fabric port in UP. -/
def advertAt (p : Nat) (a : Advert) (s : State) : State :=
  let own := a.node.toNat == nodeId s && a.unitId == s.fuses.serial
  if !linkRuns s p then s
  else if a.domain != s.fab.domain then refusePeer p (evPrtRoleFail, true) s
  else if own then s
  else
    let held := s.fab.db.filter (fun b => b.node == a.node)
    if held.any (fun b => a.seq.toNat ≤ b.seq.toNat) then s
    else
      let old := held.find? (fun b => b.unitId == a.unitId)
      let db := s.fab.db.filter (fun b => !(b.node == a.node && b.unitId == a.unitId)) ++ [a]
      let s := { s with fab := { s.fab with db := db } }
      let s := match old with
        | some b => if sameAdvert a b then s else unsettle s
        | none => unsettle s
      let s := emits ((ownLinks s).filterMap (fun l =>
        if (portSt s l.port.toNat).state == .up && l.port.toNat != p then some (Emit.ctl l.peer (.advert (advertBytes a))) else none)) s
      noteConflict a.node.toNat s

/-- ADVERT_EXPIRE: not refreshed for 3 s. -/
def advertExpireAt (n : BitVec 11) (s : State) : State :=
  if s.fab.db.any (fun b => b.node == n) then
    unsettle { s with fab := { s.fab with db := s.fab.db.filter (fun b => !(b.node == n)) } }
  else s

/-- PLANE_SETTLED: the database has been unchanged for 500 ms and every fabric port is UP or given up. -/
def settledAt (s : State) : State :=
  let ports := (List.range 88).filter (isFabricPort s)
  if s.fab.settled || !s.fab.catalogue || !ports.all (portDone s) then s
  else { s with fab := { s.fab with settled := true, firstUp := s.fab.db.all (fun a => a.state != 6) } }

/-- ROUTE_RECOMPUTE, once the plane is settled (R382). -/
def recomputeAt (s : State) : State :=
  if !s.fab.settled then s
  else
    let s := recompute s
    { s with fab := { s.fab with routed := true } }

/-! ### Quarantine from the host (R145, R416) -/

/-- The quarantine bit of an endpoint is cleared: a LOST session of its A-port goes to DOWN (R30). -/
def quarClear (e : Nat) (s : State) : State :=
  let s := { s with trn := { s.trn with quar := s.trn.quar.filter (fun x => x != e) } }
  if e < 0x4800 ∧ e / 72 = s.fab.rack.toNat then
    let p := e % 72
    if (sess s p).state == .lost then maybeHello p (modSess p (fun x => { x with state := .down }) s) else s
  else s

def setQuar (on : Bool) (e : Nat) (s : State) : State := if on then quarHere e s else quarClear e s

/-- QUARANTINE_NOTICE: the bit is set, or for the fabric manager cleared, and an Oseno that waits for it is answered. -/
def quarNoticeAt (q : QuarNotice) (s : State) : State :=
  if 0x5000 ≤ q.endpoint.toNat then s
  else
    let s := setQuar q.on q.endpoint.toNat s
    match q.sender with
    | some n => emit (.ctl n (.mapConfirm (BitVec.ofNat 11 (nodeId s)) .done)) s
    | none => s

/-- The known Osenos of the planes in a mask, but for this device (R416). -/
def maskNodes (s : State) (mask : Nat) : List Nat := (tableNodes s).filter (fun n => mask.testBit (n % 8))

/-- EP_QUARANTINE and EP_UNQUARANTINE: on every known Oseno of the planes in the mask, each of which confirms. -/
def epQuarAt (on : Bool) (c : Nat) (inp : Bytes) (s : State) : State :=
  let e := beField inp 0 2
  let mask := beField inp 2 1
  if 0x5000 ≤ e then mbxEnd c .malformed [] s
  else
    let s := if mask.testBit s.fab.plane.toNat then setQuar on e s else s
    changeDone c (startChange c 2 (maskNodes s mask) (.quarantineSet (BitVec.ofNat 16 e) on) s)

end Sys2Proof.Machine
end

