-- ==== Sys2Proof/Machine/Health.lean ====
section
/-!
DEFINITION. Health scores (R396 to R398) and their registers (R399).
-/

namespace Sys2Proof.Machine
open Sys2Proof

/-- The kind of a health entity (R396). -/
def hlthKind (e : Nat) : Nat :=
  if e < 792 then 0 else if e < 880 then 1 else if e < 1088 then 2 else if e = 1088 then 3 else if e = 1089 then 4 else 5

/-- Number of entities. -/
abbrev hlthEntities : Nat := 1091

def scoreOf (s : State) (e : Nat) : Nat := tget 0 s.hlth.score e
def levelOf (s : State) (e : Nat) : Nat := tget 0 s.hlth.level e

/-- WARN and PREDICT thresholds of a kind, in whole score units. -/
def hlthThr (s : State) (k : Nat) : Nat × Nat :=
  (fieldOf s (mgtBase + 0x420 + k * 4) 0 16, fieldOf s (mgtBase + 0x420 + k * 4) 16 16)

/-- What a boundary adds to the events counted in the second, in units of 1/1,024 (R397): lanes' codec events,
units out of service, held cores, the hottest junction above 95 °C, the time error. -/
def boundaryTerm (s : State) (e : Nat) : Nat :=
  if e < 792 then (Config.laneEvents e (now s)).toNat
  else if e < 880 then 0
  else if e < 1024 then (if s.home.pcOut.contains (e - 880) then 1024 * 1024 else 0)
  else if e < 1088 then (if s.arr.bankOut.contains (e - 1024) then 1024 * 1024 else 0)
  else if e = 1088 then
    (if coreHeld s then 1024 * 1024 else 0) + 16 * 1024 * (s.hlth.tjPeak - 380)
  else if e = 1090 then errNow s * 16
  else 0

/-- One entity's new score: score + (x − score) / 16 in units of 1/256, saturating (R396). -/
def newScore (old x : Nat) (up : Bool) : Nat :=
  let d : Int := (x : Int) - (old : Int)
  let q : Int := d / 16 + (if d % 16 ≠ 0 ∧ up then 1 else 0)
  Nat.min (2 ^ 24 - 1) ((old : Int) + q).toNat

/-- The state of an entity after an update, falling back one step at half a threshold (R398). -/
def newLevel (thr : Nat × Nat) (lvl score : Nat) : Nat :=
  if thr.2 * 256 ≤ score then 2
  else if lvl = 2 then (if score < thr.2 * 128 then 1 else 2)
  else if thr.1 * 256 ≤ score then 1
  else if lvl = 1 then (if score < thr.1 * 128 then 0 else 1) else 0

/-- Update one entity; each rise sets the event and sends a notice. -/
def scoreEntity (e : Nat) (s : State) : State :=
  let x := (tget 0 s.hlth.acc e + boundaryTerm s e) / 4
  let sc := newScore (scoreOf s e) x (Config.scoreUp e s.fresh)
  let old := levelOf s e
  let lvl := newLevel (hlthThr s (hlthKind e)) old sc
  let s := { s with hlth := { s.hlth with score := tput 0 s.hlth.score e sc, level := tput 0 s.hlth.level e lvl } }
  if old < lvl then
    notice .health 0 noEp e (raiseHlth (if lvl = 2 then evMgtHlthPredict else evMgtHlthWarn) s)
  else s

/-- HEALTH_SCORE_UPDATE: a 1 s boundary; the events of the second just ended count, or are dropped while scoring is off (R396,
R399). -/
def healthUpdate (s : State) : State :=
  let s := takeHanded atScoring s
  let s := if bitAt s (mgtBase + 0x400) 0 && mgmtRuns s then draw (each (List.range hlthEntities) scoreEntity s) else s
  { s with hlth := { s.hlth with acc := [], tjPeak := s.pwr.tj.toNat } }

/-- The 8 bytes of an exported score (R398). -/
def scoreRecord (s : State) (e : Nat) : Bytes :=
  beBytes 2 e ++ beBytes 1 (hlthKind e) ++ beBytes 1 (levelOf s e) ++ beBytes 4 (scoreOf s e)

/-- HEALTH_EXPORT: every score to the collector, in datagrams of up to 128 records. -/
def healthExportAt (s : State) : State :=
  if !bitAt s (mgtBase + 0x400) 1 || !s.fab.collector || !mgmtRuns s || !mgmtUp s then s
  else
    emits ((List.range 9).map (fun k =>
      Emit.udp (((List.range hlthEntities).filter (fun e => e / 128 == k)).flatMap (scoreRecord s)))) s

end Sys2Proof.Machine
end

