-- ==== Sys2Proof/Machine/RegRead.lean ====
section
/-!
DEFINITION. What a register reads as (R3, R406): the stored word, with every read-only field taken from the
state it shows. One function per block gives its read-only words.
-/

namespace Sys2Proof.Machine
open Sys2Proof

/-! ### Words of each block's read-only fields -/

/-- GLB (R422); the high half of the serial number never changes. -/
def glbView (s : State) (l : Nat) : Option Word :=
  let slot := tget ({} : CmtSlot) s.hif.slots ((l - 0x80) / 8)
  if l = 0x08 then some (BitVec.ofNat 32 s.fuses.serial.toNat)
  else if l = 0x0C then some (BitVec.ofNat 32 (s.fuses.serial.toNat / 2 ^ 32))
  else if l = 0x10 then some (if s.fab.nodeV then packBits [(0, nodeId s), (11, 1)] else 0)
  else if l = 0x14 then some s.fab.domain
  else if l = 0x20 then some (readyWord s)
  else if l = 0x40 then some (packBits [(0, s.hif.werrOff.toNat)])
  else if l = 0x44 then some (packBits [(0, s.hif.werrSt.toNat)])
  else if l = 0x6C then
    let pend := ((List.range 8).filter (fun n => (tget {} s.hif.slots n).pending)).map (fun n => (n, 1))
    some (packBits (pend ++ [(8, s.hif.lastSlot.toNat), (12, s.hif.staging.length), (24, s.hif.lastStat.toNat)]))
  else if 0x80 ≤ l ∧ l < 0xC0 then
    some (BitVec.ofNat 32 (if l % 8 = 0 then slot.tick.toNat else slot.tick.toNat / 2 ^ 32))
  else if l = 0xCC then some (BitVec.ofNat 32 s.hif.notices)
  else none

/-- MBX (R423): the channel holds all of its registers. -/
def mbxView (x : Chanl) (l : Nat) : Word :=
  if l = 0x00 then packBits [(1, b2n x.inDma), (2, b2n x.outDma)]
  else if l = 0x04 then packBits [(0, x.opcode.toNat)]
  else if l = 0x08 then packBits [(0, x.inLen.toNat)]
  else if l = 0x10 then BitVec.ofNat 32 x.inAddr.toNat
  else if l = 0x14 then BitVec.ofNat 32 (x.inAddr.toNat / 2 ^ 32)
  else if l = 0x18 then BitVec.ofNat 32 x.outAddr.toNat
  else if l = 0x1C then BitVec.ofNat 32 (x.outAddr.toNat / 2 ^ 32)
  else if l = 0x20 then packBits [(0, x.outCap.toNat)]
  else if l = 0x24 then packBits [(0, x.outLen.toNat)]
  else if l = 0x28 then packBits [(0, b2n x.busy), (1, b2n x.done), (8, x.status.toNat)]
  else 0

/-- CXL (R424). -/
def cxlView (s : State) (l : Nat) : Option Word :=
  let x := s.hif.cxl
  if l = 0 then some (packBits [(0, if x.up then x.width.toNat else 0), (4, x.speed.toNat), (6, b2n x.up),
    (7, b2n x.ideIo), (8, b2n x.ideMem), (9, b2n x.bme)])
  else none

/-- Code of a tenant slot's state (R309). -/
def SlotState.code : SlotState → Nat
  | .free => 0 | .admitting => 1 | .active => 2 | .fenced => 3 | .scrubbing => 4

/-- SEC (R316, R333). -/
def secView (s : State) (l : Nat) : Option Word :=
  if l = 0x00 then
    some (packBits [(0, b2n s.ten.idReady), (1, b2n s.ten.debug), (2, b2n s.ten.shared), (8, s.ten.slots),
      (16, (s.ten.ten.filter (fun x => x.2.state != .free)).length), (24, s.pwr.level.toNat)])
  else if l = 0x08 then some (BitVec.ofNat 32 s.fuses.arb.toNat)
  else if l = 0x0C then some (tget 0 s.hif.latches (secBase + 0x0C))
  else if l = 0x10 then some (packBits [(0, s.fuses.unlocks), (7, b2n s.fuses.axwickOff)])
  else if l = 0x40 then some (packBits [(0, Nat.min 63 (unitsLeft s))])
  else if 0x100 ≤ l ∧ l < 0x500 then
    let x := tenSlot s ((l - 0x100) / 16)
    some (if l % 16 = 0 then
        packBits [(0, x.state.code), (4, x.tenant.toNat), (16, b2n x.fifo), (17, b2n x.fpRel)]
      else if l % 16 = 4 then packBits [(0, x.stk.toNat), (16, x.anx.toNat)]
      else if l % 16 = 8 then x.grp
      else packBits [(0, match x.cel with | some c => c.toNat | none => 0), (4, b2n x.cel.isSome), (16, x.eng.toNat)])
  else if 0x800 ≤ l ∧ l < 0x920 then
    some (match bindOf s ((l - 0x800) / 4) with | some t => packBits [(0, t.toNat), (12, 1)] | none => 0)
  else none

/-- PWR (R367); the domains' power is a sensor's reading at the latest 1 ms boundary, 0 before the first. -/
def pwrView (s : State) (l : Nat) : Option Word :=
  let x := s.pwr
  if l = 0x08 then
    some (packBits [(0, x.level.toNat), (2, b2n x.capUnmet), (3, b2n x.belowFloor), (4, b2n s.chip.brakePin),
      (5, b2n x.undervolt), (6, b2n x.tmLost), (7, b2n x.orphan), (8, b2n (alertOn s))])
  else if l = 0x0C then some (packBits [(0, x.avgW.toNat)])
  else if l = 0x10 then some (packBits [(0, x.tj.toNat), (10, x.sensor.toNat)])
  else if 0x100 ≤ l ∧ l < 0x11C then some (match x.boundary with | some t => Config.sensor (pwrBase + l) t | none => 0)
  else none

/-- Code of a job's state (R175). -/
def JobState.code : JobState → Nat
  | .loaded => 1 | .running => 2 | .done => 3

/-- FTM (R175). -/
def ftmView (s : State) (l : Nat) : Option Word :=
  let t := s.time
  if l = 0x08 then some (BitVec.ofNat 32 t.count.toNat)
  else if l = 0x0C then some (tget 0 s.hif.latches (ftmBase + 0x0C))
  else if l = 0x10 then some (packBits [(0, t.servo.code), (3, b2n t.isGm), (4, t.parent.toNat), (11, t.depth.toNat),
    (16, t.gmNode.toNat)])
  else if l = 0x14 then some (packBits [(0, errNow s), (16, t.offset.toNat)])
  else if l = 0x18 then some (packBits [(0, t.loopPs.toNat), (20, b2n t.broken)])
  else if l = 0x70 then let u := almUse s none; some (packBits [(0, u.1), (17, u.2)])
  else if 0x400 ≤ l ∧ l < 0xC00 then
    let k := (l - 0x400) / 0x20
    let r := l % 0x20
    match s.alm.find? (fun a => a.slot == k) with
    | none => some (if r = 0x10 then tget 0 s.hif.latches (ftmBase + l) else 0)
    | some a =>
      some (if r = 0 then a.job
        else if r = 4 then packBits [(0, a.tenant.toNat), (12, a.state.code)]
        else if r = 8 then BitVec.ofNat 32 a.iter
        else if r = 0x0C then BitVec.ofNat 32 a.shift
        else if r = 0x10 then tget 0 s.hif.latches (ftmBase + l)
        else if r = 0x18 then packBits [(0, a.first)]
        else if r = 0x1C then packBits [(0, a.entries.length)] else 0)
  else none

/-- The 16 bytes of an entry as loaded (R158). -/
def AlmEntry.raw (e : AlmEntry) : Bytes := [e.type, e.guard] ++ beBytes 6 e.offset ++ beBytes 8 e.arg.toNat

/-- The ALM block: entry n at n × 16 (R175). -/
def almView (s : State) (l : Nat) : Word :=
  let n := l / 16
  match s.alm.find? (fun a => decide (a.first ≤ n ∧ n < a.first + a.entries.length)) with
  | some a =>
    match a.entries[n - a.first]? with
    | some e => BitVec.ofNat 32 (leField e.raw (l % 16) 4)
    | none => 0
  | none => 0

/-- XLT (R80). -/
def xltView (s : State) (c l : Nat) : Option Word :=
  if l = 0x4C then some (packBits [(0, b2n (tget false s.xlat.epoch c))]) else none

/-- Code of an Attach session's state (R30). -/
def AttState.code : AttState → Nat
  | .down => 0 | .hello => 1 | .up => 2 | .fenced => 3 | .lost => 4

/-- EPB (R56, R103, R124). -/
def epbView (s : State) (p l : Nat) : Option Word :=
  let x := sess s p
  let open_ := x.out.filter (fun r => !r.gone)
  if l = 0x04 then some (packBits [(0, x.state.code), (3, x.minor.toNat), (4, b2n x.deleg), (5, b2n x.acq), (6, b2n x.atom128)])
  else if l = 0x08 then some (packBits [(0, x.peerCaps.toNat), (16, x.peerMin.toNat), (24, x.peerMaj.toNat)])
  else if l = 0x10 then some (packBits [(0, x.rspCrd % 65536), (16, x.inbCrd % 65536)])
  else if l = 0x24 then some (packBits [(0, x.out.length % 16384), (16, x.inb.length % 16384)])
  else if l = 0x60 then
    some (packBits [(0, (open_.filter (fun r => r.phase == .mark)).length % 16384),
      (16, (open_.filter (fun r => r.phase == .held)).length % 16384), (30, b2n (portFifo s p))])
  else if l = 0x80 then
    some (packBits [(0, (s.home.hot.filter (fun h => h.home == p)).length % 512), (16, slotsUsed s p 0 % 4096)])
  else none

/-- Signed eight bits of a tap as a register field. -/
def tapWord (ts : List (BitVec 8)) : Word := packBits ((List.range 4).map (fun i => (8 * i, (ts.getD i 0).toNat)))

/-- PRT (R307). -/
def prtView (s : State) (p l : Nat) : Option Word :=
  let x := portSt s p
  if l = 0x04 then some (packBits [(0, x.state.code), (4, x.width.toNat), (6, b2n x.fullRate), (7, b2n x.trev11), (8, b2n x.enc),
    (9, b2n x.spareUsed)])
  else if l = 0x08 then
    some (packBits [(0, match x.peerNode with | some n => n.toNat | none => 0), (11, b2n x.peerNode.isSome),
      (16, x.peerPort.toNat), (24, x.peerRole.toNat), (27, x.peerMode.toNat)])
  else if l = 0x0C then some (BitVec.ofNat 32 x.peerUnit.toNat)
  else if l = 0x10 then some (BitVec.ofNat 32 (x.peerUnit.toNat / 2 ^ 32))
  else if l = 0x14 then some (packBits [(0, x.active.toNat), (16, x.locked.toNat)])
  else if l = 0x44 then some (packBits [(16, b2n x.epochTx), (17, b2n x.epochRx)])
  else if l = 0x48 then some (packBits [(0, b2n x.present), (1, b2n x.rtLock), (8, x.rtAddr.toNat), (16, x.rtTemp.toNat)])
  else none

/-- LNK (R308): polarity, skew, signal-to-noise ratio and power are the receiver's readings of a lane that has locked, that is
aligned and that has a signal; loss of light shows on a port in service. -/
def lnkView (s : State) (p k l : Nat) : Option Word :=
  let x := portSt s p
  let read := (Config.sensor (lnkBase p k + l) (now s)).toNat
  if l = 0x00 then some (tapWord (tapsOf x k))
  else if l = 0x04 then
    let sig := x.signal.toNat.testBit k
    let lock := x.locked.toNat.testBit k
    let act := x.active.toNat.testBit k
    some (packBits [(0, b2n sig), (1, b2n lock), (2, b2n act),
      (3, (x.order.findIdx? (fun j => j == k)).getD 15), (7, if lock then read / 8 % 2 else 0), (8, if act then read / 256 % 81 else 0),
      (16, if sig then read / 65536 % 256 else 0)])
  else if l = 0x20 then
    let sig := x.signal.toNat.testBit k
    some (packBits [(0, if sig then read % 65536 else 0), (16, b2n (isOptical s p && x.state != .disabled && !sig))])
  else none

/-- The laser source modules of a cluster (R307): clusters 9 and 10 have four each; TEMP is the reading of a module that is there. -/
def elsView (s : State) (c l : Nat) : Option Word :=
  let x := tget ({} : Laser) s.lasers ((c - 9) * 4 + l / 4)
  some (packBits [(0, b2n x.present), (1, b2n x.enabled), (2, b2n x.interlock), (3, b2n x.fault),
    (16, if x.present then (Config.sensor (elsBase c + l) (now s)).toNat % 256 else 0)])

/-- Cells in use in the packet buffer: of tenant space, the control reserve and the mirror reserve (R262 to R264). DESIGN CHOICE,
unsafe (log 126): a session's waiting copies count as one run of bytes. -/
def cellsUsed (s : State) : Nat :=
  ((tenantsInBuffer s).map (tenantCells s)).sum + controlCells s + (s.sw.mirUse.map (fun x => ceilDiv x.2 256)).sum

/-- SWC (R278). -/
def swcView (s : State) (l : Nat) : Option Word :=
  if l = 0x08 then some (packBits [(0, Nat.min 655360 (cellsUsed s))])
  else if l = 0x44 then
    let p := fieldOf s (swcBase + 0x40) 0 7
    some (packBits [(0, if p < 91 then Nat.min (2 ^ 22 - 1) (ceilDiv (occupancy s p (fieldOf s (swcBase + 0x40) 8 5)) 64) else 0)])
  else if 0x400 ≤ l ∧ l < 0x6D0 ∧ l % 8 = 0 then
    let p := (l - 0x400) / 8
    some (packBits [(16, b2n (tdmAt s p)), (17, b2n (analysisPort s p))])
  else if 0x2000 ≤ l ∧ l < 0x2100 ∧ l % 0x20 = 0x0C then some (BitVec.ofNat 32 (tget 0 s.sw.mirVis ((l - 0x2000) / 0x20)))
  else none

/-- The combining registers (R124). -/
def cmbView (s : State) (l : Nat) : Option Word :=
  if l = 0x04 then some (packBits [(0, s.home.comb.length % 16384)])
  else if l = 0x20 then
    some (packBits [(0, (s.home.hot.filter (fun h => h.home == hpMem)).length % 512),
      (16, ((s.home.hot.filter (fun h => h.home == hpMem)).map (fun h => h.wait.length)).sum % 16384)])
  else none

/-- TRN (R147). -/
def trnView (s : State) (l : Nat) : Option Word :=
  if l = 0x0C then some (packBits [(0, (s.trn.send.filter (fun c => !c.starved)).length % 524288)])
  else if l = 0x30 then some (packBits [(0, s.trn.recv.length % 524288)])
  else if 0x100 ≤ l ∧ l < 0xB00 then
    let n := (l - 0x100) / 4
    some (packBits (((List.range 32).filter (fun b => decide (32 * n + b < 0x5000) && s.trn.quar.contains (32 * n + b))).map (fun b => (b, 1))))
  else if 0x1000 ≤ l ∧ l < 0x1024 then some (packBits [(0, replayKib s ((l - 0x1000) / 4) % 32768)])
  else none

/-- Codes of a context's state and role (R204). -/
def CtxState.code : CtxState → Nat
  | .free => 0 | .idle => 1 | .active => 2 | .mismatch => 3 | .aborted => 4
def Role.code : Role → Nat
  | .leaf => 0 | .internal => 1 | .root => 2 | .leafRoot => 3

/-- COL (R204). -/
def colView (s : State) (l : Nat) : Option Word :=
  let x := ctxOf s (fieldOf s (colBase + 0x40) 0 12)
  if l = 0x04 then
    some (packBits [(0, ctxUsed s none), (16, ((s.coll.ctxs.filter (fun c => c.2.celSet.isSome)).map (fun c => c.2.win64k)).sum % 8192)])
  else if l = 0x44 then
    some (packBits [(0, x.state.code), (4, x.tenant.toNat), (16, x.plane.toNat), (19, x.role.code), (21, b2n x.alm.isSome)])
  else if l = 0x48 then some x.handle
  else if l = 0x4C then some (packBits [(0, x.win64k % 512), (16, x.members.length % 128)])
  else if l = 0x50 then some x.seq
  else if l = 0x54 then some (BitVec.ofNat 32 (Nat.min (2 ^ 32 - 1) x.freed))
  else none

/-- Twelve digest words, byte 4k in bits [31:24] (R235, R261). -/
def digestWord (d : Bytes) (k : Nat) : Word := BitVec.ofNat 32 (beField d (4 * k) 4)

/-- RDA (R235). -/
def rdaView (s : State) (l : Nat) : Option Word :=
  let i := fieldOf s (rdaBase + 0x40) 0 8
  let p := progOf s i
  if l = 0x04 then some (packBits [(0, s.pwr.level.toNat)])
  else if l = 0x08 then
    some (packBits (((List.finRange 32).filter (fun g => !s.home.failed.contains (.arrayGroup g))).map (fun g => (g.val, 1))))
  else if l = 0x44 then
    some (match p with
      | some x => packBits [(0, 1), (4, x.tenant.toNat), (16, x.steps.length), (21, x.matrices.length), (24, x.celSet.getD 0)]
      | none => 0)
  else if l = 0x48 then some (packBits [(0, progRefs s i % 8192)])
  else if 0x50 ≤ l ∧ l < 0x80 then some (match p with | some x => digestWord x.digest ((l - 0x50) / 4) | none => 0)
  else if 0x200 ≤ l ∧ l < 0x280 then
    let g := (l - 0x200) / 4
    some (packBits [(0, ceilDiv (landUsed s g) 1024 % 1024)])
  else none

/-- CEL (R236). -/
def celView (s : State) (l : Nat) : Option Word :=
  if l = 0x04 then some (packBits [(0, ((List.range 16).map (celFree s)).sum), (16, s.arr.bankOut.length)])
  else if 0x100 ≤ l ∧ l < 0x140 then some (packBits [(16, celFree s ((l - 0x100) / 4))])
  else if 0x200 ≤ l ∧ l < 0x300 then some (packBits [(24, b2n (s.arr.bankOut.contains ((l - 0x200) / 4)))])
  else none

/-- STK and ANX (R259, R260): pseudo-channels and packages out of service. -/
def tierView (s : State) (first n l : Nat) : Option Word :=
  if 0x200 ≤ l ∧ l < 0x200 + 4 * n then some (packBits [(24, b2n (s.home.pcOut.contains (first + (l - 0x200) / 4)))]) else none

/-- MOV (R261). -/
def movView (s : State) (l : Nat) : Option Word :=
  if l = 0x04 then
    some (packBits (((List.range 16).filter (fun e => (engineMove s e).isSome)).map (fun e => (e, 1)) ++ [(16, s.mov.faults.length)]))
  else if 0x200 ≤ l ∧ l < 0x600 then
    let n := (l - 0x200) / 16
    some (match s.mov.faults.find? (fun r => r.num == n) with
      | none => 0
      | some r =>
        if l % 16 = 0 then packBits [(0, 1), (1, b2n r.key.f), (4, r.key.tenant.toNat), (16, r.key.sel.toNat)]
        else if l % 16 = 4 then packBits [(0, r.key.vpn.toNat)]
        else if l % 16 = 8 then packBits [(0, (parkedOn s n).length % 32)]
        else BitVec.ofNat 32 ((now s - r.since) / tickUs))
  else if 0x800 ≤ l ∧ l < 0x1800 then
    let r := l % 0x40
    some (match s.mov.measured.find? (fun m => m.num == (l - 0x800) / 0x40) with
      | none => 0
      | some m =>
        if r = 0 then packBits [(0, if m.sealed then 2 else 1), (16, m.keyidx.toNat)]
        else if r = 4 then BitVec.ofNat 32 (m.ptr / 4096)
        else if 8 ≤ r ∧ r < 0x38 then (if m.sealed then digestWord m.digest ((r - 8) / 4) else 0) else 0)
  else none

/-- Code of a core's state (R356). -/
def CoreSt.code : CoreSt → Nat
  | .running => 0 | .inReset => 1 | .held => 2 | .switching => 3

/-- MGT (R356, R399). -/
def mgtView (s : State) (l : Nat) : Option Word :=
  let feats := match s.fw.agreed with | some f => f.toNat | none => 0
  let e := fieldOf s (mgtBase + 0x404) 0 11
  let levels := fun v => (s.hlth.level.filter (fun x => x.2 == v)).length
  if l = 0x00 then some (fwStatusWord s)
  else if l = 0x04 then some (emergWord s)
  else if 0x100 ≤ l ∧ l < 0x148 then some (packBits [(0, (coreSt s ((l - 0x100) / 4)).code)])
  else if 0x200 ≤ l ∧ l < 0x250 then
    let r := (l - 0x200) / 16
    some (if l % 16 = 0 then BitVec.ofNat 32 (imgVersion s r)
      else if l % 16 = 4 then BitVec.ofNat 32 (imgVersion s r / 2 ^ 32)
      else if l % 16 = 8 then packBits [(0, b2n (roleSlot s r))] else 0)
  else if l = 0x300 then some s.fw.head
  else if l = 0x380 then some (BitVec.ofNat 32 feats)
  else if l = 0x384 then some (BitVec.ofNat 32 (feats / 2 ^ 32))
  else if l = 0x408 then some (packBits [(0, scoreOf s e), (24, levelOf s e)])
  else if l = 0x410 then some (packBits [(0, levels 1), (16, levels 2)])
  else none

/-- The word that holds the read-only fields of a register. -/
def roWord (s : State) : Blk → Nat → Option Word
  | .glb, l => glbView s l | .mbx c, l => some (mbxView (chan s c) l) | .cxl, l => cxlView s l
  | .sec, l => secView s l | .pwr, l => pwrView s l | .ftm, l => ftmView s l | .alm, l => some (almView s l)
  | .xlt c, l => xltView s c l | .epb p, l => epbView s p l | .prt p, l => prtView s p l
  | .lnk p k, l => lnkView s p k l | .els c, l => elsView s c l | .swc, l => swcView s l | .cmb, l => cmbView s l
  | .trn, l => trnView s l | .col, l => colView s l | .rda, l => rdaView s l | .cel, l => celView s l
  | .stk, l => tierView s 0 128 l | .anx, l => tierView s 128 16 l | .mov, l => movView s l | .mgt, l => mgtView s l
  | .inBuf c, l => some (BitVec.ofNat 32 (leNat (memRead (chan s c).inBuf l 4)))
  | .outBuf c, l => some (BitVec.ofNat 32 (leNat (memRead (chan s c).outBuf l 4)))

/-- Values kept beside the stored registers: the selected queue's peak, the highest 10 µs power sample up to the latest 1 ms boundary (R367), a
landing store's, and a lane's corrected-symbol counters, which are the codec's readings since the last read (R3). -/
def rcValue (s : State) (b : Blk) (l : Nat) (f : RegField) : Option Nat :=
  match b with
  | .swc => if l = 0x48 then some (tget 0 (egOf s (fieldOf s (swcBase + 0x40) 0 7)).peak (fieldOf s (swcBase + 0x40) 8 5)) else none
  | .pwr => if l = 0x0C then
      some (Nat.max (fieldOf s (pwrBase + l) f.lo f.w) (match s.pwr.boundary with
        | some t => if t < tget 0 s.hif.rcAt (pwrBase + l) then 0 else (Config.sensor (pwrBase + l) t).toNat % 2 ^ f.w
        | none => 0)) else none
  | .rda => if 0x200 ≤ l ∧ l < 0x280 then some (tget 0 s.arr.landPeak ((l - 0x200) / 4)) else none
  | .lnk p k => if l = 0x0C then none else some (codecCnt s p k (lnkBase p k + l) / 2 ^ f.lo)
  | _ => none

/-- EPB_ATT_CTRL.EN as it reads: held at 0 before READY (R384). -/
def heldEn (s : State) (o : Nat) (f : RegField) : Bool :=
  match locate o with
  | some (.epb _, 0) => f.lo == 0 && !s.fab.joined
  | _ => false

/-- The value one field reads as. -/
def fieldRead (s : State) (o : Nat) (b : Blk) (l : Nat) (f : RegField) : Nat :=
  match f.acc with
  | .wo => 0
  | .ro => match roWord s b l with | some w => bitsOf w.toNat f.lo f.w | none => fieldOf s o f.lo f.w
  | .rc => match rcValue s b l f with | some v => v % 2 ^ f.w | none => fieldOf s o f.lo f.w
  | _ => match b with
    | .mbx c => bitsOf (mbxView (chan s c) l).toNat f.lo f.w
    | _ => if heldEn s o f then 0 else fieldOf s o f.lo f.w

/-- The word an aligned read of BAR0 returns (R406, R407). -/
def regRead (s : State) (o : Nat) : Word :=
  match locate o with
  | none => 0
  | some (.alm, l) => almView s l
  | some (.inBuf c, l) => (roWord s (.inBuf c) l).getD 0
  | some (.outBuf c, l) => (roWord s (.outBuf c) l).getD 0
  | some (b, l) => packBits ((fieldsAt o).map (fun f => (f.lo, fieldRead s o b l f)))

end Sys2Proof.Machine
end

