-- ==== Sys2Proof/Machine/Host.lean ====
section
/-!
DEFINITION. The control host's accesses (R400 to R421): BAR0 reads and writes, the staging set and the commit
slots, interrupts, CXL.mem windows, mirror sessions, and the CXL memory-device mailbox and DOE answers.
-/

namespace Sys2Proof.Machine
open Sys2Proof

/-- Accesses of the host reach the device: its link is up, and in RESET it receives none (R407). -/
def barReach (s : State) : Bool := s.hif.cxl.up && s.fab.state != .reset

/-! ### The configuration space (R401) -/

/-- The identity the configuration space gives (R401); no command changes it. -/
structure PciIdentity where
  vendor    : BitVec 16
  device    : BitVec 16
  classCode : BitVec 8
  subclass  : BitVec 8
  progIf    : BitVec 8
  deriving DecidableEq, Repr

/-- This device's identity (R401). -/
def pciIdentity : PciIdentity :=
  { vendor := Config.vendorId, device := 0x8872, classCode := 0x05, subclass := 0x02, progIf := 0x10 }

/-- The configuration-space word at an offset, as far as the spec gives it: PCI's header puts the vendor and device ID at 0x0
and the revision, which the spec does not state, and the class at 0x8 (PRESUMED, log 109). -/
def configWord (off : Nat) : Option Word :=
  let x := pciIdentity
  if off = 0 then some (packBits [(0, x.vendor.toNat), (16, x.device.toNat)])
  else if off = 8 then
    some (packBits [(0, (Config.freeByte 0 5000).toNat), (8, x.progIf.toNat), (16, x.subclass.toNat), (24, x.classCode.toNat)])
  else none

/-! ### Fields (R3, R408, R409) -/

/-- A field of the host's commit protocol (R410). -/
def hostLive (f : RegField) : Bool := f.acc == .rwl && f.who == .host

/-- The block is stopped: a port, or the Attach of an A-port, with EN = 0 (R408). -/
def blockStopped (s : State) : Blk → Bool
  | .epb p => !attEn s p
  | .prt p => !prtEn s p
  | _ => false

/-- EPB_ATT_CTRL.EN or PRT_CTRL.EN. -/
def isEn (b : Blk) (l : Nat) (f : RegField) : Bool :=
  l == 0 && f.lo == 0 && (match b with | .epb _ => true | .prt _ => true | _ => false)

/-- Why a write of `x` to a field is refused, with the field's present value `cur` (R409); a value outside the
field's range is a reserved encoding. -/
def fieldRefusal (stopped : Bool) (f : RegField) (cur x : Nat) : Option Status :=
  if x = cur then none
  else if f.who == .sec || (f.who == .pwr && f.acc == .rwl) then some .accessDenied
  else if f.acc == .rws && !stopped then some .busy
  else if (f.acc == .rws || f.acc == .rw) && f.who == .host && !decide (f.rmin ≤ x ∧ x ≤ f.rmax) then some .malformed
  else none

/-- One field of a started register takes its part of the written word: the state and the latest refusal. -/
def writeField (b : Blk) (o l v : Nat) (stopped : Bool) (r : State × Option Status) (f : RegField) : State × Option Status :=
  let x := bitsOf v f.lo f.w
  match f.acc with
  | .ro | .rc | .wo => r
  | .w1c => (if x = 1 then setField o f.lo 1 0 r.1 else r.1, r.2)
  | .rw | .rws | .rwl =>
    match fieldRefusal stopped f (fieldRead r.1 o b l f) x with
    | some st => (r.1, some st)
    | none =>
      if isEn b l f then (r.1, if heldEn r.1 o f && x == 1 then some .busy else r.2)
      else if f.acc == .rwl || f.who != .host then r
      else if f.acc == .rw && !wordOk o v then (r.1, some .malformed)
      else (setField o f.lo f.w x r.1, r.2)

/-- EPB_ATT_CTRL.EN is written (R30, R56, R408); before READY it stays held at 0. -/
def attEnWrite (p : Nat) (on : Bool) (s : State) : State :=
  if attEn s p == on || !s.fab.joined then s
  else if on then maybeHello p (modSess p (fun x => { x with refused := false }) (setField (epbBase p) 0 1 1 s))
  else sessDown p .down (setField (epbBase p) 0 1 0 s)

/-- PRT_CTRL.EN is written (R292, R408). -/
def prtEnWrite (p : Nat) (on : Bool) (s : State) : State :=
  if prtEn s p == on then s else if on then portEnSet p s else portEnClear p s

/-- The EN field of a register, if it has one. -/
def writeEn (b : Blk) (l v : Nat) (s : State) : State :=
  if l ≠ 0 then s
  else match b with
    | .epb p => attEnWrite p (v.testBit 0) s
    | .prt p => prtEnWrite p (v.testBit 0) s
    | _ => s

/-! ### The staging set and commit slots (R410 to R413) -/

/-- Replace the staged word of a register, or add it. -/
def stagePut (o : Nat) (w : Word) : List (Nat × Word) → List (Nat × Word)
  | [] => [(o, w)]
  | x :: xs => if x.1 = o then (o, w) :: xs else x :: stagePut o w xs

/-- The staging set takes the register, of at most 256; none where it is full. -/
def stage (o v : Nat) (s : State) : Option State :=
  if s.hif.staging.any (fun x => x.1 == o) || decide (s.hif.staging.length < 256) then
    some (modHif (fun h => { h with staging := stagePut o (BitVec.ofNat 32 v) h.staging }) s)
  else none

/-- The word a register will hold when the staging set is applied. -/
def stagedOr (s : State) (o : Nat) : Nat :=
  match s.hif.staging.find? (fun x => x.1 == o) with | some x => x.2.toNat | none => (word s o).toNat

/-- A staged word holds no reserved encoding and lies in its fields' ranges (R411, check 2). -/
def stagedOk (s : State) (x : Nat × Word) : Bool :=
  let v := x.2.toNat
  let win := x.1 - x.1 % 0x20
  ((fieldsAt x.1).filter hostLive).all (fun f => decide (f.rmin ≤ bitsOf v f.lo f.w ∧ bitsOf v f.lo f.w ≤ f.rmax)) &&
  wordOk x.1 v &&
  (if cxlBase + 0x100 ≤ x.1 ∧ x.1 < cxlBase + 0x200 then
    bitsOf (stagedOr s win) 0 1 == 0 || bitsOf (stagedOr s (win + 8)) 0 23 != 0 else true)

def cmtSlot (s : State) (n : Nat) : CmtSlot := tget {} s.hif.slots n
def setCmt (n : Nat) (x : CmtSlot) (s : State) : State := modHif (fun h => { h with slots := tput {} h.slots n x }) s

/-- An arm or cancel ends with this status; a refusal raises CMT_REFUSED. -/
def cmtEnd (st : Status) (s : State) : State :=
  let s := modHif (fun h => { h with lastStat := BitVec.ofNat 8 st.code }) s
  if st == .done then s else raiseGlb evGlbCmtRefused s

/-- ARM (R411); the lowest free slot is taken. -/
def armNow (s : State) : State :=
  let t := (word s 0x60).toNat + 2 ^ 32 * (word s 0x64).toNat
  if s.hif.staging.isEmpty then cmtEnd .malformed s
  else match s.hif.staging.find? (fun x => !stagedOk s x) with
    | some x =>
      cmtEnd .malformed (modHif (fun h => { h with werrOff := BitVec.ofNat 26 x.1, werrSt := BitVec.ofNat 8 Status.malformed.code }) s)
    | none =>
      match (List.range 8).find? (fun n => !(cmtSlot s n).pending) with
      | none => cmtEnd .busy s
      | some n =>
        if t ≠ 0 ∧ t < now s + 8000 then cmtEnd .late s
        else
          let tick := if t = 0 then now s + 8000 else t
          let s := setCmt n { pending := true, tick := BitVec.ofNat 64 tick, order := s.hif.orders, values := s.hif.staging } s
          cmtEnd .done (modHif (fun h => { h with staging := [], orders := h.orders + 1, lastSlot := BitVec.ofNat 3 n }) s)

/-- DISCARD empties the staging set (R411). -/
def discardNow (s : State) : State := modHif (fun h => { h with staging := [] }) s

/-- CANCEL of the slot GLB_CMT_CTRL.SLOT names; one that is not pending or whose tick is reached is refused (R412). -/
def cancelNow (s : State) : State :=
  let n := fieldOf s 0x68 3 3
  let x := cmtSlot s n
  if x.pending && decide (now s < x.tick.toNat) then cmtEnd .done (setCmt n { x with pending := false, values := [] } s)
  else cmtEnd .busy s

/-- The block of a register has still to reach its boundary (R173): an instance boundary while an instance runs, the next
scoring boundary while scoring is on (R235, R399). Every other boundary, of a request, a message, a frame, an entry or a
marker group, is one at which a command of this model stands (log 95). A stopped block takes its fields at once (R412). -/
def boundaryAhead (s : State) (off : Nat) : Bool :=
  (atInstance off && bitAt s colBase 0 && s.coll.ctxs.any (fun x => x.2.state == .active)) ||
  (atScoring off && bitAt s (mgtBase + 0x400) 0 && mgmtRuns s)

/-- A translator has this device's own plane out of service (XLT_PLANE_OOS, R80). -/
def planeOut (s : State) : Bool := (List.range 9).any (fun c => bitAt s (xltBase c + 0x10) s.fab.plane.toNat)

/-- One slot's registers are handed to their blocks: the fields the host may commit take their values at the block's first
boundary (R412). -/
def applySlot (n : Nat) (s : State) : State :=
  let out := planeOut s
  let x := cmtSlot s n
  let s := each x.values (fun r s =>
    each ((fieldsAt r.1).filter hostLive) (fun f s =>
      let v := bitsOf r.2.toNat f.lo f.w
      if boundaryAhead s r.1 then modHif (fun h => { h with handed := h.handed ++ [(r.1, f.lo, f.w, v)] }) s
      else setField r.1 f.lo f.w v s) s) s
  let s := if planeOut s && !out then planeOutAborts s else s
  raiseGlb evGlbCmtFired (setCmt n { x with pending := false, values := [] } s)

/-- Slot `a` fires before slot `b`: an earlier tick, or the same tick and armed earlier (R412). -/
def cmtBefore (a b : CmtSlot) : Bool :=
  decide (a.tick.toNat < b.tick.toNat) || (a.tick == b.tick && decide (a.order ≤ b.order))

/-- COMMIT_FIRE: the tick of the slot is reached; slots that come before it fire first. -/
def commitFireAt (n : Nat) (s : State) : State :=
  let x := cmtSlot s n
  if !x.pending || decide (replica .host s < x.tick.toNat) then s
  else
    let due := (List.range 8).filter (fun m => (cmtSlot s m).pending && cmtBefore (cmtSlot s m) x)
    each (due.mergeSort (fun a b => cmtBefore (cmtSlot s a) (cmtSlot s b))) applySlot s

/-- A write to GLB_CMT_CTRL: SLOT is updated and one of ARM, DISCARD and CANCEL acts; a write that sets more than one is refused
as a whole (R411). -/
def cmtCtrl (v : Nat) (s : State) : State :=
  if 1 < popCount 3 v then cmtEnd .malformed s
  else
  let s := setField 0x68 3 3 (bitsOf v 3 3) s
  if v.testBit 0 then armNow s
  else if v.testBit 1 then discardNow s
  else if v.testBit 2 then cancelNow s
  else s

/-! ### Register writes (R407 to R410) -/

/-- A write to a register of a started block. -/
def writeReg (b : Blk) (o l v : Nat) (s : State) : State :=
  if o = 0x68 then cmtCtrl v s
  else
  let fs := fieldsAt o
  let r := fs.foldl (writeField b o l v (blockStopped s b)) (s, none)
  let r := if fs.any hostLive then
      (match stage o v r.1 with | some t => (t, r.2) | none => (r.1, some .busy)) else r
  let s := match r.2 with | some st => werr o st r.1 | none => r.1
  writeEn b l v s

/-- A write to a mailbox channel that is not BUSY (R414, R423). -/
def mbxWrite (c l v : Nat) (s : State) : State :=
  let lo := fun (x : BitVec 64) => BitVec.ofNat 64 (x.toNat / 2 ^ 32 * 2 ^ 32 + v)
  let hi := fun (x : BitVec 64) => BitVec.ofNat 64 (x.toNat % 2 ^ 32 + v * 2 ^ 32)
  if l = 0x00 then
    let s := modChan c (fun x => { x with inDma := v.testBit 1, outDma := v.testBit 2 }) s
    if v.testBit 0 then mbxGo c s else s
  else if l = 0x04 then modChan c (fun x => { x with opcode := BitVec.ofNat 16 v }) s
  else if l = 0x08 then modChan c (fun x => { x with inLen := BitVec.ofNat 26 v }) s
  else if l = 0x10 then modChan c (fun x => { x with inAddr := lo x.inAddr }) s
  else if l = 0x14 then modChan c (fun x => { x with inAddr := hi x.inAddr }) s
  else if l = 0x18 then modChan c (fun x => { x with outAddr := lo x.outAddr }) s
  else if l = 0x1C then modChan c (fun x => { x with outAddr := hi x.outAddr }) s
  else if l = 0x20 then modChan c (fun x => { x with outCap := BitVec.ofNat 26 v }) s
  else if l = 0x28 ∧ v.testBit 1 then modChan c (fun x => { x with done := false }) s
  else s

/-- The channel whose registers or buffers a block is. -/
def Blk.channel : Blk → Option Nat
  | .mbx c | .inBuf c | .outBuf c => some c
  | _ => none

/-- A BAR0 write (R407). -/
def hostWrite (o size v : Nat) (s : State) : State :=
  if !barReach s || s.fab.state == .recovery then s
  else if size ≠ 4 ∨ o % 4 ≠ 0 then werr o .malformed s
  else match locate o with
    | none => s
    | some (b, l) =>
      match b.channel with
      | some c =>
        if (chan s c).busy then werr o .busy s
        else match b with
          | .inBuf c => modChan c (fun x => { x with inBuf := memWrite x.inBuf l (leBytes 4 v) }) s
          | .outBuf c => modChan c (fun x => { x with outBuf := memWrite x.outBuf l (leBytes 4 v) }) s
          | _ => mbxWrite c l v s
      | none => if !s.fab.catalogue && o != 0x24 then werr o .busy s else writeReg b o l v s

/-! ### Register reads (R3, R407) -/

/-- The high half of a latched pair that a read of this register latches: its offset and value (R407). -/
def latchOf (s : State) (o : Nat) : Option (Nat × Word) :=
  if o = ftmBase + 8 then some (ftmBase + 0x0C, BitVec.ofNat 32 (now s / 2 ^ 32))
  else if o = secBase + 8 then some (secBase + 0x0C, BitVec.ofNat 32 (s.fuses.arb.toNat / 2 ^ 32))
  else if ftmBase + 0x400 ≤ o ∧ o < ftmBase + 0xC00 ∧ (o - ftmBase) % 0x20 = 0x0C then
    match s.alm.find? (fun a => a.slot == (o - ftmBase - 0x400) / 0x20) with
    | some a => some (o + 4, BitVec.ofNat 32 (a.shift / 2 ^ 32))
    | none => some (o + 4, 0)
  else none

/-- A read-to-clear field is cleared. -/
def clearRc (b : Blk) (o l : Nat) (f : RegField) (s : State) : State :=
  if f.acc != .rc then s
  else match b with
    | .swc =>
      if l = 0x48 then
        modEg (fieldOf s (swcBase + 0x40) 0 7) (fun x => { x with peak := tput 0 x.peak (fieldOf s (swcBase + 0x40) 8 5) 0 }) s
      else setField o f.lo f.w 0 s
    | .lnk p k =>
      if l = 0x0C then setField o f.lo f.w 0 s
      else modHif (fun h => { h with rcAt := tput 0 h.rcAt (lnkBase p k + l) (now s + 1) }) s
    | .pwr =>
      let t := setField o f.lo f.w 0 s
      if l = 0x0C then modHif (fun h => { h with rcAt := tput 0 h.rcAt (pwrBase + l) (now s + 1) }) t else t
    | .rda =>
      if 0x200 ≤ l ∧ l < 0x280 then { s with arr := { s.arr with landPeak := tput 0 s.arr.landPeak ((l - 0x200) / 4) 0 } }
      else setField o f.lo f.w 0 s
    | _ => setField o f.lo f.w 0 s

/-- A BAR0 read: the value goes to the host, the register's RC fields are cleared, a low half latches its high
half. -/
def hostRead (o size : Nat) (s : State) : State :=
  if !barReach s then s
  else if size ≠ 4 ∨ o % 4 ≠ 0 then emit (.hostReply 0xFFFFFFFF) s
  else
    let t := emit (.hostReply (regRead s o)) s
    let t := match latchOf s o with
      | some x => modHif (fun h => { h with latches := tput 0 h.latches x.1 x.2 }) t
      | none => t
    match locate o with
    | some (b, l) => each (fieldsAt o) (clearRc b o l) t
    | none => t

/-! ### Interrupts (R420) -/

/-- IRQ_HOLDOFF_EXPIRE: sources that rose within the holdoff are carried by one message. -/
def holdoffOver (v : Nat) (s : State) : State :=
  let x := vecOf s v
  if !x.holdoff then s
  else
    let s := setVec v { x with holdoff := false } s
    if x.rose then sendVec v s else s

/-- MSIX_UNMASK: a pending message is sent once. -/
def unmaskVec (v : Nat) (s : State) : State :=
  let x := vecOf s v
  if !s.hif.cxl.up || !x.masked then s
  else
    let s := setVec v { x with masked := false, pba := false } s
    if x.pba then riseVec v s else s

/-! ### CXL.mem windows (R101, R257, R403) -/

def winOff (n : Nat) : Nat := stkBase + 0x400 + n * 0x10

/-- The window and the FPA offset a device physical address lies in. -/
def winAt (s : State) (dpa : Nat) : Option (Nat × Nat) :=
  ((List.range 16).find? (fun n =>
    let base := (word s (winOff n + 4)).toNat * 2097152
    bitAt s (winOff n) 0 && decide (base ≤ dpa ∧ dpa < base + (word s (winOff n + 0xC)).toNat * 2097152))).map
    (fun n => (n, (word s (winOff n + 8)).toNat * 2097152 + dpa - (word s (winOff n + 4)).toNat * 2097152))

/-- MEM_WIN_SET (R257): the tenant is admitted and the region's descriptor names it and covers the range. -/
def memWinSetAt (c : Nat) (inp : Bytes) (s : State) : State :=
  let n := beField inp 0 1
  let flags := beField inp 1 1
  let on := flags.testBit 0
  let t := beField inp 2 2
  let key := beField inp 4 2
  let dpa := beField inp 6 4
  let off := beField inp 10 4
  let size := beField inp 14 4
  let space := if flags.testBit 1 then 2 else 1
  let others := (List.range 16).filter (fun m => m != n && bitAt s (winOff m) 0 && fieldOf s (winOff m) 4 12 == t)
  if 16 ≤ n ∨ 4 ≤ flags ∨ 4096 ≤ t ∨ (on = true ∧ size = 0) ∨ 2 ^ 20 < dpa + size then mbxEnd c .malformed [] s
  else
    let ok := match goodRegion s (memEp s) key with
      | some d => d.v && d.tenant == t && d.space == space && decide (d.base ≤ off * 2097152 ∧ (off + size) * 2097152 ≤ d.base + d.len)
      | none => false
    let active := match slotOfTenant s t with | some k => (tenSlot s k).state == .active | none => false
    if on && !(active && ok) then mbxEnd c .accessDenied [] s
    else if on && !s.ten.shared && decide (16 / Nat.max 1 s.ten.slots ≤ others.length) then mbxEnd c .busy [] s
    else
      let w0 := packBits [(0, b2n on), (1, b2n (flags.testBit 1)), (4, t), (16, key)]
      let s := setWord (winOff n) w0 (setWord (winOff n + 4) (BitVec.ofNat 32 dpa) s)
      mbxEnd c .done [] (setWord (winOff n + 8) (BitVec.ofNat 32 off) (setWord (winOff n + 0xC) (BitVec.ofNat 32 size) s))

/-- A CXL.mem access that is refused: poison for a read, a write discarded; both counted (R257). -/
def cxlDeny (write : Bool) (s : State) : State :=
  emit (if write then .cxlMemDone else .cxlMem none) (bump cntStkDenyCnt s)

/-- A CXL.mem access of one 64-byte unit, checked as a request of the window's tenant (R74, R101): no write
reaches a measured region (R256). It goes from HOST over the switching core to MEM (R24). -/
def cxlAccess (dpa64 : Nat) (write : Bool) (data : Bytes) (ecc : Ecc) (s : State) : State :=
  if !s.hif.cxl.up then s
  else match winAt s (dpa64 * 64) with
    | none => cxlDeny write s
    | some (n, off) =>
      let o := winOff n
      let key := fieldOf s o 16 16
      let t := fieldOf s o 4 12
      let space := if bitAt s o 1 then 2 else 1
      let bad := match regionAt s (memEp s) key with | some x => sysReadFails s x ecc | none => true
      let s := sysFound (regionAt s (memEp s) key) ecc s
      match readRegion s (memEp s) key with
      | none => cxlDeny write s
      | some d =>
        if bad || !d.admits t d.keytag space off 64 (if write then .w else .r) ||
            (write && d.meas) || decide (spaceLimit space < off + 64) then cxlDeny write s
        else
          let f : Frame := {
            type := tReq, cls := 2, dst := BitVec.ofNat 16 (memEp s), src := BitVec.ofNat 16 (memEp s), plane := s.fab.plane
            tenant := BitVec.ofNat 12 t, opc := if write then 2 else 1, len := 64
            mid := midOf (space * 2 ^ 44 + off) key d.keytag, payload := if write then slice data 0 64 else [] }
          submitTo egMem f { s with hif := { s.hif with cxl := { s.hif.cxl with wait := s.hif.cxl.wait ++ [f] } } }

/-- A CXL.mem access that has come to MEM is served as any request there, and answered with poison where MEM cannot (R101). -/
def cxlServe (f : Frame) (s : State) : State :=
  if homeReach s hpMem f != .done then emit (if f.opc == 2 then .cxlMemDone else .cxlMem none) s
  else startAcc hpMem f true 0 none s

/-! ### Mirror sessions (R275) -/

/-- The words of a session hold no reserved encoding (R278). -/
def mirOk (w0 w2 : Nat) : Bool :=
  bitsOf w0 2 2 != 0 && decide (bitsOf w0 20 7 < 88) && bitsOf w0 30 2 == 0 && decide (w2 < 88)

/-- The filter and destination the tenancy allows (R275). -/
def mirAllowed (s : State) (w0 w1 w2 : Nat) : Bool :=
  let all := w0.testBit 7
  if w0.testBit 1 then s.ten.shared && isFabricPort s w2
  else !all && (match goodRegion s (memEp s) (bitsOf w1 16 16) with
    | some d => d.v && d.tenant == bitsOf w0 8 12
    | none => false)

/-- SWC_MIRROR: the session is committed and starts afresh; a new analysis port leaves the routes, and the one it had comes back
unless another session targets it. -/
def swcMirrorAt (c : Nat) (inp : Bytes) (s : State) : State :=
  let n := beField inp 0 1
  let w0 := beField inp 4 4
  let w1 := beField inp 8 4
  let w2 := beField inp 12 4
  let on := w0.testBit 0
  let others := (List.range 8).filter (fun m => m != n && bitAt s (mirOff m) 0 && fieldOf s (mirOff m) 8 12 == bitsOf w0 8 12)
  if 8 ≤ n ∨ !allZero (slice inp 1 3) ∨ !mirOk w0 w2 then mbxEnd c .malformed [] s
  else if on && !mirAllowed s w0 w1 w2 then mbxEnd c .accessDenied [] s
  else if on && !s.ten.shared && decide (8 / Nat.max 1 s.ten.slots ≤ others.length) then mbxEnd c .busy [] s
  else
    let was := analysisPort s w2
    let o := mirOff n
    let old := fieldOf s (o + 8) 0 7
    let had := analysisPort s old
    let s := setWord o (BitVec.ofNat 32 w0) (setWord (o + 4) (BitVec.ofNat 32 w1) (setWord (o + 8) (BitVec.ofNat 32 w2) s))
    let s := mirStop n s
    let s := { s with sw := { s.sw with
      mirCnt := tput 0 s.sw.mirCnt n 0, mirRec := tput 0 s.sw.mirRec n 0
      mirNext := tput 0 s.sw.mirNext n 0, mirVis := tput 0 s.sw.mirVis n 0 } }
    let s := if had then returnPort old s else s
    let s := if on && w0.testBit 1 && !was then leaveRoutes w2 s else s
    mbxEnd c .done [] s

/-! ### The CXL memory-device mailbox and DOE (R400) -/

/-- Return codes of the memory-device mailbox. -/
abbrev mdOk : Nat := 0
abbrev mdInvalid : Nat := 2

/-- An answer of the memory-device mailbox goes out while the link is up. -/
def mdAnswer (code : Nat) (payload : Bytes) (s : State) : State :=
  if s.hif.cxl.up then emit (.mdMailbox code payload) s else s

/-- The device's capacity, 2 TiB, in units of 256 MiB (R403). -/
abbrev mdCapacity : Nat := 8192

/-- Identify Memory Device: all capacity is volatile (R400, R403); layout of the CXL 3.1 command. -/
def mdIdentify : Bytes :=
  (List.range 16).map (Config.freeByte 0) ++ leBytes 8 mdCapacity ++ leBytes 8 mdCapacity ++ leBytes 8 0 ++
  (List.range 29).map (fun i => Config.freeByte 0 (16 + i))

/-- The supported commands (R400), by their CXL 3.1 codes. -/
def mdCommands : List Nat := [0x0100, 0x0101, 0x0400, 0x0401, 0x4000, 0x4100]

/-- The Command Effects Log: each command with its effects, which the spec does not state. -/
def mdEffects : Bytes :=
  mdCommands.flatMap (fun c => leBytes 2 c ++ [Config.freeByte 0 (2 * c), Config.freeByte 0 (2 * c + 1)])

/-- The identifier of the Command Effects Log. -/
def mdCelId : Bytes :=
  [0x0D, 0xA9, 0xC0, 0xB5, 0xBF, 0x41, 0x4B, 0x78, 0x8F, 0x79, 0x96, 0xB1, 0x62, 0x3B, 0x3F, 0x17]

/-- Get Supported Logs: one log. -/
def mdLogs : Bytes := leBytes 2 1 ++ List.replicate 6 0 ++ mdCelId ++ leBytes 4 mdEffects.length

/-- GET_LOG: the bytes asked for, which must lie in the log. -/
def mdGetLog (off len : Nat) (s : State) : State :=
  if off + len ≤ mdEffects.length then mdAnswer mdOk (slice mdEffects off len) s else mdAnswer mdInvalid [] s

/-- Get Partition Info: all volatile, none pending. -/
def mdPartition : Bytes := leBytes 8 mdCapacity ++ leBytes 8 0 ++ leBytes 8 0 ++ leBytes 8 0

/-- GET_EVENT_RECORDS: the four logs are always empty. -/
def mdEvents (log : Nat) (s : State) : State :=
  if log < 4 then mdAnswer mdOk (List.replicate 32 0) s else mdAnswer mdInvalid [] s

/-- CLEAR_EVENT_RECORDS of an empty log. -/
def mdClear (log : Nat) (s : State) : State :=
  if log < 4 then mdAnswer mdOk [] s else mdAnswer mdInvalid [] s

/-- DOE_REQUEST: SPDM and IDE key management answer once the identity is derived, and IDE keys then run the named
stream (R319, R400). -/
def doeAt (k : DoeKind) (s : State) : State :=
  let able := match k with | .spdm | .ideKm _ => s.ten.idReady | _ => true
  if !s.hif.cxl.up || !able then s
  else
    let s := emit (.doe k) s
    match k with
    | .ideKm true => modHif (fun h => { h with cxl := { h.cxl with ideIo := true } }) s
    | .ideKm false => modHif (fun h => { h with cxl := { h.cxl with ideMem := true } }) s
    | _ => s

end Sys2Proof.Machine
end

