-- ==== Sys2Proof/Machine/Evidence.lean ====
section
/-!
DEFINITION. The evidence record (R328 to R330): its header, its items in ascending TYPE order, and its signature
block.
-/

namespace Sys2Proof.Machine
open Sys2Proof

/-- An item: TYPE, LEN and the value, padded with zeros to a multiple of 4 bytes. -/
def evItem (ty : Nat) (v : Bytes) : Bytes :=
  beBytes 2 ty ++ beBytes 2 v.length ++ v ++ List.replicate (ceilDiv v.length 4 * 4 - v.length) 0

/-- The running image digests of the five roles, which the Alias certificates carry (R326). -/
def fwDigests (s : State) : Bytes :=
  (List.range 5).flatMap (fun r => manDigest (roleMan s r) r)

/-- CERT_ED and CERT_MLDSA: the chain from the Axwick root to Alias. -/
def evCerts (s : State) : List Bytes :=
  (List.range 2).flatMap (fun a => (List.range 4).map (fun i => evItem (1 + a) (Config.certificate a i (fwDigests s))))

/-- FIRMWARE, one item for each role. -/
def evFirmware (s : State) : List Bytes :=
  (List.range 5).map (fun r => evItem 0x10 (beBytes 1 r ++ beBytes 1 (b2n (roleSlot s r)) ++
    beBytes 8 (imgVersion s r) ++ manDigest (roleMan s r) r))

/-- CATALOGUE, once one is applied. -/
def evCatalogue (s : State) : List Bytes :=
  if s.fab.catDigest.isEmpty then [] else [evItem 0x11 (beBytes 1 3 ++ s.fab.catDigest)]

/-- Time-division slots per cycle that a tenant slot owns on each fabric cluster (R270). -/
def tdmShare (s : State) (n : Nat) : Nat :=
  if s.ten.shared then 0
  else match (List.range 11).find? (fun c => clusterMode s c != 0) with
    | none => 0
    | some c =>
      ((List.range 64).filter (fun k => fieldOf s (swcBase + 0x1000 + c * 0x40 + k / 4 * 4) (8 * (k % 4)) 8 == n)).length

/-- Packet-buffer cells of a tenant (R264). -/
def cellShare (s : State) : Nat :=
  if s.ten.shared then fieldOf s (swcBase + 4) 0 16 else 638976 / Nat.max 1 s.ten.slots

/-- PARTITION of one slot. -/
def evPartition (s : State) (n : Nat) (x : TenSlot) : Bytes :=
  evItem 0x20 (beBytes 2 x.tenant.toNat ++ beBytes 2 x.stk.toNat ++ beBytes 2 x.anx.toNat ++
    beBytes 1 (match x.cel with | some c => c.toNat | none => 0xFF) ++ [0] ++ beBytes 4 x.grp.toNat ++
    beBytes 9 x.ports.toNat ++ beBytes 2 (tdmShare s n) ++ beBytes 2 x.eng.toNat ++ beBytes 4 (cellShare s))

/-- The items of tenants, those of one tenant only for SCOPE 1. -/
def evTenant (s : State) (mine : BitVec 12 → Bool) : List Bytes :=
  ((s.ten.ten.filter (fun x => x.2.state != .free && mine x.2.tenant)).map (fun x => evPartition s x.1 x.2)) ++
  ((s.alm.filter (fun a => mine a.tenant)).map (fun a => evItem 0x21 (beBytes 4 a.job.toNat ++ beBytes 2 a.tenant.toNat ++ a.digest))) ++
  (s.arr.programs.filterMap (fun x => match x.2 with
    | some p => if mine p.tenant then some (evItem 0x22 (beBytes 1 x.1 ++ [0] ++ beBytes 2 p.tenant.toNat ++ p.digest)) else none
    | none => none)) ++
  ((s.mov.measured.filter (fun m => m.sealed && mine m.tenant)).map (fun m => evItem 0x23 (beBytes 2 (memEp s) ++
    beBytes 2 m.keyidx.toNat ++ beBytes 2 m.tenant.toNat ++ beBytes 8 m.base ++ beBytes 8 m.length ++ m.digest))) ++
  (s.ten.released.filterMap (fun x => match x.2 with
    | some r => if mine r.tenant then some (evItem 0x24 (beBytes 2 r.tenant.toNat ++ beBytes 2 r.stk.toNat ++
        beBytes 2 r.anx.toNat ++ beBytes 4 r.failed.toNat ++ beBytes 8 r.tick.toNat)) else none
    | none => none))

/-- The 128-byte header. -/
def evHeader (s : State) (scope tenant len items : Nat) (nonce : Bytes) : Bytes :=
  beBytes 4 0x4F455652 ++ [1] ++ beBytes 1 scope ++ beBytes 2 tenant ++ beBytes 4 len ++ beBytes 4 items ++ nonce ++
  beBytes 8 (now s) ++ beBytes 8 s.fuses.serial.toNat ++ beBytes 2 (if s.fab.nodeV then nodeId s else 0) ++ [0, 0] ++
  beBytes 4 Config.romVersion.toNat ++ beBytes 8 s.fuses.arb.toNat ++ beBytes 1 (b2n s.ten.debug) ++
  beBytes 1 s.fuses.unlocks ++ beBytes 1 (b2n s.ten.shared) ++ beBytes 1 s.ten.slots ++ List.replicate 44 0

/-- The record of a nonce and a scope. -/
def evRecord (s : State) (nonce : Bytes) (scope tenant : Nat) : Bytes :=
  let mine := fun (t : BitVec 12) => scope == 0 || t.toNat == tenant
  let items := evCerts s ++ evFirmware s ++ evCatalogue s ++ evTenant s mine
  let len := 128 + (items.map List.length).sum
  let body := evHeader s scope (if scope = 0 then 0 else tenant) len items.length nonce ++ items.flatten
  body ++ slice (Config.aliasSign s.fresh body) 0 3373

/-- A tenant the device can give evidence of: admitted, or with a RELEASED item (R330). -/
def evKnown (s : State) (tenant : Nat) : Bool :=
  (slotOfTenant s tenant).isSome ||
  s.ten.released.any (fun x => match x.2 with | some r => r.tenant.toNat == tenant | none => false)

/-- What a request for evidence ends with (R328, R330, R332). -/
def evStatus (s : State) (inp : Bytes) : Status :=
  let scope := beField inp 32 1
  let tenant := beField inp 34 2
  if 1 < scope ∨ beField inp 33 1 ≠ 0 ∨ (scope = 1 ∧ 4096 ≤ tenant) then .malformed
  else if s.ten.debug || !s.ten.idReady || (scope == 1 && !evKnown s tenant) then .accessDenied
  else .done

/-- The record a request for evidence names. -/
def evAnswer (s : State) (inp : Bytes) : Bytes := evRecord s (slice inp 0 32) (beField inp 32 1) (beField inp 34 2)

/-- EVIDENCE_GET. -/
def evidenceAt (c : Nat) (inp : Bytes) (s : State) : State :=
  if evStatus s inp != .done then mbxEnd c (evStatus s inp) [] s else mbxAnswer c (evAnswer s inp) draw s

/-- The counterpart of EVIDENCE_GET on the management port (R328). DESIGN CHOICE, unsafe (log 132): it names the nonce and the
scope in the bytes of the mailbox input, and is answered with the status and the record while the port is reached. -/
def evidencePort (inp : Bytes) (s : State) : State :=
  if !mgmtUp s then s
  else if evStatus s inp != .done then emit (.evidence (evStatus s inp) []) s
  else draw (emit (.evidence .done (evAnswer s inp)) s)

end Sys2Proof.Machine
end

