-- ==== Sys2Proof/Machine/Top.lean ====
section
/-!
DEFINITION. How a command runs: its effect, then everything that follows of itself in the device before the next
command: ended requests reach their originators, engines and contexts move on, held stores and waiting frames go,
and the readiness state advances where its conditions hold (R383).
-/

namespace Sys2Proof.Machine
open Sys2Proof

/-- A held store has been confirmed by its new home: it is answered (R254). -/
def forwardEnded (id : Nat) (r : FabReq) (s : State) : State :=
  match s.mov.held.find? (fun h => h.id == id) with
  | none => s
  | some h => heldOver h r.status (match r.data with | d :: _ => d.2 | [] => []) s

/-- A fabric request of this device has ended: its originator hears of it. -/
def originEnded (r : FabReq) (s : State) : State :=
  match r.origin with
  | .attach p id => attachEnded p id r s
  | .engine e _ => partAnswered e r.status r.data s
  | .coll c _ => collEnded c r.status s
  | .multicast x => multicastEnded x r.status s
  | .treeList p id run => listPart p id run r.status r.data s
  | .record => s
  | .forward id _ => forwardEnded id r s

/-- One round of what follows of itself. -/
def settleOnce (s : State) : State :=
  let es := s.trn.ended
  let s := each es originEnded { s with trn := { s.trn with ended := [] } }
  let hs := s.mov.hostDone
  let s := each hs (fun h s => partAnswered h.1 h.2.2.1 [(h.2.1, h.2.2.2)] s) { s with mov := { s.mov with hostDone := [] } }
  let cs := s.hif.cxl.arrived
  let s := each cs cxlServe (modHif (fun h => { h with cxl := { h.cxl with arrived := [] } }) s)
  movesSettle (collSettle s)

/-- Something of a round is still to be handed on. -/
def unsettled (s : State) : Bool := !s.trn.ended.isEmpty || !s.mov.hostDone.isEmpty || !s.coll.writes.isEmpty ||
  !s.hif.cxl.arrived.isEmpty

/-- Rounds until nothing is left to hand on, at most `n`. -/
def settleLoop : Nat → State → State
  | 0, s => s
  | n + 1, s => let t := settleOnce s; if unsettled t then settleLoop n t else t

/-- Frames that waited for room, for a window or for a copy's place go where they now can. -/
def moveWaiting (s : State) : State :=
  let s := each (s.att.filter (fun x => x.2.out.any OutReq.waitsTurn)) (fun x s => releaseFlags x.1 s) s
  let s := if s.sw.parked.isEmpty then s else unpark s
  each (s.trn.send.filter (fun c => c.state == .opened && !c.waiting.isEmpty)) (fun c s => pump c.num s) s

/-- Nothing waits to be handed on: no ended request or access is unreported, no context has a later instance waiting,
no move is giving up a page, no confirmation is owed, no store waits for a hold buffer or at an old copy, no frame waits for the
first of its COPY, no translated request awaits its turn and no frame waits. -/
def quiet (s : State) : Bool :=
  !unsettled s && !s.mov.moves.any (fun m => m.phase == .releasing) && s.mov.owed.isEmpty && s.mov.drains.isEmpty &&
  s.mov.measWait.isEmpty && !s.mov.held.any (fun x => x.waits || heldLeft s x) &&
  !s.coll.ctxs.any (fun x => x.2.state == .idle && !(x.2.waitDesc.isEmpty && x.2.waitKid.isEmpty)) &&
  !s.att.any (fun x => x.2.out.any OutReq.waitsTurn) && s.sw.parked.isEmpty &&
  !s.trn.send.any (fun c => c.state == .opened && !c.waiting.isEmpty)

/-- A MOVE's engine waits for bytes of a page it reads, which it writes on when they come (R245). -/
def pageReads (s : State) : Bool := s.mov.moves.any (fun m => m.phase == .reading)

/-- What follows of itself is the business of requests, frames, accesses, moves and contexts: the fuses, pins, time,
links, lasers, translations, Almanacs, tenancy, power and the plane's view stay as the command left them, the firmware
gains Ledger entries at most, and what is put out comes after what the command put out. Bytes of the Stacks and the
Annex change only where an engine waits for what it reads. -/
def within (s t : State) : State :=
  { t with
    home := if pageReads s then t.home else { t.home with stk := s.home.stk, anx := s.home.anx }
    pending := s.pending, fuses := s.fuses, chip := s.chip, time := s.time, ports := s.ports, lasers := s.lasers
    xlat := s.xlat, alm := s.alm, ten := s.ten, pwr := s.pwr, fab := s.fab
    fw := { s.fw with ledger := t.fw.ledger, head := t.fw.head, cycles := t.fw.cycles, tpSec := t.fw.tpSec, tpCnt := t.fw.tpCnt }
    out := s.out ++ t.out }

/-- Hand on until nothing more follows. -/
def handOn (s : State) : State :=
  if quiet s then s else within s (settleLoop 64 (moveWaiting (settleLoop 64 { s with out := [] })))

/-- Everything that follows of itself, and the readiness transitions whose conditions now hold (R383). -/
def settle (s : State) : State := advanceReady (handOn s)

/-- The parts of the state a row's own effect may write, beside registers, counters, free values, Ledger and firmware,
host link and channels, health windows, and what is put out: pins and bridges, Fabric Time, ports, lasers, translations,
Almanacs, tenancy, power, the plane's view, and the data path (sessions, transport, home points, moves, switching core,
collectives, array). Of the data path, `mem` says that the row may write bytes of the Stacks or the Annex, or have an engine
read a page. What a row does not reach stays as it is. -/
structure Reach where
  chip   : Bool := false
  time   : Bool := false
  ports  : Bool := false
  lasers : Bool := false
  xlat   : Bool := false
  alm    : Bool := false
  ten    : Bool := false
  pwr    : Bool := false
  fab    : Bool := false
  data   : Bool := false
  mem    : Bool := false
  deriving DecidableEq, Repr

/-- A device reset reaches everything (R368). -/
def Reach.everything : Reach :=
  { chip := true, time := true, ports := true, lasers := true, xlat := true, alm := true, ten := true, pwr := true
    fab := true, data := true, mem := true }

/-- `t` in the parts that are reached, `s` in the others. -/
def Reach.bound (r : Reach) (s t : State) : State :=
  { t with
    chip := if r.chip then t.chip else s.chip
    time := if r.time then t.time else s.time
    ports := if r.ports then t.ports else s.ports
    lasers := if r.lasers then t.lasers else s.lasers
    xlat := if r.xlat then t.xlat else s.xlat
    alm := if r.alm then t.alm else s.alm
    ten := if r.ten then t.ten else s.ten
    pwr := if r.pwr then t.pwr else s.pwr
    fab := if r.fab then t.fab else s.fab
    att := if r.data then t.att else s.att
    trn := if r.data then t.trn else s.trn
    home := if r.data then (if r.mem then t.home else { t.home with stk := s.home.stk, anx := s.home.anx }) else s.home
    mov := if !r.data then s.mov
      else if r.mem || pageReads s then t.mov
      else { t.mov with moves := t.mov.moves.filter (fun m => m.phase != .reading) }
    sw := if r.data then t.sw else s.sw
    coll := if r.data then t.coll else s.coll
    arr := if r.data then t.arr else s.arr }

/-- A command's effect while the clocks run, with what follows of it and the readiness change noted. -/
def run (r : Reach) (s : State) (f : State → State) : Host.Outcome State Fault Refusal :=
  live s (fun s => noteReady s (settle (r.bound s (f s))))

/-- As `run`, for the commands that may blow fuses. -/
def runFuses (r : Reach) (s : State) (f : State → State) : Host.Outcome State Fault Refusal :=
  liveFuses s (fun s => noteReady s (settle (r.bound s (f s))))

/-- A reset pin's level: it acts whether or not the clocks run, and leaves the queue and the fuses alone. -/
def runPin (r : Reach) (s : State) (f : State → State) : Host.Outcome State Fault Refusal := .next (keep s (r.bound s (f s)))

/-- A command that arrives at a Fabric Time tick: the counter has reached it. -/
def runAt (r : Reach) (t : Tick) (s : State) (f : State → State) : Host.Outcome State Fault Refusal :=
  run r s (fun s => f (advance t s))

end Sys2Proof.Machine
end

