-- ==== Sys2Proof/Machine/RowsAttach.lean ====
section
/-!
DEFINITION. The meanings of the Attach rows (R29 to R56): session events, message custody, the requests of an
accelerator and its inbound answers.
-/

namespace Sys2Proof.Machine
open Sys2Proof

/-- A row of an Attach message that has passed its CRC-32, with which the port's receiver regains delineation (R286). -/
def runMsg (r : Reach) (p : APort) (s : State) (f : State → State) : Host.Outcome State Fault Refusal :=
  run { r with ports := true } s (fun s => f (regain p s))

/-- A write of EPB_ATT_CTRL.EN: the register's word with the bit as given (R30, R409). -/
def attEnWord (s : State) (p : APort) (on : Bool) : Nat :=
  (putBits (regRead s (epbBase p)) 0 1 (b2n on)).toNat

/-- EPB_ATT_EN_SET (R30). -/
def execEpbAttEnSet (p : APort) (s : State) : Host.Outcome State Fault Refusal :=
  run { ports := true, fab := true, data := true } s (fun s => hostWrite (epbBase p) 4 (attEnWord s p true) s)

/-- EPB_ATT_EN_CLEAR (R30). -/
def execEpbAttEnClear (p : APort) (s : State) : Host.Outcome State Fault Refusal :=
  run { ports := true, fab := true, data := true } s (fun s => hostWrite (epbBase p) 4 (attEnWord s p false) s)

/-- The peer states a revision this port takes: 1.1, or 1.0 where ALLOW_1_0 is set (R30). -/
def helloAccepted (s : State) (p : Nat) (m : AttMsg) : Bool :=
  beField m.payload 0 1 == 1 && (beField m.payload 1 1 == 1 || (beField m.payload 1 1 == 0 && bitAt s (epbBase p) 4))

/-- A peer HELLO in HELLO fixes the session or is refused; a session on an unbound port passes on to FENCED. -/
def helloAt (p : Nat) (m : AttMsg) (s : State) : State :=
  if (sess s p).state != .hello || m.opc != 0x3C then s
  else
    let s := modSess p (fun x => { x with
      peerCaps := BitVec.ofNat 16 (beField m.payload 2 2), peerMin := BitVec.ofNat 8 (beField m.payload 1 1)
      peerMaj := BitVec.ofNat 8 (beField m.payload 0 1) }) s
    if helloAccepted s p m then
      let s := openSess p m s
      if portBound s p then s else fencePort p s
    else refuseHello p evEpbAttVersionFail (emitAtt p (helloMsg (sess s p) 1 .version) s)

/-- HELLO (R30, R31, R36). -/
def execHello (p : APort) (m : AttMsg) (s : State) : Host.Outcome State Fault Refusal :=
  runMsg { data := true } p s (helloAt p m)

/-- HELLO_REPEAT (R30). -/
def execHelloRepeat (p : APort) (s : State) : Host.Outcome State Fault Refusal :=
  run { data := true } s (fun s => whenS ((sess s p).state == .hello) (emitAtt p (helloMsg (sess s p) 1 .done)) s)

/-- HELLO_TIMEOUT (R30). -/
def execHelloTimeout (p : APort) (s : State) : Host.Outcome State Fault Refusal :=
  run { data := true } s (fun s => whenS ((sess s p).state == .hello) (refuseHello p evEpbAttTimeout) s)

/-- ACCEPT (R37, R39). -/
def execAccept (p : APort) (msn : BitVec 16) (s : State) : Host.Outcome State Fault Refusal :=
  runMsg { data := true } p s (acceptTo p msn)

/-- The session takes ACCEPT, CREDIT and ATTACH_NAK (R54). -/
def sessOpen (s : State) (p : Nat) : Bool := (sess s p).state == .up || (sess s p).state == .fenced

/-- An ATTACH_NAK: every unacknowledged message from the named one goes again, or with FENCED none (R38, R54). -/
def nakAtt (p : Nat) (msn : BitVec 16) (status : BitVec 8) (s : State) : State :=
  if !sessOpen s p then s
  else
    let s := raiseEpb p evEpbAttNakRx (bump (cntEpbNakRxCnt p) s)
    if status.toNat = Status.fenced.code then modSess p (fun x => { x with halted := true }) s
    else if (sess s p).halted then s
    else resendFrom p ((sess s p).unacked.dropWhile (fun u => !(u.1 == msn))) s

/-- ATTACH_NAK (R38). -/
def execAttachNak (p : APort) (msn : BitVec 16) (status : BitVec 8) (s : State) : Host.Outcome State Fault Refusal :=
  runMsg { data := true } p s (nakAtt p msn status)

/-- A CREDIT: its RSP and INB counts add to the balances, and what waited for them goes (R40). -/
def creditAtt (p : Nat) (counts : BitVec 64) (s : State) : State :=
  if !sessOpen s p then s
  else flushAtt p (modSess p (fun x => { x with
    rspCrd := x.rspCrd + bitsOf counts.toNat 32 16, inbCrd := x.inbCrd + bitsOf counts.toNat 16 16 }) s)

/-- CREDIT (R40). -/
def execCredit (p : APort) (counts : BitVec 64) (s : State) : Host.Outcome State Fault Refusal :=
  runMsg { data := true } p s (creditAtt p counts)

/-- ATTACH_MESSAGE_CORRUPT (R37). -/
def execAttachMessageCorrupt (p : APort) (s : State) : Host.Outcome State Fault Refusal :=
  run { data := true } s (corruptAt p)

/-- ATTACH_RESEND_TIMEOUT (R38). -/
def execAttachResendTimeout (p : APort) (s : State) : Host.Outcome State Fault Refusal :=
  run { data := true } s (fun s => whenS (sessOpen s p && !(sess s p).halted) (resendFrom p (sess s p).unacked) s)

/-- READ (R43). -/
def execRead (p : APort) (m : AttMsg) (s : State) : Host.Outcome State Fault Refusal :=
  runMsg { xlat := true, data := true } p s (takeReq 1 p m)

/-- WRITE (R43). -/
def execWrite (p : APort) (m : AttMsg) (s : State) : Host.Outcome State Fault Refusal :=
  runMsg { xlat := true, data := true } p s (takeReq 2 p m)

/-- WRITE_FLAG (R90). -/
def execWriteFlag (p : APort) (m : AttMsg) (s : State) : Host.Outcome State Fault Refusal :=
  runMsg { xlat := true, data := true } p s (takeReq 3 p m)

/-- ATOMIC (R44). -/
def execAtomic (p : APort) (m : AttMsg) (s : State) : Host.Outcome State Fault Refusal :=
  runMsg { xlat := true, data := true } p s (takeReq 4 p m)

/-- COMMIT (R119). -/
def execCommit (p : APort) (m : AttMsg) (s : State) : Host.Outcome State Fault Refusal :=
  runMsg { xlat := true, data := true } p s (takeReq 5 p m)

/-- Checks 0 to 4 of R72 for a MOVE, and 8 and 9 for the endpoints that its descriptor names itself; and whether it came on
a wrong plane (R62, R245, R246, R248). -/
def moveCheck (s : State) (p : Nat) (m : AttMsg) : Status × Bool :=
  let d := parseMove m.payload
  if !portBound s p then (.fenced, false)
  else if m.opc != 6 || !reqFieldsOk m || m.len != 0 || m.atop != 0 || !moveFormat m.payload then (.malformed, false)
  else match d.plane with
    | none => (.malformed, false)
    | some pl =>
      if !moveFvas d then (.malformed, false)
      else
        let st := planeCheck s (.plane pl) true (planeMask s p)
        if st != .done then (st, st == .malformed) else (epsCheck s (moveEps d), false)

/-- A MOVE is taken: it waits for a move engine of its tenant, or ends at once (R246, R247). -/
def takeMove (p : Nat) (m : AttMsg) (s : State) : State :=
  onMsg p m (fun s =>
    let id := nextOut s p
    let r := moveCheck s p m
    let s := addOut p m .moving [] (notePlane p r.1 r.2 s)
    if r.1 == .done then addMove (.attach p id) (BitVec.ofNat 12 (portTenant s p)) m.payload false s
    else endOut p id r.1 [] s) s

/-- MOVE (R246). -/
def execMove (p : APort) (m : AttMsg) (s : State) : Host.Outcome State Fault Refusal :=
  runMsg { data := true } p s (takeMove p m)

/-- RELEASE_MARK (R46). -/
def execReleaseMark (p : APort) (m : AttMsg) (s : State) : Host.Outcome State Fault Refusal :=
  runMsg { data := true } p s (takeMark p m)

/-- DESCRIPTOR_CHUNK (R187). -/
def execDescriptorChunk (p : APort) (m : AttMsg) (s : State) : Host.Outcome State Fault Refusal :=
  runMsg { data := true } p s (takeDesc p m)

/-- DATA_CHUNK (R183). -/
def execDataChunk (p : APort) (m : AttMsg) (s : State) : Host.Outcome State Fault Refusal :=
  runMsg { data := true } p s (takeData p m)

/-- TREE_OPEN (R189). -/
def execTreeOpen (p : APort) (m : AttMsg) (s : State) : Host.Outcome State Fault Refusal :=
  runMsg { data := true } p s (takeTreeOpen p m)

/-- TREE_CLOSE (R187). -/
def execTreeClose (p : APort) (m : AttMsg) (s : State) : Host.Outcome State Fault Refusal :=
  runMsg { data := true } p s (takeTreeClose p m)

/-- An INB_DONE is taken: it finishes the inbound request it names, or is stray (R49). On a fenced port a locked
read goes on no further, and the last answer ends the fence's wait, and with it every request that has not ended (R54). -/
def takeInbDone (p : Nat) (m : AttMsg) (s : State) : State :=
  let m := { m with opc := 0x30 }
  onMsg p m (fun s =>
    match (sess s p).inb.find? (fun q => q.tag == m.tag && !inbUnsent (sess s p) q.tag) with
    | none => raiseEpb p evEpbAttStrayDone s
    | some r =>
      if (sess s p).state == .fenced then
        let s := if r.opc == 0x28 && r.locked then
            dropHome p .fenced (fun a => a.id == r.access)
              (modSess p (fun x => { x with inb := x.inb.filter (fun q => !(q.tag == r.tag)) }) s)
          else inbFinish p r m s
        if (sess s p).inb.isEmpty then fenceEnd p s else s
      else inbFinish p r m s) s

/-- INB_DONE (R49). -/
def execInbDone (p : APort) (m : AttMsg) (s : State) : Host.Outcome State Fault Refusal :=
  runMsg { data := true } p s (takeInbDone p m)

/-- MARK_DONE (R46). -/
def execMarkDone (p : APort) (tag : BitVec 13) (s : State) : Host.Outcome State Fault Refusal :=
  run { data := true } s (markDone p tag)

/-- An Attach timeout: the session is LOST and the endpoint quarantined on its plane (R51). -/
def attTimeout (p : Nat) (s : State) : State :=
  if !sessOpen s p then s
  else quarFound (slotEp s p) (sessDown p .lost (raiseEpb p evEpbAttTimeout s))

/-- ATTACH_TIMEOUT (R51). -/
def execAttachTimeout (p : APort) (s : State) : Host.Outcome State Fault Refusal :=
  run { data := true } s (attTimeout p)

/-- FENCE_WAIT_END (R54). -/
def execFenceWaitEnd (p : APort) (s : State) : Host.Outcome State Fault Refusal := run { data := true } s (fenceEnd p)

end Sys2Proof.Machine
end

