-- ==== Sys2Proof/Machine/Arrive.lean ====
section
/-!
DEFINITION. Frames as they arrive: at the ingress of a port (R126, R135, R265, R266, R304, R437), at the target of a
request (R127, R128, R137, R138), and at its source (R130, R131).
-/

namespace Sys2Proof.Machine
open Sys2Proof

/-! ### At an endpoint of this device -/

/-- The header fields every frame type has in common hold no reserved value (R2, R125, R128). -/
def frameFieldsOk (f : Frame) : Bool :=
  (f.ver == 1 || f.ver == 2) && f.cls != 3 && f.scope != 3 && decide (f.len.toNat ≤ 512) &&
  decide (f.src.toNat < 0x5000) && decide (f.type.toNat < 8)

/-- The statuses a home gives in an RSP (R117, R122, R123, R23). -/
def rspStatusOk (st : BitVec 8) : Bool :=
  [Status.done, .accessDenied, .targetLost, .dataError, .noContext, .commitLost, .malformed, .tierFailed].any
    (fun x => x.code == st.toNat)

/-- The reasons of a NAK (R131). -/
def nakReasonOk (st : BitVec 8) : Bool :=
  [Status.dataError, .busy, .malformed, .fenced, .targetLost, .version].any (fun x => x.code == st.toNat)

/-- The payload of an OPEN or OPEN_ACK sets no reserved bit, and PREV_END only with SUCC (R141). -/
def sessionOk (p : Bytes) : Bool :=
  p.length == 16 && bitsOf (beField p 5 1) 4 4 == 0 && bitsOf (beField p 6 2) 12 2 == 0 && allZero (p.drop 12) &&
  ((beField p 6 2).testBit 14 || beField p 8 4 == 0)

/-- OPC values that R125, R169, R202 and R254 assign. -/
def opcAssigned (o : BitVec 8) : Bool :=
  decide (1 ≤ o.toNat ∧ o.toNat ≤ 7) || decide (0x40 ≤ o.toNat ∧ o.toNat ≤ 0x48) ||
  decide (0x50 ≤ o.toNat ∧ o.toNat ≤ 0x53) || o == 0x70

/-- The OPC of an ACK, NAK, OPEN, OPEN_ACK or CLOSE: one that is assigned, or 0, since these frames name no operation (R125;
DEDUCED, safe, log 29). -/
def opcFree (o : BitVec 8) : Bool := o == 0 || opcAssigned o

/-- A frame that is no REQ holds no reserved value in the fields its type gives it (R125, R128, R130, R131, R141): LEN counts
its payload, COMB is 0, and STATUS is one its type may carry. -/
def otherFrameOk (f : Frame) : Bool :=
  !f.comb && f.payload.length == f.len.toNat &&
  (match f.type.toNat with
   | 1 => rspStatusOk f.status && opcKnown f.opc
   | 2 => opcFree f.opc && f.status == 0 && f.payload.isEmpty && f.atop == 0
   | 3 => opcFree f.opc && nakReasonOk f.status && f.payload.isEmpty && f.atop == 0
   | 4 => opcFree f.opc && f.status == 0 && sessionOk f.payload && f.atop == 0
   | 5 => opcFree f.opc && (Status.ofCode f.status.toNat).isSome && sessionOk f.payload && f.atop == 0
   | 6 => opcFree f.opc && f.status == 0 && f.payload.isEmpty && f.atop == 0
   | _ => true)

/-- A request frame tells where requests begin: at its own PSN, and after it; what lies behind e is forgotten. -/
def noteStarts (f : Frame) (r : RecvCtx) : RecvCtx :=
  let new := (if f.first then [f.psn] else []) ++ (if f.last then [f.psn + 1] else [])
  let far := fun (p : BitVec 32) => decide (0 ≤ psnDiff p r.e)
  if f.opc == 0 then r
  else { r with starts := (new ++ r.starts.filter (fun p => !new.contains p)).filter far
                refused := r.refused.filter (fun g => far g.psn) }

/-- A NAK that ends a frame's request: the request's other frames are discarded when they arrive (R131). -/
def refuse (f : Frame) (reason : Status) (s : State) : State :=
  submit (nakFrame s f reason)
    (modRecv (fwdSid f) f.psn (fun r =>
      let r := noteStarts f r
      if f.first && f.last then r else { r with refused := { f with payload := [] } :: r.refused }) s)

/-- A frame with a reserved value is discarded and counted, and a NAK with reason FORMAT goes back, which ends the request of a
REQ frame (R5, R128, R131). DEDUCED, safe (log 90): so is an RSP whose STATUS no home gives, since R123 lets no request end
for it. -/
def discard (f : Frame) (s : State) : State :=
  let s := { s with trn := { s.trn with formatCnt := s.trn.formatCnt + 1 } }
  if f.type == tReq then refuse f .malformed s else submit (nakFrame s f .malformed) s

/-- A frame of TYPE `ty` reaches its endpoint on this device: HCRC, then CRC-64, then the header's fields (R126 to
R128); a frame that passes goes on with `k`. The row REQ takes the frames of reserved TYPEs as well. -/
def onFrame (ty : BitVec 4) (f : Frame) (k : State → State) (s : State) : State :=
  if !(f.type == ty || (ty == tReq && decide (8 ≤ f.type.toNat))) || !isLocalEp s f.dst.toNat then s
  else if !f.hcrcOk then bump cntTrnHcrcDropCnt s
  else if !f.crcOk then
    if f.type == tReq then submit (nakFrame s f .dataError) (bump cntTrnCrcNakCnt s) else s
  else if !frameFieldsOk f || (ty != tReq && !otherFrameOk f) then discard f s
  else k s

/-- The operand length of an atomic frame (R44). -/
def atomLen (a : BitVec 8) : Nat := if a.toNat / 16 = 2 then 2 * atopSize a.toNat else atopSize a.toNat

/-- A REQ frame holds no reserved value (R59, R125, R128, R138). -/
def reqFrameOk (f : Frame) : Bool :=
  let n := f.len.toNat
  (f.opc == 0 || decide (0x40 ≤ f.opc.toNat ∧ f.opc.toNat ≤ 0x44) || spaceFits f.dst.toNat f.space) &&
  (f.opc == 0 || opcKnown f.opc) && f.status == 0 && (!f.comb || f.opc == 1) &&
  (if f.opc == 1 then f.payload.isEmpty && decide (1 ≤ n) else f.payload.length == n) &&
  (if f.opc == 4 || f.opc == 0x52 then atomLen f.atop != 0 && n == atomLen f.atop
   else if decide (0x40 ≤ f.opc.toNat ∧ f.opc.toNat ≤ 0x44) then collReqOk f
   else f.atop == 0) &&
  (if f.opc == 0 then n == 0
   else if f.opc == 5 || f.opc == 0x53 then n == 8
   else if f.opc == 2 || f.opc == 3 || f.opc == 0x50 || f.opc == 0x51 then decide (1 ≤ n) else true)

/-- A collective frame that the receive context lets through has its effect on arrival (R187 to R193); a reduction frame that
names no open context is answered with NO_CONTEXT (R23). -/
def applyColl (found : SlotReads) (f : Frame) (s : State) : State :=
  let t := now s
  let s := modRecv (fwdSid f) f.psn (fun r => { r with lastTick := t }) s
  if f.red && !namesCtx s f then answer f .noContext [] s
  else collFrameAt f found (ackable (fwdSid f) f.psn f.ce s)

/-- Two frames may be of one request: the PSN apart, the same operation, and a share of the same bytes as far apart as their
PSNs (R129); the frames of a collective chunk carry the same bytes 16 to 27 (R202). -/
def mayShare (a b : Frame) : Bool :=
  a.opc == b.opc && a.tenant == b.tenant &&
  (if decide (0x40 ≤ a.opc.toNat ∧ a.opc.toNat ≤ 0x44) then a.mid == b.mid
   else a.space == b.space && a.keyidx == b.keyidx && a.keytag == b.keytag &&
     (a.offset / 512 : Int) - (b.offset / 512 : Int) == psnDiff a.psn b.psn)

/-- The frame belongs to a request that a NAK has ended here: no request is known to begin between it and the refused frame
(R131). DEDUCED, unsafe (log 114): frames that are lost between them leave the spec's bound unknown to the target, and a frame
is then discarded as long as it can be of that request. -/
def ofRefused (r : RecvCtx) (f : Frame) : Bool :=
  f.opc != 0 && r.refused.any (fun g => mayShare f g &&
    (let up := decide (0 ≤ psnDiff f.psn g.psn)
     let lo := if up then g.psn else f.psn
     let hi := if up then f.psn else g.psn
     !r.starts.any (fun p => decide (0 < psnDiff p lo ∧ psnDiff p hi ≤ 0))))

/-- A frame that stays held for reordering lies in cells; what reading them will find is known of it (R137, R262). -/
def noteCells (cells : Ecc) (f : Frame) (s : State) : State :=
  if cells == .uncorrectable && s.trn.recv.any (fun r => r.sid == fwdSid f && r.held.any (fun g => g.psn == f.psn)) then
    modRecv (fwdSid f) f.psn (fun r => { r with bad := f.psn :: r.bad }) s
  else s

/-- A REQ frame at its target (R128, R131, R137, R141, R145). -/
def reqArrives (found : SlotReads) (f : Frame) (s : State) : State :=
  onFrame tReq f (fun s =>
    let coll := decide (0x40 ≤ f.opc.toNat ∧ f.opc.toNat ≤ 0x44)
    if !reqFrameOk f then refuse f .malformed { s with trn := { s.trn with formatCnt := s.trn.formatCnt + 1 } }
    else if quarantined s f.dst.toNat then submit (nakFrame s f .targetLost) s
    else if epFenced s f.dst.toNat then submit (nakFrame s f .fenced) s
    else match recvOf s (fwdSid f) f.psn with
      | none => submit (closeBack s (fwdSid f) f.psn) s
      | some r =>
        let s := modRecv (fwdSid f) f.psn (noteStarts f) s
        if ofRefused (noteStarts f r) f then s
        else if coll && !collFeatOk s f r.feat then refuse f .version s
        else if coll then windowed (applyColl found f) f s
        else homeArrive f s) s

/-- As `reqArrives`, for a frame that may be held in cells (R262). -/
def reqHeld (x : FrameRead) (s : State) : State := noteCells x.found x.frame (reqArrives .clean x.frame s)

/-- As `reqArrives`, for a row of one operation. -/
def opArrives (opc : BitVec 8) (found : SlotReads) (f : Frame) (s : State) : State :=
  if f.opc == opc then reqArrives found f s else s

/-- As `reqHeld`, for a row of one operation. -/
def opHeld (opc : BitVec 8) (x : FrameRead) (s : State) : State := if x.frame.opc == opc then reqHeld x s else s

/-- An ACK: at the source of its stream the acknowledgement of frames, at its target that of answers (R130). -/
def ackArrives (f : Frame) (s : State) : State :=
  onFrame tAck f (fun s =>
    match s.trn.send.find? (fun c => c.sid == revSid f && (c.state == .opened || c.state == .closing) && !c.starved &&
        inSession c.ipsn (f.psn + 1)) with
    | some c => ackAt f c s
    | none => reverseAckAt f.psn (fwdSid f) s) s

/-- An RSP at the source of its stream (R130). -/
def rspArrives (f : Frame) (s : State) : State :=
  onFrame tRsp f (fun s =>
    match sendHolding s (revSid f) f.psn with
    | some c => rspAt f c s
    | none => s) s

/-- A NAK at the source of its stream: its reason decides (R131); where the destination is lost or fenced the session
goes without handshake (R139). A CRC reason whose copy is found uncorrectable ends the request with DATA_ERROR (R121). -/
def nakArrives (f : Frame) (copy : Ecc) (s : State) : State :=
  onFrame tNak f (fun s =>
    match sendHolding s (revSid f) f.psn with
    | none => s
    | some c =>
      match c.unacked.find? (fun x => x.psn == f.psn) with
      | none => s
      | some x =>
        match f.status.toNat with
        | 0x05 => if copy == .uncorrectable then endReq x.req .dataError s else attempt x.req (some f.psn) s
        | 0x0B => endReq x.req .malformed s
        | 0x0D => freeSend c.num .fenced s
        | 0x03 => freeSend c.num .targetLost s
        | 0x0F => endReq x.req .version s
        | _ => s) s

/-- A CLOSE, at either end of its stream (R139). -/
def closeArrives (f : Frame) (s : State) : State :=
  onFrame tClose f (fun s => releaseStream (fwdSid f) (closeAt f s)) s

/-! ### At the ingress of a port -/

/-- A frame of an encrypted link fails to authenticate: it is counted, and the sixteenth failure within 1 ms makes
the port retrain (R304). -/
def authFailed (p : Nat) (s : State) : State :=
  let s := bump (cntPrtEncAuthCnt p) s
  let fails := ((portSt s p).authFails.filter (fun t => decide (now s < t + tickMs))) ++ [now s]
  if 16 ≤ fails.length then toDetect p false (modPort p (fun x => { x with authFails := [] }) s)
  else modPort p (fun x => { x with authFails := fails }) s

/-- A candidate frame regains delineation: HCRC passes, and VER and TYPE are valid (R286, R128). -/
def regains (f : Frame) : Bool := f.hcrcOk && (f.ver == 1 || f.ver == 2) && decide (f.type.toNat ≤ 7)

/-- The frame joins its egress, or starts there at once where it may (R266); without room it is lost (R265). -/
def forwardTo (p e : Nat) (f : Frame) (s : State) : State :=
  match join e f s with
  | none =>
    raiseSwc evSwcFullDrop p (bump cntSwcFullDropCnt (bump (cntSwcPortDropCnt p) s))
  | some t => cutThrough (rateOf s p) e f s t

/-- A reduction frame for this node's endpoint is diverted at the cluster's tap (R23). -/
def diverted (s : State) (f : Frame) : Bool := f.red && f.dst.toNat == memEp s

/-- A frame that passed the header checks is forwarded: towards an endpoint of this node as it is, to another node
with TTL one lower (R135). A reduction frame for this node's endpoint leaves the switching core at the cluster's
tap (R23). -/
def forward (p : Nat) (f : Frame) (cells : Ecc) (s : State) : State :=
  let here := epNode s f.dst.toNat == some (nodeId s)
  if !here && decide (f.ttl.toNat ≤ 1) then bump cntTrnLifeDropCnt s
  else
    let f := if here then f else ({ f with ttl := f.ttl - 1 } : Frame).reseal
    if diverted s f then emit (.frame 88 f) s
    else match egressFor s f with
      | none => s
      | some e =>
        -- a frame that enters a scheduled lane lies in no cells (R262, R263)
        if cells == .uncorrectable && !toLane s e f then raiseSwc evSwcEccDrop p (bump cntSwcEccDropCnt s)
        else forwardTo p e f s

/-- A frame of an encrypted link is accepted: it authenticates, and its counter is above the last one accepted in its epoch,
which is the present one or, for 1 ms after a switch, the one before (R304, R305). -/
def encOk (x : PortSt) (line : LineIn) : Bool :=
  let n := line.counter.toNat % 2 ^ 63
  let above := fun (last : Option Nat) => match last with | some k => decide (k < n) | none => true
  line.auth && (if line.counter.getLsbD 63 == x.epochRx then above x.ctrRx else x.oldKey && above x.ctrOld)

/-- The counter of an accepted frame is the last one of its epoch. -/
def encTake (line : LineIn) (x : PortSt) : PortSt :=
  let n := some (line.counter.toNat % 2 ^ 63)
  if !x.enc then x else if line.counter.getLsbD 63 == x.epochRx then { x with ctrRx := n } else { x with ctrOld := n }

/-- A frame arrives at the ingress of a port (R126, R304, R437); while delineation is lost only a frame that regains it, or that
an IDLE came before, is seen (R286). A frame with an errored block beyond its header goes on with its trailer inverted (R285). -/
def ingress (p : Nat) (f : Frame) (line : LineIn) (cells : Ecc) (s : State) : State :=
  let x := portSt s p
  if x.state != .up || !isFabricPort s p then s
  else if !x.late && !x.delin && !line.idle && !regains f then s
  else
    let s := if x.late then modPort p (fun x => { x with late := false }) s else regain p s
    let f := if x.late then invertTrailer f else f
    if !f.hcrcOk then bump cntTrnHcrcDropCnt s
    else if x.enc && !encOk x line then authFailed p s
    else
      let s := whenS (!diverted s f) (mirrorAt p false f) (modPort p (encTake line) s)
      if f.type != tCtl && !s.ten.shared && (swcSlot s f.tenant.toNat).isNone then
        raiseSwc evSwcNoslotDrop p (bump cntSwcNoslotDropCnt s)
      else forward p f cells s

/-- The head frame of an egress queue has waited too long (R135): 0 to 31 unscheduled, 32 control, 33 the lane,
34 a multicast copy for the egress, 35 a frame its originator holds. -/
def residencyOver (e q : Nat) (s : State) : State :=
  let x := egOf s e
  if q = 32 then
    if x.control.isEmpty then s else bump cntTrnLifeDropCnt (setEg e { x with control := x.control.drop 1 } s)
  else if q = 33 then
    if x.lane.isEmpty then s else bump cntTrnLifeDropCnt (setEg e { x with lane := x.lane.drop 1 } s)
  else if q = 34 then
    match s.sw.residue.findSome? (fun x => (x.2.find? (fun y => y.1 == e)).map (·.2)) with
    | some f => bump cntTrnLifeDropCnt { s with sw := { s.sw with residue := dropCopy e f s.sw.residue } }
    | none => s
  else if q = 35 then
    match s.sw.parked.find? (fun y => y.1 == e) with
    | some y => bump cntTrnLifeDropCnt (cxlLost y.2 { s with sw := { s.sw with parked := s.sw.parked.erase y } })
    | none => s
  else
    match tget [] x.queues q with
    | [] => s
    | f :: fs => bump cntTrnLifeDropCnt (cxlLost f (setEg e { x with queues := tput [] x.queues q fs } s))

end Sys2Proof.Machine
end

