-- ==== Sys2Proof/Machine/RowsColl.lean ====
section
/-!
DEFINITION. The meanings of the collective and reduction rows (R176 to R233).
-/

namespace Sys2Proof.Machine
open Sys2Proof

/-- COLL_CHUNK (R214). -/
def execCollChunk (f : Frame) (found : SlotReads) (s : State) : Host.Outcome State Fault Refusal :=
  run { xlat := true, data := true } s (opArrives 0x40 found f)

/-- COLL_RESULT (R193). -/
def execCollResult (f : Frame) (s : State) : Host.Outcome State Fault Refusal :=
  run { xlat := true, data := true } s (opArrives 0x41 .clean f)

/-- COLL_CREDIT (R191). -/
def execCollCredit (x : CreditRead) (s : State) : Host.Outcome State Fault Refusal :=
  run { xlat := true, data := true } s (opArrives 0x42 ⟨Ecc.clean, x.next⟩ x.frame)

/-- COLL_DESC (R187). -/
def execCollDesc (f : Frame) (s : State) : Host.Outcome State Fault Refusal :=
  run { xlat := true, data := true } s (opArrives 0x43 .clean f)

/-- COLL_DONE (R187). -/
def execCollDone (f : Frame) (s : State) : Host.Outcome State Fault Refusal :=
  run { xlat := true, data := true } s (opArrives 0x44 .clean f)

/-- A Repex Control message of one operation reaches this device; one whose fields are not its kind's is discarded, and so is a
CTL frame of an OPC that names no such message, whatever row brings it (R125, R128, R169, R202). -/
def ctlArrives (opc : BitVec 8) (f : Frame) (k : State → State) (s : State) : State :=
  let known := decide (0x45 ≤ f.opc.toNat ∧ f.opc.toNat ≤ 0x48) || f.opc == 0x70
  if f.opc == opc then onFrame tCtl f (fun s => if collCtlOk f then k s else discard f s) s
  else if known then s else onFrame tCtl f (discard f) s

/-- TREE_OPEN_CTL (R189). -/
def execTreeOpenCtl (f : Frame) (members : List (BitVec 16)) (s : State) : Host.Outcome State Fault Refusal :=
  run { data := true } s (ctlArrives 0x45 f (treeOpenCtlAt f members))

/-- TREE_REPLY (R189). -/
def execTreeReply (f : Frame) (s : State) : Host.Outcome State Fault Refusal :=
  run { data := true } s (ctlArrives 0x46 f (treeReplyAt f))

/-- TREE_RELEASE (R187). -/
def execTreeRelease (f : Frame) (s : State) : Host.Outcome State Fault Refusal :=
  run { data := true } s (ctlArrives 0x47 f (treeReleaseAt f))

/-- A COLL_ABORT: over an F-port it is a frame to this device; on the chain a device without a context of the handle
passes it on (R151, R199). Only SLIP notices go back along the chain (R170). -/
def abortArrives (via : Via) (f : Frame) (s : State) : State :=
  match via with
  | .fport => ctlArrives 0x48 f (collAbortAt f) s
  | .chain =>
    if f.opc != 0x48 || !collCtlOk f then s
    else if (ctxsOf s f.tenant f.handle).isEmpty then emit (.chainAbort f) s
    else collAbortAt f s
  | .back => s

/-- COLL_ABORT (R199). -/
def execCollAbort (via : Via) (f : Frame) (s : State) : Host.Outcome State Fault Refusal :=
  run { data := true } s (abortArrives via f)

/-- TREE_OPEN_TIMEOUT (R189). -/
def execTreeOpenTimeout (tenant : BitVec 12) (handle : BitVec 32) (s : State) : Host.Outcome State Fault Refusal :=
  run { data := true } s (treeOpenExpire tenant handle.toNat)

/-- CONTEXT_CLEAR (R187). -/
def execContextClear (ctx : Fin 4096) (s : State) : Host.Outcome State Fault Refusal :=
  run { data := true } s (clearCtx ctx)

/-- COLL_IDLE_ABORT (R198). -/
def execCollIdleAbort (ctx : Fin 4096) (s : State) : Host.Outcome State Fault Refusal :=
  run { data := true } s (idleAbort ctx)

/-- CHUNK_EVALUATE (R213). -/
def execChunkEvaluate (ctx : Fin 4096) (chunk : BitVec 32) (found : EvalReads) (s : State) : Host.Outcome State Fault Refusal :=
  run { data := true } s (evaluate ctx chunk.toNat found)

/-- LANDING_RESERVE (R206). -/
def execLandingReserve (group : Fin 32) (s : State) : Host.Outcome State Fault Refusal :=
  run { data := true } s (landingTurn group)

/-- RDA_PROG_LOAD (R226). -/
def execRdaProgLoad (c : Chan) (dma : Bytes) (s : State) : Host.Outcome State Fault Refusal :=
  run { data := true } s (mbxRun c 0x32 dma (progLoad c))

/-- RDA_PROG_UNLOAD (R226). -/
def execRdaProgUnload (c : Chan) (dma : Bytes) (s : State) : Host.Outcome State Fault Refusal :=
  run { data := true } s (mbxRun c 0x33 dma (progUnload c))

/-- CELLAR_PATROL (R232). -/
def execCellarPatrol (bank : Fin 64) (ecc : Ecc) (s : State) : Host.Outcome State Fault Refusal :=
  run { data := true } s (celPatrol bank ecc)

end Sys2Proof.Machine
end

