-- ==== Sys2Proof/Machine/RowsHost.lean ====
section
/-!
DEFINITION. The meanings of the rows of start-up and plane discovery (R376 to R385), health (R396 to R398) and the host
interface (R400 to R420).
-/

namespace Sys2Proof.Machine
open Sys2Proof

/-! ### Start-up and plane discovery -/

/-- MEMORY_TRAINED (R376). -/
def execMemoryTrained (t : Tier) (failed : BitVec 128) (s : State) : Host.Outcome State Fault Refusal :=
  run { ten := true, fab := true, data := true } s (memoryTrainedAt t failed)

/-- RACK_ANNOUNCE (R379). -/
def execRackAnnounce (a : Announce) (direct : Bool) (s : State) : Host.Outcome State Fault Refusal :=
  run { time := true, ports := true, fab := true, data := true } s (announceAt a direct)

/-- RACK_ANNOUNCE_SEND (R379). -/
def execRackAnnounceSend (s : State) : Host.Outcome State Fault Refusal := run {} s announceOwn

/-- LINK_STATE_ADVERT (R380). -/
def execLinkStateAdvert (p : Port) (a : Advert) (s : State) : Host.Outcome State Fault Refusal :=
  run { ports := true, fab := true, data := true } s (advertAt p a)

/-- ADVERT_ORIGINATE (R380). -/
def execAdvertOriginate (s : State) : Host.Outcome State Fault Refusal := run { fab := true } s originate

/-- ADVERT_EXPIRE (R380). -/
def execAdvertExpire (node : BitVec 11) (s : State) : Host.Outcome State Fault Refusal :=
  run { fab := true } s (advertExpireAt node)

/-- PLANE_SETTLED (R381). -/
def execPlaneSettled (s : State) : Host.Outcome State Fault Refusal := run { fab := true } s settledAt

/-- ROUTE_RECOMPUTE (R382). -/
def execRouteRecompute (s : State) : Host.Outcome State Fault Refusal := run { fab := true } s recomputeAt

/-- FAB_JOIN (R384). -/
def execFabJoin (c : Chan) (dma : Bytes) (s : State) : Host.Outcome State Fault Refusal :=
  run { fab := true, data := true } s (mbxRun c 0x25 dma (fun _ => fabJoinAt c))

/-- EP_QUARANTINE (R416). -/
def execEpQuarantine (c : Chan) (dma : Bytes) (s : State) : Host.Outcome State Fault Refusal :=
  run { xlat := true, data := true } s (mbxRun c 0x23 dma (epQuarAt true c))

/-- EP_UNQUARANTINE (R416). -/
def execEpUnquarantine (c : Chan) (dma : Bytes) (s : State) : Host.Outcome State Fault Refusal :=
  run { xlat := true, data := true } s (mbxRun c 0x24 dma (epQuarAt false c))

/-! ### Health -/

/-- HEALTH_SCORE_UPDATE (R396). -/
def execHealthScoreUpdate (t : Tick) (s : State) : Host.Outcome State Fault Refusal :=
  runAt { time := true } t s healthUpdate

/-- HEALTH_EXPORT (R398). -/
def execHealthExport (s : State) : Host.Outcome State Fault Refusal := run {} s healthExportAt

/-! ### Register accesses and commits -/

/-- REGISTER_WRITE (R409). -/
def execRegisterWrite (off : BitVec 26) (size : Nat) (v : BitVec 32) (s : State) : Host.Outcome State Fault Refusal :=
  run { ports := true, fab := true, data := true } s (hostWrite off.toNat size v.toNat)

/-- ARM (R411): GLB_CMT_CTRL.ARM = 1 with SLOT as it stands. -/
def execArm (s : State) : Host.Outcome State Fault Refusal :=
  run { ports := true, fab := true, data := true } s (fun s => hostWrite 0x68 4 (8 * fieldOf s 0x68 3 3 + 1) s)

/-- DISCARD (R411): GLB_CMT_CTRL.DISCARD = 1 with SLOT as it stands. -/
def execDiscard (s : State) : Host.Outcome State Fault Refusal :=
  run { ports := true, fab := true, data := true } s (fun s => hostWrite 0x68 4 (8 * fieldOf s 0x68 3 3 + 2) s)

/-- CANCEL (R412): GLB_CMT_CTRL.CANCEL = 1 with this SLOT. -/
def execCancel (slot : Fin 8) (s : State) : Host.Outcome State Fault Refusal :=
  run { ports := true, fab := true, data := true } s (hostWrite 0x68 4 (8 * slot.val + 4))

/-- COMMIT_FIRE (R412). -/
def execCommitFire (slot : Fin 8) (t : Tick) (s : State) : Host.Outcome State Fault Refusal :=
  runAt { time := true, data := true } t s (commitFireAt slot)

/-- LATCHED_READ (R407). -/
def execLatchedRead (off : BitVec 26) (s : State) : Host.Outcome State Fault Refusal :=
  run { data := true } s (hostRead off.toNat 4)

/-- RC_READ (R3). -/
def execRcRead (off : BitVec 26) (size : Nat) (s : State) : Host.Outcome State Fault Refusal :=
  run { data := true } s (hostRead off.toNat size)

/-- IRQ_HOLDOFF_EXPIRE (R420). -/
def execIrqHoldoffExpire (v : Fin 32) (s : State) : Host.Outcome State Fault Refusal := run {} s (holdoffOver v)

/-- MSIX_UNMASK (R420). -/
def execMsixUnmask (v : Fin 32) (s : State) : Host.Outcome State Fault Refusal := run {} s (unmaskVec v)

/-! ### The CXL link and its functions -/

/-- CXL_LINK_DOWN (R24). -/
def execCxlLinkDown (s : State) : Host.Outcome State Fault Refusal := run { data := true } s cxlDown

/-- CXL_LINK_UP (R402). -/
def execCxlLinkUp (width : BitVec 4) (speed : BitVec 2) (busMaster : Bool) (s : State) :
    Host.Outcome State Fault Refusal := run { chip := true } s (cxlUpAt width speed busMaster)

/-- IDENTIFY_MEMORY_DEVICE (R400). -/
def execIdentifyMemoryDevice (s : State) : Host.Outcome State Fault Refusal := run {} s (mdAnswer mdOk mdIdentify)

/-- GET_SUPPORTED_LOGS (R400). -/
def execGetSupportedLogs (s : State) : Host.Outcome State Fault Refusal := run {} s (mdAnswer mdOk mdLogs)

/-- GET_LOG (R400). -/
def execGetLog (off len : BitVec 32) (s : State) : Host.Outcome State Fault Refusal :=
  run {} s (mdGetLog off.toNat len.toNat)

/-- GET_PARTITION_INFO (R400). -/
def execGetPartitionInfo (s : State) : Host.Outcome State Fault Refusal := run {} s (mdAnswer mdOk mdPartition)

/-- GET_EVENT_RECORDS (R400). -/
def execGetEventRecords (log : BitVec 8) (s : State) : Host.Outcome State Fault Refusal := run {} s (mdEvents log.toNat)

/-- CLEAR_EVENT_RECORDS (R400). -/
def execClearEventRecords (log : BitVec 8) (s : State) : Host.Outcome State Fault Refusal :=
  run {} s (mdClear log.toNat)

/-- DOE_REQUEST (R400). -/
def execDoeRequest (k : DoeKind) (s : State) : Host.Outcome State Fault Refusal := run {} s (doeAt k)

end Sys2Proof.Machine
end

