-- ==== Sys2Proof/Machine/RowsLinks.lean ====
section
/-!
DEFINITION. The meanings of the link rows (R279 to R308): the port's states, lanes, link groups, retimers, lasers and
link encryption.
-/

namespace Sys2Proof.Machine
open Sys2Proof

/-- A write of PRT_CTRL.EN: the register's word with the bit as given (R292, R409). -/
def prtEnWord (s : State) (p : Port) (on : Bool) : Nat := (putBits (regRead s (prtBase p)) 0 1 (b2n on)).toNat

/-- PRT_EN_SET (R292). -/
def execPrtEnSet (p : Port) (s : State) : Host.Outcome State Fault Refusal :=
  run { ports := true, fab := true, data := true } s (fun s => hostWrite (prtBase p) 4 (prtEnWord s p true) s)

/-- PRT_EN_CLEAR (R292). -/
def execPrtEnClear (p : Port) (s : State) : Host.Outcome State Fault Refusal :=
  run { ports := true, fab := true, data := true } s (fun s => hostWrite (prtBase p) 4 (prtEnWord s p false) s)

/-- SIGNAL_DETECT (R292). -/
def execSignalDetect (p : Port) (lanes : BitVec 9) (s : State) : Host.Outcome State Fault Refusal :=
  run { ports := true } s (signalAt p lanes)

/-- LANE_LOCK (R287). -/
def execLaneLock (p : Port) (lane : Fin 9) (s : State) : Host.Outcome State Fault Refusal :=
  run { ports := true } s (lockAt p lane)

/-- LANE_LOCK_LOST (R297). -/
def execLaneLockLost (p : Port) (lane : Fin 9) (s : State) : Host.Outcome State Fault Refusal :=
  run { ports := true, fab := true, data := true } s (lockLostOn p lane)

/-- EQUALISE_DONE (R292). -/
def execEqualiseDone (p : Port) (s : State) : Host.Outcome State Fault Refusal :=
  run { ports := true } s (equaliseDone p)

/-- ALIGN_DONE (R292). -/
def execAlignDone (p : Port) (lanes : BitVec 9) (s : State) : Host.Outcome State Fault Refusal :=
  run { ports := true } s (alignDone p lanes)

/-- UNCORRECTABLE_CODEWORD (R285). -/
def execUncorrectableCodeword (p : Port) (lane : Fin 9) (at_ : ErroredAt) (s : State) :
    Host.Outcome State Fault Refusal := run { ports := true, data := true } s (codewordAt p lane at_)

/-- STATUS (R290). -/
def execStatus (p : Port) (_peerState : BitVec 8) (ready : Bool) (s : State) : Host.Outcome State Fault Refusal :=
  run { time := true, ports := true, data := true } s (fun s => statusAt p ready (regain p s))

/-- CAPS (R293). -/
def execCaps (p : Port) (cp : Caps) (s : State) : Host.Outcome State Fault Refusal :=
  run { time := true, ports := true, fab := true, data := true } s (fun s => capsAt p cp (regain p s))

/-- COEFF (R294). -/
def execCoeff (p : Port) (cf : Coeff) (s : State) : Host.Outcome State Fault Refusal :=
  run { ports := true } s (fun s => coeffAt p cf (regain p s))

/-- WIDTH (R296). -/
def execWidth (p : Port) (w : WidthMsg) (s : State) : Host.Outcome State Fault Refusal :=
  run { ports := true, data := true } s (fun s => widthAt p w (regain p s))

/-- DOWN (R299). -/
def execDown (p : Port) (reason : BitVec 8) (s : State) : Host.Outcome State Fault Refusal :=
  run { ports := true, fab := true, data := true } s (fun s => downAt p reason.toNat (regain p s))

/-- LINK_GROUP_SEND (R290). -/
def execLinkGroupSend (p : Port) (s : State) : Host.Outcome State Fault Refusal := run {} s (linkGroups p)

/-- PORT_STATE_TIMEOUT (R292). -/
def execPortStateTimeout (p : Port) (b : PortBound) (s : State) : Host.Outcome State Fault Refusal :=
  run { ports := true, fab := true, data := true } s (portBound_ p b)

/-- PORT_RETRY_TIMEOUT (R293). -/
def execPortRetryTimeout (p : Port) (s : State) : Host.Outcome State Fault Refusal :=
  run { ports := true } s (portRetry p)

/-- PORT_GIVE_UP_TIMEOUT (R381). -/
def execPortGiveUpTimeout (p : Port) (s : State) : Host.Outcome State Fault Refusal :=
  run { ports := true } s (portGiveUp p)

/-- LANE_UE_THRESHOLD (R296). -/
def execLaneUeThreshold (p : Port) (lane : Fin 9) (s : State) : Host.Outcome State Fault Refusal :=
  run { ports := true } s (laneUe p lane)

/-- WIDTH_SWITCH (R296). -/
def execWidthSwitch (p : Port) (s : State) : Host.Outcome State Fault Refusal :=
  run { ports := true, data := true } s (widthSwitch p)

/-- LANE_RETRAIN_DONE (R296). -/
def execLaneRetrainDone (p : Port) (lanes : BitVec 9) (s : State) : Host.Outcome State Fault Refusal :=
  run { ports := true } s (retrainDone p lanes)

/-- RETIMER_POLL (R300). -/
def execRetimerPoll (p : APort) (present lock : Bool) (temp : BitVec 8) (s : State) : Host.Outcome State Fault Refusal :=
  run { ports := true } s (retimerPoll p present lock temp)

/-- RETIMER_RESET (R300). -/
def execRetimerReset (p : APort) (s : State) : Host.Outcome State Fault Refusal := run {} s (retimerRst p)

/-- LASER_SAFETY_SHUTOFF (R302). -/
def execLaserSafetyShutoff (p : Port) (s : State) : Host.Outcome State Fault Refusal :=
  run { ports := true, fab := true, data := true } s (lightLost p)

/-- LASER_PROBE (R302). -/
def execLaserProbe (p : Port) (s : State) : Host.Outcome State Fault Refusal := run {} s (laserProbe p)

/-- LIGHT_RETURN (R302). -/
def execLightReturn (p : Port) (s : State) : Host.Outcome State Fault Refusal := run { ports := true } s (lightBack p)

/-- LASER_MODULE_FAIL (R301). -/
def execLaserModuleFail (m : Fin 8) (present : Bool) (s : State) : Host.Outcome State Fault Refusal :=
  run { ports := true, lasers := true, fab := true, data := true } s (moduleFail m present)

/-- LASER_MODULE_ENABLE (R301). -/
def execLaserModuleEnable (m : Fin 8) (s : State) : Host.Outcome State Fault Refusal :=
  run { lasers := true } s (moduleEnable m)

/-- KEYING_EXCHANGE (R305). -/
def execKeyingExchange (p : Port) (verified : Bool) (s : State) : Host.Outcome State Fault Refusal :=
  run { time := true, ports := true, fab := true, data := true } s (keyingEnd p verified)

/-- KEYING_TIMEOUT (R305). -/
def execKeyingTimeout (p : Port) (s : State) : Host.Outcome State Fault Refusal :=
  run { time := true, ports := true, fab := true, data := true } s (keyingEnd p false)

/-- REKEY (R305). -/
def execRekey (p : Port) (s : State) : Host.Outcome State Fault Refusal := run { data := true } s (rekeyStart p)

/-- OLD_KEY_EXPIRE (R305). -/
def execOldKeyExpire (p : Port) (s : State) : Host.Outcome State Fault Refusal :=
  run { ports := true } s (modPort p (fun x => { x with oldKey := false }))

end Sys2Proof.Machine
end

