-- ==== Sys2Proof/Machine/RowsMap.lean ====
section
/-!
DEFINITION. The meanings of the translation, region, home, fabric-memory and move rows (R57 to R124, R237 to R261).
-/

namespace Sys2Proof.Machine
open Sys2Proof

/-- The home point's number. -/
def HomePt.num : HomePt → Nat
  | .epb p => p.val
  | .mem => hpMem
  | .host => hpHost

/-! ### Translation and descriptor reads -/

/-- BUCKET_READ_RETURN (R69). -/
def execBucketReadReturn (c : ACluster) (ecc : Ecc) (s : State) : Host.Outcome State Fault Refusal :=
  run { xlat := true, data := true } s (bucketReturn c ecc)

/-- DESCRIPTOR_MISS_RETURN (R74). -/
def execDescriptorMissReturn (h : HomePt) (ecc : Ecc) (s : State) : Host.Outcome State Fault Refusal :=
  run { xlat := true, data := true } s (rgnReturn (HomePt.num h) ecc)

/-! ### Changes of mappings and regions (R76 to R78) -/

/-- The buckets of an XLT_UPDATE: index and contents (R416). -/
def updBuckets (inp : Bytes) : List (Nat × Bytes) :=
  (List.range (beField inp 2 2)).map (fun i => (beField inp (4 + 132 * i) 4, slice inp (8 + 132 * i) 128))

/-- The checks of XLT_UPDATE: its count fits its length, every bucket lies in this device's table, and no valid slot
carries a reserved bit (R5, R65, R76, R416). -/
def updOk (s : State) (inp : Bytes) : Bool :=
  let t := beField inp 0 2
  decide (t < 4096) && inp.length == 4 + 132 * beField inp 2 2 &&
  (match tableCopies s t with
   | [] => false
   | x :: _ => (updBuckets inp).all (fun b => decide (b.1 < 2 ^ x.1) && (bucketSlots b.2).all (fun w => !w.v || w.bitsOk)))

/-- XLT_UPDATE: written here and sent to every other holder, whose confirmations end it (R76, R78). -/
def xltUpdateAt (c : Nat) (inp : Bytes) (s : State) : State :=
  if !updOk s inp then mbxEnd c .malformed [] s
  else
    let t := beField inp 0 2
    let bs := updBuckets inp
    let s := each bs (fun b s => writeBucket t b.1 b.2 s) (flipEpoch s)
    changeDone c (startChange c 0 (tableNodes s) (.mapChange (.buckets (BitVec.ofNat 12 t) bs)) s)

/-- XLT_UPDATE (R76). -/
def execXltUpdate (c : Chan) (dma : Bytes) (s : State) : Host.Outcome State Fault Refusal :=
  run { xlat := true, data := true, mem := true } s (mbxRun c 0x20 dma (xltUpdateAt c))

/-- The nodes of the other devices that hold an endpoint's descriptors: the eight of an accelerator's rack, or the node of
a fabric-memory endpoint (R73). -/
def rgnHolders (s : State) (ep : Nat) : List Nat :=
  if ep < 0x4800 then rackNodes s (ep / 72)
  else if ep - 0x4800 = nodeId s then [] else [ep - 0x4800]

/-- All 64 measured regions are in use, or in isolated tenancy the tenant's share of them, and the command would add one
(R256, R311). -/
def measFull (s : State) (ep i : Nat) (d : Region) : Bool :=
  let others := s.mov.measured.filter (fun m => !(m.keyidx.toNat == i))
  ep == memEp s && d.v && d.meas &&
  (if s.ten.shared then decide (64 ≤ others.length)
   else decide (64 / Nat.max 1 s.ten.slots ≤ (others.filter (fun m => m.tenant.toNat == d.tenant)).length))

/-- The slot of the tenant that holds a unit of the Stacks or the Annex. -/
def unitTenant (s : State) (space k : Nat) : Option Nat :=
  (s.ten.ten.find? (fun x => x.2.state != .free && (if space = 1 then x.2.stk else x.2.anx).getLsbD k)).map (·.2.tenant.toNat)

/-- In isolated tenancy a descriptor names the tenant of the endpoint (R312): of the accelerator's slot in this rack; of every
unit the region touches in this device's Stacks or Annex; any admitted tenant for the host tier. What another device holds it
checks itself, and a descriptor with V = 0 names none (DEDUCED, log 102). -/
def rgnTenantOk (s : State) (ep : Nat) (d : Region) : Bool :=
  if s.ten.shared || !d.v then true
  else if ep < 0x4800 then
    decide (ep / 72 ≠ s.fab.rack.toNat) || (bindOf s (ep % 72)).map (·.toNat) == some d.tenant
  else if ep ≠ memEp s then true
  else if d.space = 3 then (slotOfTenant s d.tenant).isSome
  else
    let unit := if d.space = 1 then 9088 * 2 ^ 20 else 96 * 2 ^ 30
    let first := d.base / unit
    (List.range 17).all (fun k => decide (k < first) || decide (d.base + d.len ≤ k * unit) ||
      unitTenant s d.space k == some d.tenant)

/-- RGN_WRITE (R76, R256, R312). -/
def rgnWriteAt (c : Nat) (inp : Bytes) (s : State) : State :=
  let ep := beField inp 0 2
  let i := beField inp 2 2
  let desc := slice inp 4 32
  if 0x5000 ≤ ep then mbxEnd c .malformed [] s
  else if !rgnTenantOk s ep (parseRegion desc) then mbxEnd c .accessDenied [] s
  else if measFull s ep i (parseRegion desc) then mbxEnd c .busy [] s
  else
    let s := writeRegion ep i desc s
    changeDone c (startChange c 0 (rgnHolders s ep) (.mapChange (.region (BitVec.ofNat 16 ep) (BitVec.ofNat 16 i) desc)) s)

/-- RGN_WRITE (R76). -/
def execRgnWrite (c : Chan) (dma : Bytes) (s : State) : Host.Outcome State Fault Refusal :=
  run { xlat := true, data := true, mem := true } s (mbxRun c 0x21 dma (rgnWriteAt c))

/-- XLT_DRAIN: the wait begins here and on the other devices (R78). -/
def drainAt (c : Nat) (inp : Bytes) (s : State) : State :=
  let t := beField inp 0 2
  if 4096 ≤ t then mbxEnd c .malformed [] s
  else startChange c 1 (tableNodes s) (.mapChange (.drain (BitVec.ofNat 12 t))) s

/-- XLT_DRAIN (R78). -/
def execXltDrain (c : Chan) (dma : Bytes) (s : State) : Host.Outcome State Fault Refusal :=
  run { xlat := true } s (mbxRun c 0x22 dma (drainAt c))

/-- A drain of the channel is under way. -/
def draining (s : State) (c : Nat) : Bool := match changeOf s c with | some x => x.kind == 1 | none => false

/-- Every Oseno that holds the tables has confirmed, and here the tenant's old requests have ended (R78). -/
def drainOver (c : Nat) (s : State) : State :=
  if draining s c && (match changeOf s c with | some x => x.nodes.isEmpty | none => false) &&
      !oldLeft s (beField (chan s c).named 0 2) then mbxEnd c .done [] (dropChange c s) else s

/-- XLT_DRAIN_DONE (R78). -/
def execXltDrainDone (c : Chan) (s : State) : Host.Outcome State Fault Refusal := run { xlat := true } s (drainOver c)

/-- XLT_DRAIN_TIMEOUT (R78). -/
def execXltDrainTimeout (c : Chan) (s : State) : Host.Outcome State Fault Refusal :=
  run { xlat := true } s (fun s => whenS (draining s c) (fun s => mbxEnd c .targetUnreachable [] (dropChange c s)) s)

/-- The number of a waiting change: a channel, or 4 plus a move engine. -/
def ChangeId.num : ChangeId → Nat
  | .chan c => c.val
  | .engine e => 4 + e.val

/-- Another Oseno confirms; the last confirmation ends a mailbox command, but for a drain, which waits for this device's own
requests too (R76, R78). A holder that refuses a descriptor ends the RGN_WRITE with its status (R256, R312; log 102). A home
of a page that refuses it ends its move, or sends it back to its translation (R248, R253). -/
def confirmAt (n node : Nat) (st : Status) (s : State) : State :=
  match changeOf s n with
  | none => s
  | some x =>
    let ok := st == .done
    if !ok && x.kind = 3 then pageRefused (n - 4) st (dropChange n s)
    else if !ok && n < 4 && x.kind = 0 then mbxEnd n st [] (dropChange n s)
    else
      let gone := fun (y : PendChange) => { y with nodes := y.nodes.filter (fun q => !(q == node)) }
      let s := { s with xlat := { s.xlat with changes := modFirst (fun y => y.id == n) gone s.xlat.changes } }
      if n < 4 && x.kind != 1 then changeDone n s else s

/-- MAPPING_CONFIRM (R76). -/
def execMappingConfirm (id : ChangeId) (by_ : Confirm) (s : State) : Host.Outcome State Fault Refusal :=
  run { xlat := true, data := true, mem := true } s (confirmAt (ChangeId.num id) by_.node.toNat by_.status)

/-- An Oseno has not confirmed in time: a mailbox command ends with TARGET_UNREACHABLE, a RELOCATE is undone
(R76, R252). -/
def confirmLate (id : ChangeId) (s : State) : State :=
  match id with
  | .engine e => undoPage e s
  | .chan c =>
    match changeOf s c with
    | some x => if x.nodes.isEmpty || x.kind = 1 then s else mbxEnd c .targetUnreachable [] (dropChange c s)
    | none => s

/-- MAPPING_CONFIRM_TIMEOUT (R76). -/
def execMappingConfirmTimeout (id : ChangeId) (s : State) : Host.Outcome State Fault Refusal :=
  run { xlat := true, data := true, mem := true } s (confirmLate id)

/-- A change arrives from another Oseno: it is written into this device's copies, the cached entries go, and it is
confirmed to its sender (R76); a step of a page's move is taken at a home here (R250); or a drain begins, which is confirmed
once the tenant's old requests have ended here (R78). -/
def changeArrives (node : BitVec 11) (ch : MapChange) (s : State) : State :=
  match ch with
  | .buckets t bs => confirmTo node .done (each bs (fun b s => writeBucket t.toNat b.1 (slice b.2 0 128) s) (flipEpoch s))
  | .region ep i d =>
    if !rgnTenantOk s ep.toNat (parseRegion (slice d 0 32)) then confirmTo node .accessDenied s
    else if measFull s ep.toNat i.toNat (parseRegion (slice d 0 32)) then confirmTo node .busy s
    else confirmTo node .done (writeRegion ep.toNat i.toNat (slice d 0 32) s)
  | .page st old new size => pageStepAt node st old new size s
  | .drain t => drainsSettle { s with mov := { s.mov with drains := s.mov.drains ++ [(node, t)] } }

/-- MAPPING_CHANGE (R76). -/
def execMappingChange (node : BitVec 11) (ch : MapChange) (s : State) : Host.Outcome State Fault Refusal :=
  run { xlat := true, data := true, mem := true } s (changeArrives node ch)

/-! ### Home points -/

/-- SERIALISER_ISSUE (R111). -/
def execSerialiserIssue (h : HomePt) (line : BitVec 48) (s : State) : Host.Outcome State Fault Refusal :=
  run { data := true } s (lineTurn (HomePt.num h) line.toNat)

/-- COMBINING_ENTRY_ISSUE (R113). -/
def execCombiningEntryIssue (k : Nat) (s : State) : Host.Outcome State Fault Refusal :=
  run { data := true } s (entryTurn k)

/-- HOME_ACCESS_DONE (R85). -/
def execHomeAccessDone (line : BitVec 48) (ecc : Ecc) (keyFault : Bool) (s : State) : Host.Outcome State Fault Refusal :=
  run { data := true, mem := true } s (memDone line.toNat ecc keyFault)

/-- HOST_DMA_COMPLETION (R404). -/
def execHostDmaCompletion (o : DmaOutcome) (s : State) : Host.Outcome State Fault Refusal :=
  run { data := true } s (hostComplete o)

/-- MEM_WIN_SET (R257). -/
def execMemWinSet (c : Chan) (dma : Bytes) (s : State) : Host.Outcome State Fault Refusal :=
  run {} s (mbxRun c 0x43 dma (memWinSetAt c))

/-- CXL_MEM_READ (R101). -/
def execCxlMemRead (dpa64 : BitVec 35) (ecc : Ecc) (s : State) : Host.Outcome State Fault Refusal :=
  run { data := true } s (cxlAccess dpa64.toNat false [] ecc)

/-- CXL_MEM_WRITE (R101). -/
def execCxlMemWrite (dpa64 : BitVec 35) (data : Bytes) (ecc : Ecc) (s : State) : Host.Outcome State Fault Refusal :=
  run { data := true } s (cxlAccess dpa64.toNat true data ecc)

/-- Patrol is on for a tier (R242). -/
def patrolOn (s : State) (t : Tier) : Bool :=
  match t with | .stacks => bitAt s stkBase 1 | .annex => bitAt s anxBase 1

/-- A patrol read of one line of a tier (R241, R242). -/
def patrolLine (t : Tier) (off : Nat) (ecc : Ecc) (s : State) : State :=
  if patrolOn s t then found (match t with | .stacks => 1 | .annex => 2) off ecc s else s

/-- TIER_PATROL (R242). -/
def execTierPatrol (t : Tier) (line : BitVec 37) (ecc : Ecc) (s : State) : Host.Outcome State Fault Refusal :=
  run { data := true } s (patrolLine t (line.toNat * 128) ecc)

/-! ### Moves -/

/-- MOVE_START (R247). -/
def execMoveStart (e : Fin 16) (s : State) : Host.Outcome State Fault Refusal := run { data := true } s (startMove e)

/-- MOVE_PAGE (R248). -/
def execMovePage (e : Fin 16) (found : PageReads) (s : State) : Host.Outcome State Fault Refusal :=
  run { xlat := true, data := true, mem := true } s (runPage e found.tables found.corr found.bad)

/-- PAGE_COPY_DONE (R250). -/
def execPageCopyDone (e : Fin 16) (s : State) : Host.Outcome State Fault Refusal :=
  run { xlat := true, data := true, mem := true } s (flipPage e)

/-- HOLD_RELEASE (R250). -/
def execHoldRelease (e : Fin 16) (s : State) : Host.Outcome State Fault Refusal :=
  run { xlat := true, data := true } s (releaseHold e)

/-- RELOCATE_UNDO (R252). -/
def execRelocateUndo (e : Fin 16) (s : State) : Host.Outcome State Fault Refusal :=
  run { xlat := true, data := true, mem := true } s (undoPage e)

/-- OLD_PAGE_RELEASE (R252). -/
def execOldPageRelease (s : State) : Host.Outcome State Fault Refusal := run { data := true, mem := true } s releaseOld

/-- MOV_SUBMIT: the MOVE joins this device's engines, or goes to the device of its plane (R246). -/
def movSubmitAt (c : Nat) (inp : Bytes) (s : State) : State :=
  let t := beField inp 0 2
  let d := slice inp 4 64
  match (if moveFormat d then (parseMove d).plane else none) with
  | none => mbxEnd c .malformed [] s
  | some pl =>
    if 4096 ≤ t ∨ beField inp 2 2 ≠ 0 ∨ !moveFvas (parseMove d) then mbxEnd c .malformed [] s
    else if (planeMask s 0).testBit pl then mbxEnd c .targetUnreachable [] s
    else if pl = s.fab.plane.toNat then addMove (.chan c) (BitVec.ofNat 12 t) d false s
    else if h : c < 4 then
      emit (.ctl (BitVec.ofNat 11 (s.fab.rack.toNat * 8 + pl)) (.moveSubmit ⟨c, h⟩ (BitVec.ofNat 12 t) d)) s
    else s

/-- The channel's MOV_SUBMIT was relayed to another plane's device and has not ended: no MOVE of it is here. -/
def relayedOut (s : State) (c : Nat) : Bool :=
  let x := chan s c
  x.busy && x.started && x.opcode == 0x40 && !s.mov.moves.any (fun m => m.origin == .chan c)

/-- A MOVE is submitted: by this device's host, by another plane's host over Repex Control, or one that this device relayed
has ended (R246; the messages are the model's, log 83). -/
def moveSubmitted (c : Chan) : MoveSubmit → State → State
  | .mailbox dma, s => mbxRun c 0x40 dma (movSubmitAt c) s
  | .relayed node t d, s => addMove (.peer node c) t (slice d 0 64) false s
  | .relayEnd st, s => if relayedOut s c then mbxEnd c st [] s else s

/-- MOV_SUBMIT (R246). -/
def execMovSubmit (c : Chan) (by_ : MoveSubmit) (s : State) : Host.Outcome State Fault Refusal :=
  run { data := true } s (moveSubmitted c by_)

/-- A fault record is open. -/
def recOpen (s : State) (r : Nat) : Bool := s.mov.faults.any (fun x => x.num == r)

/-- MOV_RESUME (R255). -/
def execMovResume (c : Chan) (dma : Bytes) (s : State) : Host.Outcome State Fault Refusal :=
  run { data := true } s (mbxRun c 0x41 dma (fun inp s =>
    let r := beField inp 0 1
    if recOpen s r then mbxEnd c .done [] (resumeFault r s) else mbxEnd c .malformed [] s))

/-- MOV_FAIL (R255). -/
def execMovFail (c : Chan) (dma : Bytes) (s : State) : Host.Outcome State Fault Refusal :=
  run { data := true } s (mbxRun c 0x42 dma (fun inp s =>
    let r := beField inp 0 1
    if recOpen s r then mbxEnd c .done [] (failFault r s) else mbxEnd c .malformed [] s))

/-- FAULT_RECORD_EXPIRE (R255). -/
def execFaultRecordExpire (r : Fin 64) (s : State) : Host.Outcome State Fault Refusal :=
  run { data := true } s (fun s => whenS (recOpen s r) (fun s => failFault r (raiseMov evMovFaultExpired r.val s)) s)

end Sys2Proof.Machine
end

