-- ==== Sys2Proof/Machine/RowsSystem.lean ====
section
/-!
DEFINITION. The meanings of the rows of the die bridges and clocks (R10, R18), tenancy and evidence (R314 to R332),
firmware and its recovery (R337 to R354) and power (R357 to R365).
-/

namespace Sys2Proof.Machine
open Sys2Proof

/-! ### Bridges and clocks -/

/-- BRIDGE_FLIT_REPLAY (R10). -/
def execBridgeFlitReplay (d : Die) (failed : Bool) (s : State) : Host.Outcome State Fault Refusal :=
  run { chip := true, ports := true, fab := true, data := true } s (bridgeReplay d failed)

/-- BRIDGE_DOWN (R10). -/
def execBridgeDown (d : Die) (s : State) : Host.Outcome State Fault Refusal :=
  run { chip := true, ports := true, fab := true, data := true } s (bridgeDownAt d)

/-- REFCLK_LOST (R18). -/
def execRefclkLost (k : RefClk) (s : State) : Host.Outcome State Fault Refusal :=
  run { chip := true, ports := true, lasers := true, fab := true, data := true } s (refclkLostAt k)

/-! ### Tenancy -/

/-- TEN_ADMIT (R314). -/
def execTenAdmit (c : Chan) (dma : Bytes) (s : State) : Host.Outcome State Fault Refusal :=
  run { ten := true, data := true } s (mbxRun c 0x10 dma (tenAdmitAt c))

/-- TEN_RELEASE (R321). -/
def execTenRelease (c : Chan) (dma : Bytes) (s : State) : Host.Outcome State Fault Refusal :=
  run { time := true, alm := true, ten := true, fab := true, data := true } s (mbxRun c 0x11 dma (tenReleaseAt c))

/-- TENANT_DRAIN_DONE (R321). -/
def execTenantDrainDone (slot : Fin 64) (s : State) : Host.Outcome State Fault Refusal :=
  run { xlat := true, ten := true, data := true } s (drainDone slot)

/-- UNIT_SCRUB_DONE (R315). -/
def execUnitScrubDone (u : ScrubUnit) (failed : Bool) (s : State) : Host.Outcome State Fault Refusal :=
  run { ten := true, data := true, mem := true } s (scrubDone u failed)

/-- EP_BIND (R316). -/
def execEpBind (c : Chan) (dma : Bytes) (s : State) : Host.Outcome State Fault Refusal :=
  run { ten := true } s (mbxRun c 0x12 dma (epBindAt c))

/-- EP_UNBIND (R316). -/
def execEpUnbind (c : Chan) (dma : Bytes) (s : State) : Host.Outcome State Fault Refusal :=
  run { ten := true } s (mbxRun c 0x13 dma (epUnbindAt c))

/-- EVIDENCE_GET (R328). -/
def execEvidenceGet (c : Chan) (by_ : EvidenceAsk) (s : State) : Host.Outcome State Fault Refusal :=
  run {} s (match by_ with
    | .mailbox dma => mbxRun c 0x07 dma (evidenceAt c)
    | .port inp => evidencePort inp)

/-- DBG_CHALLENGE (R332). -/
def execDbgChallenge (c : Chan) (dma : Bytes) (s : State) : Host.Outcome State Fault Refusal :=
  run { ten := true } s (mbxRun c 0x08 dma (fun _ => dbgChallengeAt c))

/-- DEBUG_UNLOCK (R332). -/
def execDebugUnlock (serial : BitVec 64) (challenge : Bytes) (scopes : BitVec 32) (signature : Bytes) (fusePower : Bool)
    (s : State) : Host.Outcome State Fault Refusal :=
  runFuses { ports := true, ten := true } s (debugUnlockAt serial challenge scopes signature fusePower)

/-! ### Cores and resets -/

/-- WATCHDOG_EXPIRE (R337). -/
def execWatchdogExpire (core : Fin 18) (t : Tick) (s : State) : Host.Outcome State Fault Refusal :=
  runAt Reach.everything t s (watchdogExpire core)

/-- CORE_RESTART (R337). -/
def execCoreRestart (core : Fin 18) (s : State) : Host.Outcome State Fault Refusal :=
  run { ports := true, pwr := true, fab := true, data := true } s (coreRestarted core)

/-- POR_N (R368). -/
def execPorN (level : Bool) (s : State) : Host.Outcome State Fault Refusal := runPin Reach.everything s (porAt level)

/-- SYS_RST_N (R368). -/
def execSysRstN (level : Bool) (s : State) : Host.Outcome State Fault Refusal := runPin Reach.everything s (sysRstAt level)

/-- PERST_N (R368). -/
def execPerstN (level : Bool) (s : State) : Host.Outcome State Fault Refusal := runPin { chip := true, data := true } s (perstAt level)

/-! ### Firmware -/

/-- SPROUT (R342). -/
def execSprout (s : State) : Host.Outcome State Fault Refusal := run { ten := true, fab := true } s bootRom

/-- CATALOGUE_APPLY (R376). -/
def execCatalogueApply (s : State) : Host.Outcome State Fault Refusal :=
  run { ports := true, ten := true, fab := true, data := true } s catalogueApplyAt

/-- FW_STAGE (R346). -/
def execFwStage (c : Chan) (bundle : DmaOutcome) (s : State) : Host.Outcome State Fault Refusal :=
  run {} s (mbxRun c 0x03 [] (fwStageAt c bundle))

/-- FW_ACTIVATE (R347). -/
def execFwActivate (c : Chan) (dma : Bytes) (s : State) : Host.Outcome State Fault Refusal :=
  run {} s (mbxRun c 0x04 dma (fwActivateAt c))

/-- ACTIVATION_STAGE (R348). -/
def execActivationStage (t : Tick) (s : State) : Host.Outcome State Fault Refusal :=
  runAt { time := true, ports := true } t s activationStage

/-- ACTIVATION_STAGE_TIMEOUT (R350). -/
def execActivationStageTimeout (s : State) : Host.Outcome State Fault Refusal := run { ports := true } s stageTimeout

/-- ACTIVATION_START_TIMEOUT (R348). -/
def execActivationStartTimeout (s : State) : Host.Outcome State Fault Refusal := run {} s startTimeout

/-- POWER_STAGE_DEFERRED_RUN (R349). -/
def execPowerStageDeferredRun (s : State) : Host.Outcome State Fault Refusal := run {} s deferredRun

/-- FW_ARB_COMMIT (R343). -/
def execFwArbCommit (c : Chan) (dma : Bytes) (fusePower : Bool) (s : State) : Host.Outcome State Fault Refusal :=
  runFuses {} s (mbxRun c 0x05 dma (fun inp => arbCommit c inp fusePower))

/-- NEGOTIATE (R351). -/
def execNegotiate (c : Chan) (dma : Bytes) (s : State) : Host.Outcome State Fault Refusal :=
  run {} s (mbxRun c 0x01 dma (negotiateAt c))

/-- FW_STATUS (R416). -/
def execFwStatus (c : Chan) (dma : Bytes) (s : State) : Host.Outcome State Fault Refusal :=
  run {} s (mbxRun c 0x02 dma (fun _ => fwStatusAt c))

/-- CAT_WRITE (R371). -/
def execCatWrite (c : Chan) (dma : Bytes) (s : State) : Host.Outcome State Fault Refusal :=
  run {} s (mbxRun c 0x06 dma (catWriteAt c))

/-- DISCOVER (R345). -/
def execDiscover (_host : Nat) (serial : BitVec 64) (s : State) : Host.Outcome State Fault Refusal :=
  run {} s (recDiscover serial)

/-- BEGIN (R345). -/
def execBeginObject (h : RecFrom) (kind : BitVec 8) (total : BitVec 64) (s : State) : Host.Outcome State Fault Refusal :=
  run {} s (recBegin h kind.toNat total.toNat)

/-- DATA (R345). -/
def execData (h : RecFrom) (off : BitVec 64) (bs : Bytes) (s : State) : Host.Outcome State Fault Refusal :=
  run {} s (recData h off.toNat bs)

/-- END (R345). -/
def execEndObject (h : RecFrom) (s : State) : Host.Outcome State Fault Refusal :=
  run Reach.everything s (recEnd h)

/-- RECOVERY_SESSION_TIMEOUT (R344). -/
def execRecoverySessionTimeout (s : State) : Host.Outcome State Fault Refusal := run {} s recTimeout

/-- LEDGER_EXPORT (R354). -/
def execLedgerExport (s : State) : Host.Outcome State Fault Refusal := run {} s exportLedger

/-! ### Power -/

/-- POWER_BOUNDARY (R359). -/
def execPowerBoundary (t : Tick) (avg : BitVec 11) (tj : BitVec 10) (sensor : BitVec 5) (s : State) :
    Host.Outcome State Fault Refusal :=
  runAt { time := true, ports := true, pwr := true } t s (powerBoundaryAt t avg tj sensor)

/-- POWER_RISE_BOUNDARY (R360). -/
def execPowerRiseBoundary (t : Tick) (avg100 : BitVec 11) (s : State) : Host.Outcome State Fault Refusal :=
  runAt { time := true, ports := true, pwr := true } t s (powerRiseAt t avg100)

/-- PWR_BRAKE_N (R359). -/
def execPwrBrakeN (level : Bool) (t : Tick) (s : State) : Host.Outcome State Fault Refusal :=
  if s.chip.running then runAt { chip := true, time := true, ports := true, pwr := true } t s (brakePinAt level t)
  else runPin { chip := true } s (fun s => { s with chip := { s.chip with brakePin := !level } })

/-- UNDERVOLT (R365). -/
def execUndervolt (t : Tick) (s : State) : Host.Outcome State Fault Refusal :=
  runAt { time := true, ports := true, pwr := true } t s (undervoltAt t)

/-- UNDERVOLT_CLEAR (R365). -/
def execUndervoltClear (s : State) : Host.Outcome State Fault Refusal := run { pwr := true } s undervoltOver

/-- SUPPLY_LOSS (R365). -/
def execSupplyLoss (s : State) : Host.Outcome State Fault Refusal := run { chip := true, lasers := true } s (stopDevice 2)

/-- THERMAL_TRIP (R365). -/
def execThermalTrip (s : State) : Host.Outcome State Fault Refusal :=
  if s.chip.running then run { chip := true, lasers := true } s thermalTripAt else runPin { chip := true } s tripStanding

/-- PWR_CAP (R361). -/
def execPwrCap (watts : BitVec 32) (sample : BitVec 11) (t : Tick) (s : State) : Host.Outcome State Fault Refusal :=
  runAt { time := true, ports := true, pwr := true } t s (pwrCapAt watts sample t)

/-- PWR_TM_HB (R361). -/
def execPwrTmHb (s : State) : Host.Outcome State Fault Refusal := run { pwr := true } s tmHbAt

/-- TM_LOST (R365). -/
def execTmLost (s : State) : Host.Outcome State Fault Refusal := run { pwr := true } s tmLostAt

/-- ORPHAN (R365). -/
def execOrphan (sample : BitVec 11) (t : Tick) (s : State) : Host.Outcome State Fault Refusal :=
  runAt { time := true, ports := true, pwr := true } t s (orphanAt sample t)

/-- PORT_FORCED (R358). -/
def execPortForced (p : Port) (s : State) : Host.Outcome State Fault Refusal :=
  run { ports := true, fab := true, data := true } s (portForcedAt p)

end Sys2Proof.Machine
end

