-- ==== Sys2Proof/Machine/RowsTime.lean ====
section
/-!
DEFINITION. The meanings of the Fabric Time and Almanac rows (R148 to R175).
-/

namespace Sys2Proof.Machine
open Sys2Proof

/-! ### Fabric Time -/

/-- TIME (R150). -/
def execTime (p : Port) (g : TimeGroup) (s : State) : Host.Outcome State Fault Refusal :=
  run { time := true, ports := true } s (fun s => timeGroupAt p g (regain p s))

/-- TIME_GROUP_SEND (R289). -/
def execTimeGroupSend (p : Port) (s : State) : Host.Outcome State Fault Refusal :=
  run { time := true } s (timeGroupOut p)

/-- SERVO_LOCKED (R155). -/
def execServoLocked (errPs : BitVec 16) (s : State) : Host.Outcome State Fault Refusal :=
  run { time := true } s (servoLocked errPs)

/-- PARENT_LOST (R155). -/
def execParentLost (s : State) : Host.Outcome State Fault Refusal := run { time := true } s parentLostAt

/-- LOCK_LOST (R155). -/
def execLockLost (t : Tick) (s : State) : Host.Outcome State Fault Refusal :=
  runAt { time := true } t s lockLostAt

/-- GRANDMASTER_HANDOVER (R149, R155). -/
def execGrandmasterHandover (states : List (BitVec 3)) (s : State) : Host.Outcome State Fault Refusal :=
  run { time := true } s (gmHandover states)

/-- CHAIN_TIME_CODE (R151). -/
def execChainTimeCode (code : ChainCode) (loopPs : BitVec 20) (s : State) : Host.Outcome State Fault Refusal :=
  run { time := true } s (chainCode code loopPs)

/-- CHAIN_BREAK (R151). -/
def execChainBreak (s : State) : Host.Outcome State Fault Refusal := run { time := true } s chainBreakAt

/-- FT_PPS_IN (R153). -/
def execFtPpsIn (stamp : Tick) (s : State) : Host.Outcome State Fault Refusal := run { time := true } s (ppsInAt stamp)

/-- PPS_MISS (R153). -/
def execPpsMiss (s : State) : Host.Outcome State Fault Refusal := run { time := true } s ppsMissAt

/-- PPS_OUT_EDGE (R153). -/
def execPpsOutEdge (t : Tick) (s : State) : Host.Outcome State Fault Refusal :=
  runAt { chip := true, time := true } t s ppsOutAt

/-- LOCK_BOUND_EXPIRE (R385). -/
def execLockBoundExpire (s : State) : Host.Outcome State Fault Refusal := run { time := true } s lockBound

/-! ### The Almanac -/

/-- ALM_LOAD (R160). -/
def execAlmLoad (c : Chan) (dma : Bytes) (s : State) : Host.Outcome State Fault Refusal :=
  run { time := true, alm := true, data := true } s (mbxRun c 0x30 dma (almLoad c))

/-- ALM_UNLOAD (R161). -/
def execAlmUnload (c : Chan) (dma : Bytes) (s : State) : Host.Outcome State Fault Refusal :=
  run { time := true, alm := true, data := true } s (mbxRun c 0x31 dma (almUnload c))

/-- ITERATION_START (R162). -/
def execIterationStart (job : BitVec 32) (t : Tick) (s : State) : Host.Outcome State Fault Refusal :=
  runAt { time := true, alm := true } t s (iterStart job)

/-- WINDOW (R163). -/
def execWindow (job : BitVec 32) (idx : Nat) (t : Tick) (s : State) : Host.Outcome State Fault Refusal :=
  runAt { time := true, alm := true, data := true } t s (entryTurnAt job idx 1 [] .clean)

/-- WINDOW_CLOSE (R163). -/
def execWindowClose (p : Port) (t : Tick) (s : State) : Host.Outcome State Fault Refusal :=
  runAt { time := true, data := true } t s (closeWins p)

/-- COLL_STEP (R200). -/
def execCollStep (job : BitVec 32) (idx : Nat) (t : StepRead) (s : State) : Host.Outcome State Fault Refusal :=
  runAt { time := true, alm := true, data := true } t.tick s (entryTurnAt job idx 2 [] t.next)

/-- MULTICAST (R196). -/
def execMulticast (job : BitVec 32) (idx : Nat) (t : Tick) (lines : List (Nat × Ecc)) (s : State) :
    Host.Outcome State Fault Refusal :=
  runAt { time := true, alm := true, data := true } t s (entryTurnAt job idx 3 lines .clean)

/-- MOVE_ENTRY (R159). -/
def execMoveEntry (job : BitVec 32) (idx : Nat) (t : Tick) (s : State) : Host.Outcome State Fault Refusal :=
  runAt { time := true, alm := true, data := true } t s (entryTurnAt job idx 4 [] .clean)

/-- CHECK_READY (R167). -/
def execCheckReady (job : BitVec 32) (idx : Nat) (t : Tick) (ecc : Ecc) (s : State) : Host.Outcome State Fault Refusal :=
  runAt { time := true, alm := true, data := true } t s (checkTurn job idx ecc)

/-- NOP (R159). -/
def execNop (job : BitVec 32) (idx : Nat) (t : Tick) (s : State) : Host.Outcome State Fault Refusal :=
  runAt { time := true, alm := true, data := true } t s (entryTurnAt job idx 0 [] .clean)

/-- SLIP (R167). -/
def execSlip (via : Via) (payload : Bytes) (s : State) : Host.Outcome State Fault Refusal :=
  run { time := true, alm := true, data := true } s (slipAt via payload)

/-- SLIP_EFFECTIVE (R167). -/
def execSlipEffective (job : BitVec 32) (t : Tick) (s : State) : Host.Outcome State Fault Refusal :=
  runAt { time := true, alm := true } t s (slipEffect job)

/-- HELD_ENTRY_FIRE (R168). -/
def execHeldEntryFire (job : BitVec 32) (idx : Nat) (t : Tick) (found : HeldReads) (s : State) :
    Host.Outcome State Fault Refusal := runAt { time := true, alm := true, data := true } t s (heldTurn job idx found)

end Sys2Proof.Machine
end

