-- ==== Sys2Proof/Machine/RowsTransport.lean ====
section
/-!
DEFINITION. The meanings of the transport and switching rows (R125 to R147, R254, R262 to R278): frames that arrive,
the transport's timers, route changes, quarantine, and the egresses' turns.
-/

namespace Sys2Proof.Machine
open Sys2Proof

/-- REQ (R137). -/
def execReq (x : FrameRead) (s : State) : Host.Outcome State Fault Refusal :=
  run { xlat := true, data := true } s (reqHeld x)

/-- RSP (R130). -/
def execRsp (f : Frame) (s : State) : Host.Outcome State Fault Refusal := run { data := true } s (rspArrives f)

/-- ACK (R130). -/
def execAck (f : Frame) (s : State) : Host.Outcome State Fault Refusal := run { data := true } s (ackArrives f)

/-- NAK (R131). -/
def execNak (x : FrameRead) (s : State) : Host.Outcome State Fault Refusal :=
  run { data := true } s (nakArrives x.frame x.found)

/-- OPEN (R142). -/
def execOpenSession (f : Frame) (s : State) : Host.Outcome State Fault Refusal :=
  run { data := true } s (onFrame tOpen f (openAt f))

/-- OPEN_ACK (R139). -/
def execOpenAck (f : Frame) (s : State) : Host.Outcome State Fault Refusal :=
  run { data := true } s (onFrame tOpenAck f (openAckAt f))

/-- CLOSE (R139). -/
def execClose (f : Frame) (s : State) : Host.Outcome State Fault Refusal :=
  run { xlat := true, data := true } s (closeArrives f)

/-- SKIP_FRAME (R138). -/
def execSkipFrame (x : FrameRead) (s : State) : Host.Outcome State Fault Refusal :=
  run { xlat := true, data := true } s (opHeld 0 x)

/-- FRAME_FORWARD (R266). -/
def execFrameForward (p : Port) (f : Frame) (line : LineIn) (cells : Ecc) (s : State) : Host.Outcome State Fault Refusal :=
  run { ports := true, fab := true, data := true } s (ingress p f line cells)

/-- FRAME_RESIDENCY_EXPIRE (R135). -/
def execFrameResidencyExpire (e : Egress) (queue : Fin 36) (s : State) : Host.Outcome State Fault Refusal :=
  run { data := true } s (residencyOver e queue)

/-- A request's retransmit timer expires: its frames go again as the next attempt, and its sessions' windows halve
(R133, R143); a source copy found uncorrectable ends the request with DATA_ERROR (R121). -/
def retransmit (id : Nat) (copies : Ecc) (s : State) : State :=
  let nums := (s.trn.send.filter (fun c => c.unacked.any (fun x => x.req == id))).map (·.num)
  if nums.isEmpty then s
  else if copies == .uncorrectable then endReq id .dataError s
  else attempt id none (each nums (fun n s => modSend n ccTimeout s) s)

/-- RETRANSMIT_TIMEOUT (R133). -/
def execRetransmitTimeout (id : Nat) (copies : Ecc) (s : State) : Host.Outcome State Fault Refusal :=
  run { data := true } s (retransmit id copies)

/-- A session that never opened and has nothing left to send is closed, unless frames of its predecessor await it (R139,
R140). -/
def dropOpening (s : State) : State :=
  let dead := s.trn.send.filter (fun c => c.state == .opening && c.waiting.isEmpty && c.unacked.isEmpty &&
    !s.trn.send.any (fun d => d.sid == c.sid && d.num != c.num && !d.waiting.isEmpty))
  each dead (fun c s => feedStarved (sendUnit s c) (dropSend c.num s)) s

/-- The lifetime of a request has passed: it ends with TARGET_UNREACHABLE, or with TARGET_LOST where its endpoint is
quarantined (R133, R145). -/
def lifetimeOver (id : Nat) (s : State) : State :=
  match reqOf s id with
  | none => s
  | some r =>
    if r.ended then s
    else if quarantined s r.sid.dst.toNat then dropOpening (endReq id .targetLost s)
    else dropOpening (endReq id .targetUnreachable (bump cntTrnUnreachCnt s))

/-- REQUEST_LIFETIME_EXPIRE (R133). -/
def execRequestLifetimeExpire (id : Nat) (s : State) : Host.Outcome State Fault Refusal :=
  run { data := true } s (lifetimeOver id)

/-- The acknowledgement delay of a stream has run out at this end of it (R130). -/
def ackDelay (st : StreamId) (s : State) : State :=
  let rs := (s.trn.recv.filter (fun r => r.sid == st && !r.ackDue.isEmpty)).map (·.e)
  let cs := (s.trn.send.filter (fun c => c.sid == st && !c.rspDue.isEmpty)).map (·.num)
  each cs reverseAck (each rs (sendAck st) s)

/-- ACK_DELAY_EXPIRE (R130). -/
def execAckDelayExpire (st : StreamId) (s : State) : Host.Outcome State Fault Refusal :=
  run { data := true } s (ackDelay st)

/-- The sessions of a stream in a state at its source. -/
def sendsIn (s : State) (st : StreamId) (x : SendState) : List SendCtx :=
  s.trn.send.filter (fun c => c.sid == st && c.state == x && !c.starved)

/-- OPEN_REPEAT (R139). -/
def execOpenRepeat (st : StreamId) (s : State) : Host.Outcome State Fault Refusal :=
  run { data := true } s (fun s => each (sendsIn s st .opening) sendOpen s)

/-- CLOSE_REPEAT (R139). -/
def execCloseRepeat (st : StreamId) (s : State) : Host.Outcome State Fault Refusal :=
  run { data := true } s (fun s => each (sendsIn s st .closing) (fun c s => submit (closeFrame s c.sid c.next) s) s)

/-- SESSION_IDLE_CLOSE (R139). -/
def execSessionIdleClose (st : StreamId) (s : State) : Host.Outcome State Fault Refusal :=
  run { data := true } s (fun s => each ((sendsIn s st .opened).filter SendCtx.idle) (fun c s => beginClose c.num s) s)

/-- CLOSE_ECHO_TIMEOUT (R139). -/
def execCloseEchoTimeout (st : StreamId) (s : State) : Host.Outcome State Fault Refusal :=
  run { data := true } s (fun s => each (sendsIn s st .closing) (fun c s => freeSend c.num .targetUnreachable s) s)

/-- QUARANTINE_NOTICE (R145). -/
def execQuarantineNotice (q : QuarNotice) (s : State) : Host.Outcome State Fault Refusal :=
  run { data := true } s (quarNoticeAt q)

/-- ROUTE_CHANGE_FLOOD (R134). -/
def execRouteChangeFlood (node : BitVec 11) (port : BitVec 8) (s : State) : Host.Outcome State Fault Refusal :=
  run { fab := true } s (repairRoutes node.toNat port.toNat)

/-- HOLD_WRITE (R254). -/
def execHoldWrite (x : FrameRead) (s : State) : Host.Outcome State Fault Refusal :=
  run { xlat := true, data := true } s (opHeld 0x50 x)

/-- HOLD_FLAG (R254). -/
def execHoldFlag (x : FrameRead) (s : State) : Host.Outcome State Fault Refusal :=
  run { xlat := true, data := true } s (opHeld 0x51 x)

/-- HOLD_ATOMIC (R254). -/
def execHoldAtomic (x : FrameRead) (s : State) : Host.Outcome State Fault Refusal :=
  run { xlat := true, data := true } s (opHeld 0x52 x)

/-- HOLD_COMMIT (R254). -/
def execHoldCommit (x : FrameRead) (s : State) : Host.Outcome State Fault Refusal :=
  run { xlat := true, data := true } s (opHeld 0x53 x)

/-- An egress has its turn: the Stacks are read again for a MULTICAST's port that lags there, else its next frame is chosen
(R196, R268). -/
def egressTurn (found : Ecc) (e : Nat) (s : State) : State := (lagTurn e found s).getD (selectAt found e (now s) s)

/-- EGRESS_SELECT (R268). -/
def execEgressSelect (e : Egress) (t : TickRead) (s : State) : Host.Outcome State Fault Refusal :=
  runAt { time := true, ports := true, data := true } t.tick s (egressTurn t.found e)

/-- A 64 ns slot begins on a port in time-division mode (R269). -/
def slotBegins (cells : Ecc) (p : Nat) (s : State) : State :=
  if tdmAt s p && egressUp s p && swcOn s then unpark (selectTdm cells p (now s) s) else s

/-- TDM_SLOT (R269). -/
def execTdmSlot (p : Port) (t : TickRead) (s : State) : Host.Outcome State Fault Refusal :=
  runAt { time := true, ports := true, data := true } t.tick s (slotBegins t.found p)

/-- SWC_MIRROR (R275). -/
def execSwcMirror (c : Chan) (dma : Bytes) (s : State) : Host.Outcome State Fault Refusal :=
  run { fab := true, data := true } s (mbxRun c 0x50 dma (swcMirrorAt c))

end Sys2Proof.Machine
end

