-- ==== Sys2Proof/Machine/Dispatch.lean ====
section
/-! DEFINITION. The meaning of each command: one arm per constructor of Instr. -/

namespace Sys2Proof.Machine
open Sys2Proof

def exec (i : Instr) (s : State) : Host.Outcome State Fault Refusal :=
  match i with
  | .bridgeFlitReplay die failed => Sys2Proof.Machine.execBridgeFlitReplay die failed s
  | .bridgeDown die => Sys2Proof.Machine.execBridgeDown die s
  | .refclkLost clk => Sys2Proof.Machine.execRefclkLost clk s
  | .epbAttEnSet p => Sys2Proof.Machine.execEpbAttEnSet p s
  | .epbAttEnClear p => Sys2Proof.Machine.execEpbAttEnClear p s
  | .hello p m => Sys2Proof.Machine.execHello p m s
  | .helloRepeat p => Sys2Proof.Machine.execHelloRepeat p s
  | .helloTimeout p => Sys2Proof.Machine.execHelloTimeout p s
  | .accept p msn => Sys2Proof.Machine.execAccept p msn s
  | .attachNak p msn status => Sys2Proof.Machine.execAttachNak p msn status s
  | .credit p counts => Sys2Proof.Machine.execCredit p counts s
  | .attachMessageCorrupt p => Sys2Proof.Machine.execAttachMessageCorrupt p s
  | .attachResendTimeout p => Sys2Proof.Machine.execAttachResendTimeout p s
  | .read p m => Sys2Proof.Machine.execRead p m s
  | .write p m => Sys2Proof.Machine.execWrite p m s
  | .writeFlag p m => Sys2Proof.Machine.execWriteFlag p m s
  | .atomic p m => Sys2Proof.Machine.execAtomic p m s
  | .commit p m => Sys2Proof.Machine.execCommit p m s
  | .move p m => Sys2Proof.Machine.execMove p m s
  | .releaseMark p m => Sys2Proof.Machine.execReleaseMark p m s
  | .descriptorChunk p m => Sys2Proof.Machine.execDescriptorChunk p m s
  | .dataChunk p m => Sys2Proof.Machine.execDataChunk p m s
  | .treeOpen p m => Sys2Proof.Machine.execTreeOpen p m s
  | .treeClose p m => Sys2Proof.Machine.execTreeClose p m s
  | .inbDone p m => Sys2Proof.Machine.execInbDone p m s
  | .markDone p tag => Sys2Proof.Machine.execMarkDone p tag s
  | .attachTimeout p => Sys2Proof.Machine.execAttachTimeout p s
  | .fenceWaitEnd p => Sys2Proof.Machine.execFenceWaitEnd p s
  | .bucketReadReturn c ecc => Sys2Proof.Machine.execBucketReadReturn c ecc s
  | .descriptorMissReturn h ecc => Sys2Proof.Machine.execDescriptorMissReturn h ecc s
  | .xltUpdate c dma => Sys2Proof.Machine.execXltUpdate c dma s
  | .rgnWrite c dma => Sys2Proof.Machine.execRgnWrite c dma s
  | .xltDrain c dma => Sys2Proof.Machine.execXltDrain c dma s
  | .xltDrainDone c => Sys2Proof.Machine.execXltDrainDone c s
  | .xltDrainTimeout c => Sys2Proof.Machine.execXltDrainTimeout c s
  | .mappingConfirm id by_ => Sys2Proof.Machine.execMappingConfirm id by_ s
  | .mappingConfirmTimeout id => Sys2Proof.Machine.execMappingConfirmTimeout id s
  | .serialiserIssue h line => Sys2Proof.Machine.execSerialiserIssue h line s
  | .combiningEntryIssue k => Sys2Proof.Machine.execCombiningEntryIssue k s
  | .homeAccessDone line ecc keyFault => Sys2Proof.Machine.execHomeAccessDone line ecc keyFault s
  | .req x => Sys2Proof.Machine.execReq x s
  | .rsp f => Sys2Proof.Machine.execRsp f s
  | .ack f => Sys2Proof.Machine.execAck f s
  | .nak x => Sys2Proof.Machine.execNak x s
  | .openSession f => Sys2Proof.Machine.execOpenSession f s
  | .openAck f => Sys2Proof.Machine.execOpenAck f s
  | .close f => Sys2Proof.Machine.execClose f s
  | .skipFrame x => Sys2Proof.Machine.execSkipFrame x s
  | .frameForward ingress f line cells => Sys2Proof.Machine.execFrameForward ingress f line cells s
  | .frameResidencyExpire e queue => Sys2Proof.Machine.execFrameResidencyExpire e queue s
  | .retransmitTimeout id copies => Sys2Proof.Machine.execRetransmitTimeout id copies s
  | .requestLifetimeExpire id => Sys2Proof.Machine.execRequestLifetimeExpire id s
  | .ackDelayExpire st => Sys2Proof.Machine.execAckDelayExpire st s
  | .openRepeat st => Sys2Proof.Machine.execOpenRepeat st s
  | .closeRepeat st => Sys2Proof.Machine.execCloseRepeat st s
  | .sessionIdleClose st => Sys2Proof.Machine.execSessionIdleClose st s
  | .closeEchoTimeout st => Sys2Proof.Machine.execCloseEchoTimeout st s
  | .quarantineNotice q => Sys2Proof.Machine.execQuarantineNotice q s
  | .routeChangeFlood node port => Sys2Proof.Machine.execRouteChangeFlood node port s
  | .time p g => Sys2Proof.Machine.execTime p g s
  | .timeGroupSend p => Sys2Proof.Machine.execTimeGroupSend p s
  | .servoLocked errPs => Sys2Proof.Machine.execServoLocked errPs s
  | .parentLost => Sys2Proof.Machine.execParentLost s
  | .lockLost now => Sys2Proof.Machine.execLockLost now s
  | .grandmasterHandover states => Sys2Proof.Machine.execGrandmasterHandover states s
  | .chainTimeCode code loopPs => Sys2Proof.Machine.execChainTimeCode code loopPs s
  | .chainBreak => Sys2Proof.Machine.execChainBreak s
  | .ftPpsIn stamp => Sys2Proof.Machine.execFtPpsIn stamp s
  | .ppsMiss => Sys2Proof.Machine.execPpsMiss s
  | .ppsOutEdge now => Sys2Proof.Machine.execPpsOutEdge now s
  | .almLoad c dma => Sys2Proof.Machine.execAlmLoad c dma s
  | .almUnload c dma => Sys2Proof.Machine.execAlmUnload c dma s
  | .window job idx now => Sys2Proof.Machine.execWindow job idx now s
  | .windowClose p now => Sys2Proof.Machine.execWindowClose p now s
  | .collStep job idx now => Sys2Proof.Machine.execCollStep job idx now s
  | .multicast job idx now lines => Sys2Proof.Machine.execMulticast job idx now lines s
  | .moveEntry job idx now => Sys2Proof.Machine.execMoveEntry job idx now s
  | .checkReady job idx now ecc => Sys2Proof.Machine.execCheckReady job idx now ecc s
  | .nop job idx now => Sys2Proof.Machine.execNop job idx now s
  | .slip via payload => Sys2Proof.Machine.execSlip via payload s
  | .slipEffective job now => Sys2Proof.Machine.execSlipEffective job now s
  | .heldEntryFire job idx now found => Sys2Proof.Machine.execHeldEntryFire job idx now found s
  | .collChunk f found => Sys2Proof.Machine.execCollChunk f found s
  | .collResult f => Sys2Proof.Machine.execCollResult f s
  | .collCredit x => Sys2Proof.Machine.execCollCredit x s
  | .collDesc f => Sys2Proof.Machine.execCollDesc f s
  | .collDone f => Sys2Proof.Machine.execCollDone f s
  | .treeOpenCtl f members => Sys2Proof.Machine.execTreeOpenCtl f members s
  | .treeReply f => Sys2Proof.Machine.execTreeReply f s
  | .treeRelease f => Sys2Proof.Machine.execTreeRelease f s
  | .collAbort via f => Sys2Proof.Machine.execCollAbort via f s
  | .treeOpenTimeout tenant handle => Sys2Proof.Machine.execTreeOpenTimeout tenant handle s
  | .contextClear ctx => Sys2Proof.Machine.execContextClear ctx s
  | .collIdleAbort ctx => Sys2Proof.Machine.execCollIdleAbort ctx s
  | .chunkEvaluate ctx chunk found => Sys2Proof.Machine.execChunkEvaluate ctx chunk found s
  | .landingReserve group => Sys2Proof.Machine.execLandingReserve group s
  | .rdaProgLoad c dma => Sys2Proof.Machine.execRdaProgLoad c dma s
  | .rdaProgUnload c dma => Sys2Proof.Machine.execRdaProgUnload c dma s
  | .cellarPatrol bank ecc => Sys2Proof.Machine.execCellarPatrol bank ecc s
  | .moveStart engine => Sys2Proof.Machine.execMoveStart engine s
  | .movePage e found => Sys2Proof.Machine.execMovePage e found s
  | .pageCopyDone engine => Sys2Proof.Machine.execPageCopyDone engine s
  | .holdRelease engine => Sys2Proof.Machine.execHoldRelease engine s
  | .relocateUndo engine => Sys2Proof.Machine.execRelocateUndo engine s
  | .oldPageRelease => Sys2Proof.Machine.execOldPageRelease s
  | .holdWrite x => Sys2Proof.Machine.execHoldWrite x s
  | .holdFlag x => Sys2Proof.Machine.execHoldFlag x s
  | .holdAtomic x => Sys2Proof.Machine.execHoldAtomic x s
  | .holdCommit x => Sys2Proof.Machine.execHoldCommit x s
  | .movSubmit c by_ => Sys2Proof.Machine.execMovSubmit c by_ s
  | .movResume c dma => Sys2Proof.Machine.execMovResume c dma s
  | .movFail c dma => Sys2Proof.Machine.execMovFail c dma s
  | .faultRecordExpire rec => Sys2Proof.Machine.execFaultRecordExpire rec s
  | .memWinSet c dma => Sys2Proof.Machine.execMemWinSet c dma s
  | .cxlMemRead dpa64 ecc => Sys2Proof.Machine.execCxlMemRead dpa64 ecc s
  | .cxlMemWrite dpa64 data ecc => Sys2Proof.Machine.execCxlMemWrite dpa64 data ecc s
  | .tierPatrol tier line ecc => Sys2Proof.Machine.execTierPatrol tier line ecc s
  | .egressSelect e now => Sys2Proof.Machine.execEgressSelect e now s
  | .tdmSlot p now => Sys2Proof.Machine.execTdmSlot p now s
  | .swcMirror c dma => Sys2Proof.Machine.execSwcMirror c dma s
  | .prtEnSet p => Sys2Proof.Machine.execPrtEnSet p s
  | .prtEnClear p => Sys2Proof.Machine.execPrtEnClear p s
  | .signalDetect p lanes => Sys2Proof.Machine.execSignalDetect p lanes s
  | .laneLock p lane => Sys2Proof.Machine.execLaneLock p lane s
  | .laneLockLost p lane => Sys2Proof.Machine.execLaneLockLost p lane s
  | .equaliseDone p => Sys2Proof.Machine.execEqualiseDone p s
  | .alignDone p lanes => Sys2Proof.Machine.execAlignDone p lanes s
  | .uncorrectableCodeword p lane at_ => Sys2Proof.Machine.execUncorrectableCodeword p lane at_ s
  | .status p peerState ready => Sys2Proof.Machine.execStatus p peerState ready s
  | .caps p cp => Sys2Proof.Machine.execCaps p cp s
  | .coeff p cf => Sys2Proof.Machine.execCoeff p cf s
  | .width p w => Sys2Proof.Machine.execWidth p w s
  | .down p reason => Sys2Proof.Machine.execDown p reason s
  | .portStateTimeout p b => Sys2Proof.Machine.execPortStateTimeout p b s
  | .portRetryTimeout p => Sys2Proof.Machine.execPortRetryTimeout p s
  | .portGiveUpTimeout p => Sys2Proof.Machine.execPortGiveUpTimeout p s
  | .laneUeThreshold p lane => Sys2Proof.Machine.execLaneUeThreshold p lane s
  | .widthSwitch p => Sys2Proof.Machine.execWidthSwitch p s
  | .laneRetrainDone p lanes => Sys2Proof.Machine.execLaneRetrainDone p lanes s
  | .retimerPoll p present lock temp => Sys2Proof.Machine.execRetimerPoll p present lock temp s
  | .retimerReset p => Sys2Proof.Machine.execRetimerReset p s
  | .laserSafetyShutoff p => Sys2Proof.Machine.execLaserSafetyShutoff p s
  | .laserProbe p => Sys2Proof.Machine.execLaserProbe p s
  | .lightReturn p => Sys2Proof.Machine.execLightReturn p s
  | .laserModuleFail m present => Sys2Proof.Machine.execLaserModuleFail m present s
  | .laserModuleEnable m => Sys2Proof.Machine.execLaserModuleEnable m s
  | .keyingExchange p verified => Sys2Proof.Machine.execKeyingExchange p verified s
  | .keyingTimeout p => Sys2Proof.Machine.execKeyingTimeout p s
  | .rekey p => Sys2Proof.Machine.execRekey p s
  | .oldKeyExpire p => Sys2Proof.Machine.execOldKeyExpire p s
  | .tenAdmit c dma => Sys2Proof.Machine.execTenAdmit c dma s
  | .tenRelease c dma => Sys2Proof.Machine.execTenRelease c dma s
  | .tenantDrainDone slot => Sys2Proof.Machine.execTenantDrainDone slot s
  | .unitScrubDone u failed => Sys2Proof.Machine.execUnitScrubDone u failed s
  | .epBind c dma => Sys2Proof.Machine.execEpBind c dma s
  | .epUnbind c dma => Sys2Proof.Machine.execEpUnbind c dma s
  | .evidenceGet c dma => Sys2Proof.Machine.execEvidenceGet c dma s
  | .dbgChallenge c dma => Sys2Proof.Machine.execDbgChallenge c dma s
  | .debugUnlock serial challenge scopes signature fusePower => Sys2Proof.Machine.execDebugUnlock serial challenge scopes signature fusePower s
  | .watchdogExpire core t => Sys2Proof.Machine.execWatchdogExpire core t s
  | .porN level => Sys2Proof.Machine.execPorN level s
  | .sysRstN level => Sys2Proof.Machine.execSysRstN level s
  | .perstN level => Sys2Proof.Machine.execPerstN level s
  | .sprout => Sys2Proof.Machine.execSprout s
  | .catalogueApply => Sys2Proof.Machine.execCatalogueApply s
  | .fwStage c bundle => Sys2Proof.Machine.execFwStage c bundle s
  | .fwActivate c dma => Sys2Proof.Machine.execFwActivate c dma s
  | .activationStage now => Sys2Proof.Machine.execActivationStage now s
  | .activationStageTimeout => Sys2Proof.Machine.execActivationStageTimeout s
  | .activationStartTimeout => Sys2Proof.Machine.execActivationStartTimeout s
  | .powerStageDeferredRun => Sys2Proof.Machine.execPowerStageDeferredRun s
  | .fwArbCommit c dma fusePower => Sys2Proof.Machine.execFwArbCommit c dma fusePower s
  | .negotiate c dma => Sys2Proof.Machine.execNegotiate c dma s
  | .fwStatus c dma => Sys2Proof.Machine.execFwStatus c dma s
  | .catWrite c dma => Sys2Proof.Machine.execCatWrite c dma s
  | .discover h serial => Sys2Proof.Machine.execDiscover h serial s
  | .beginObject h kind total => Sys2Proof.Machine.execBeginObject h kind total s
  | .data h offset bytes => Sys2Proof.Machine.execData h offset bytes s
  | .endObject h => Sys2Proof.Machine.execEndObject h s
  | .recoverySessionTimeout => Sys2Proof.Machine.execRecoverySessionTimeout s
  | .ledgerExport => Sys2Proof.Machine.execLedgerExport s
  | .powerBoundary now avgW tj sensor => Sys2Proof.Machine.execPowerBoundary now avgW tj sensor s
  | .powerRiseBoundary now avg100W => Sys2Proof.Machine.execPowerRiseBoundary now avg100W s
  | .pwrBrakeN level now => Sys2Proof.Machine.execPwrBrakeN level now s
  | .undervolt now => Sys2Proof.Machine.execUndervolt now s
  | .undervoltClear => Sys2Proof.Machine.execUndervoltClear s
  | .supplyLoss => Sys2Proof.Machine.execSupplyLoss s
  | .thermalTrip => Sys2Proof.Machine.execThermalTrip s
  | .pwrCap watts sampleW now => Sys2Proof.Machine.execPwrCap watts sampleW now s
  | .pwrTmHb => Sys2Proof.Machine.execPwrTmHb s
  | .tmLost => Sys2Proof.Machine.execTmLost s
  | .orphan sampleW now => Sys2Proof.Machine.execOrphan sampleW now s
  | .portForced p => Sys2Proof.Machine.execPortForced p s
  | .memoryTrained tier failed => Sys2Proof.Machine.execMemoryTrained tier failed s
  | .rackAnnounce a direct => Sys2Proof.Machine.execRackAnnounce a direct s
  | .rackAnnounceSend => Sys2Proof.Machine.execRackAnnounceSend s
  | .linkStateAdvert p a => Sys2Proof.Machine.execLinkStateAdvert p a s
  | .advertOriginate => Sys2Proof.Machine.execAdvertOriginate s
  | .advertExpire node => Sys2Proof.Machine.execAdvertExpire node s
  | .planeSettled => Sys2Proof.Machine.execPlaneSettled s
  | .routeRecompute => Sys2Proof.Machine.execRouteRecompute s
  | .fabJoin c dma => Sys2Proof.Machine.execFabJoin c dma s
  | .epQuarantine c dma => Sys2Proof.Machine.execEpQuarantine c dma s
  | .epUnquarantine c dma => Sys2Proof.Machine.execEpUnquarantine c dma s
  | .healthScoreUpdate now => Sys2Proof.Machine.execHealthScoreUpdate now s
  | .healthExport => Sys2Proof.Machine.execHealthExport s
  | .registerWrite offset size value => Sys2Proof.Machine.execRegisterWrite offset size value s
  | .arm => Sys2Proof.Machine.execArm s
  | .discard => Sys2Proof.Machine.execDiscard s
  | .cancel slot => Sys2Proof.Machine.execCancel slot s
  | .commitFire slot now => Sys2Proof.Machine.execCommitFire slot now s
  | .latchedRead offset => Sys2Proof.Machine.execLatchedRead offset s
  | .rcRead offset size => Sys2Proof.Machine.execRcRead offset size s
  | .irqHoldoffExpire vector => Sys2Proof.Machine.execIrqHoldoffExpire vector s
  | .hostDmaCompletion o => Sys2Proof.Machine.execHostDmaCompletion o s
  | .cxlLinkDown => Sys2Proof.Machine.execCxlLinkDown s
  | .identifyMemoryDevice => Sys2Proof.Machine.execIdentifyMemoryDevice s
  | .getSupportedLogs => Sys2Proof.Machine.execGetSupportedLogs s
  | .getLog offset len => Sys2Proof.Machine.execGetLog offset len s
  | .getPartitionInfo => Sys2Proof.Machine.execGetPartitionInfo s
  | .getEventRecords log => Sys2Proof.Machine.execGetEventRecords log s
  | .clearEventRecords log => Sys2Proof.Machine.execClearEventRecords log s
  | .coreRestart core => Sys2Proof.Machine.execCoreRestart core s
  | .lockBoundExpire => Sys2Proof.Machine.execLockBoundExpire s
  | .msixUnmask vector => Sys2Proof.Machine.execMsixUnmask vector s
  | .cxlLinkUp width speed busMaster => Sys2Proof.Machine.execCxlLinkUp width speed busMaster s
  | .doeRequest k => Sys2Proof.Machine.execDoeRequest k s
  | .iterationStart job now => Sys2Proof.Machine.execIterationStart job now s
  | .linkGroupSend p => Sys2Proof.Machine.execLinkGroupSend p s
  | .mappingChange node ch => Sys2Proof.Machine.execMappingChange node ch s

end Sys2Proof.Machine
end

