-- ==== Sys2Proof/Machine/Tick.lean ====
section
/-!
DEFINITION. What an empty queue does in one step: while the clocks run and once the count is started, the Fabric Time
counter counts one tick of 0.25 ns (R148), and every 256 ns the device's own time code leaves on FTX_OUT (R151); while the
clocks stand, nothing happens.
-/

namespace Sys2Proof.Machine
open Sys2Proof

/-- The on-time edge of the chain's code: every 256 ns, from the Catalogue on (R151). -/
def codeDue (s : State) : Bool := s.fab.catalogue && decide (now s % 1024 = 0)

/-- One idle step (DESIGN CHOICE, assumption 3). -/
def idle (s : State) : State :=
  if s.chip.running && s.time.started then
    let s := { s with time := { s.time with count := s.time.count + 1 } }
    if codeDue s then emit (.chainTime (ownCode s)) s else s
  else s

end Sys2Proof.Machine
end

