-- ==== Sys2Proof/Safety.lean ====
section
/-!
DEFINITION. What the claims about every step are stated in: the fuses only ever go one way (R332, R343), the
part's memories keep their canonical form, a device at rest, and what a command newly puts out.
-/

namespace Sys2Proof.Machine
open Sys2Proof

/-- Every anti-rollback bit of `a` is blown, and at least `u` of the 64 unlock-count bits are (R332, R343). -/
def FusesBlown (a : BitVec 64) (u : Nat) (s : State) : Prop :=
  s.fuses.arb &&& a = a ∧ u ≤ s.fuses.unlocks ∧ s.fuses.unlocks ≤ 64

/-- The Stacks and Annex bytes are in canonical form. -/
def MemoriesWf (s : State) : Prop :=
  Memory.wf s.home.stk = true ∧ Memory.wf s.home.anx = true

/-- The clocks run and nothing waits to be handed on. -/
abbrev AtRest (s : State) : Prop := s.chip.running = true ∧ quiet s = true

/-- From `s` to `t` the device has put out `e`, after all it had put out before. -/
abbrev Puts (s t : State) (e : Emit) : Prop := s.out <+: t.out ∧ e ∈ t.out.drop s.out.length

/-- Channel `c` waits with a command of this code whose input is `inp`, and the checks of R415 pass: its row runs. -/
abbrev MbxRuns (s : State) (c op : Nat) (dma inp : Bytes) : Prop :=
  (chan s c).busy = true ∧ (chan s c).started = false ∧ (chan s c).lost = false ∧ (chan s c).opcode.toNat = op ∧
  mgmtRuns s = true ∧ (op = 0x30 → coreSt s coreSched = .running) ∧ mbxInput (chan s c) dma = inp ∧ mbxCheck s c op inp = .done ∧
  ((chan s c).inDma = true → dmaOn s = true)

/-- The command of channel `c` has ended with this status (R414). -/
abbrev MbxEnded (t : State) (c : Nat) (st : Status) : Prop :=
  (chan t c).busy = false ∧ (chan t c).done = true ∧ (chan t c).status.toNat = st.code

/-- A frame of this type reaches an endpoint of this device with good check sums and no reserved value (R126 to R128). -/
abbrev Taken (s : State) (ty : BitVec 4) (f : Frame) : Prop :=
  f.type = ty ∧ isLocalEp s f.dst.toNat = true ∧ f.hcrcOk = true ∧ f.crcOk = true ∧ frameFieldsOk f = true ∧
  (ty = tReq ∨ otherFrameOk f = true)

/-- A request frame that its endpoint does not turn away (R128, R137, R145). -/
abbrev Served (s : State) (f : Frame) : Prop :=
  Taken s tReq f ∧ reqFrameOk f = true ∧ quarantined s f.dst.toNat = false ∧ epFenced s f.dst.toNat = false

/-- What the row of each command reaches: no command changes a part that its row does not reach. -/
def reachOf : Instr → Reach
  | .bridgeFlitReplay .. | .bridgeDown .. => { chip := true, ports := true, fab := true, data := true }
  | .refclkLost .. => { chip := true, ports := true, lasers := true, fab := true, data := true }
  | .epbAttEnSet .. | .epbAttEnClear .. | .frameForward .. | .prtEnSet .. | .prtEnClear .. | .laneLockLost .. | .down ..
  | .portStateTimeout .. | .laserSafetyShutoff .. | .portForced .. | .linkStateAdvert .. | .registerWrite .. | .arm
  | .discard | .cancel .. => { ports := true, fab := true, data := true }
  | .hello .. | .accept .. | .attachNak .. | .credit .. | .move .. | .releaseMark .. | .descriptorChunk ..
  | .dataChunk .. | .treeOpen .. | .treeClose .. | .inbDone ..
  | .uncorrectableCodeword .. | .width .. | .widthSwitch .. => { ports := true, data := true }
  | .helloRepeat .. | .attachResendTimeout .. | .rekey .. | .helloTimeout .. | .attachMessageCorrupt .. | .markDone .. | .attachTimeout .. | .fenceWaitEnd ..
  | .serialiserIssue .. | .combiningEntryIssue .. | .rsp .. | .ack .. | .nak .. | .openSession .. | .openAck ..
  | .frameResidencyExpire .. | .retransmitTimeout .. | .requestLifetimeExpire .. | .ackDelayExpire .. | .openRepeat ..
  | .closeRepeat .. | .sessionIdleClose .. | .closeEchoTimeout .. | .quarantineNotice .. | .treeOpenCtl ..
  | .treeReply .. | .treeRelease .. | .collAbort .. | .treeOpenTimeout .. | .contextClear .. | .collIdleAbort ..
  | .chunkEvaluate .. | .landingReserve .. | .rdaProgLoad .. | .rdaProgUnload .. | .cellarPatrol .. | .moveStart ..
  | .movSubmit .. | .movResume .. | .movFail .. | .faultRecordExpire .. | .cxlMemRead .. | .cxlMemWrite ..
  | .tierPatrol .. | .latchedRead .. | .rcRead .. | .hostDmaCompletion .. | .cxlLinkDown => { data := true }
  | .homeAccessDone .. | .oldPageRelease => { data := true, mem := true }
  | .movePage .. | .xltUpdate .. | .rgnWrite .. | .mappingConfirmTimeout .. | .pageCopyDone .. | .relocateUndo ..
  | .mappingChange .. | .mappingConfirm .. => { xlat := true, data := true, mem := true }
  | .memWinSet .. | .retimerReset .. | .laserProbe .. | .evidenceGet ..
  | .fwStage .. | .fwActivate .. | .activationStartTimeout | .powerStageDeferredRun | .fwArbCommit .. | .negotiate ..
  | .fwStatus .. | .catWrite .. | .discover .. | .beginObject .. | .data .. | .recoverySessionTimeout | .ledgerExport
  | .rackAnnounceSend | .healthExport | .irqHoldoffExpire .. | .identifyMemoryDevice | .getSupportedLogs | .getLog ..
  | .getPartitionInfo | .getEventRecords .. | .clearEventRecords .. | .msixUnmask .. | .doeRequest ..
  | .linkGroupSend .. => {}
  | .activationStageTimeout | .signalDetect .. | .laneLock .. | .equaliseDone .. | .alignDone .. | .coeff ..
  | .portRetryTimeout .. | .portGiveUpTimeout .. | .laneUeThreshold .. | .laneRetrainDone ..
  | .retimerPoll .. | .lightReturn .. | .oldKeyExpire .. => { ports := true }
  | .read .. | .write .. | .writeFlag .. | .atomic .. | .commit .. => { ports := true, xlat := true, data := true }
  | .bucketReadReturn .. | .descriptorMissReturn .. | .req .. | .close .. | .skipFrame .. | .collChunk ..
  | .collResult .. | .collCredit .. | .collDesc .. | .collDone .. | .holdRelease .. | .holdWrite .. | .holdFlag ..
  | .holdAtomic .. | .holdCommit .. | .epQuarantine .. | .epUnquarantine .. => { xlat := true, data := true }
  | .xltDrain .. | .xltDrainDone .. | .xltDrainTimeout .. => { xlat := true }
  | .routeChangeFlood .. | .advertOriginate | .advertExpire .. | .planeSettled | .routeRecompute => { fab := true }
  | .time .. | .activationStage .. => { time := true, ports := true }
  | .timeGroupSend .. | .servoLocked .. | .parentLost | .lockLost .. | .grandmasterHandover .. | .chainTimeCode ..
  | .chainBreak | .ftPpsIn .. | .ppsMiss | .healthScoreUpdate .. | .lockBoundExpire => { time := true }
  | .ppsOutEdge .. => { chip := true, time := true }
  | .cxlLinkUp .. => { chip := true }
  | .almUnload .. | .window .. | .collStep .. | .multicast .. | .moveEntry .. | .checkReady .. | .nop ..
  | .heldEntryFire .. | .slip .. | .almLoad .. => { time := true, alm := true, data := true }
  | .windowClose .. | .commitFire .. => { time := true, data := true }
  | .slipEffective .. | .iterationStart .. => { time := true, alm := true }
  | .egressSelect .. | .tdmSlot .. | .status .. => { time := true, ports := true, data := true }
  | .swcMirror .. | .fabJoin .. => { fab := true, data := true }
  | .caps .. | .keyingExchange .. | .keyingTimeout ..
  | .rackAnnounce .. => { time := true, ports := true, fab := true, data := true }
  | .laserModuleFail .. => { ports := true, lasers := true, fab := true, data := true }
  | .laserModuleEnable .. => { lasers := true }
  | .tenAdmit .. => { ten := true, data := true }
  | .unitScrubDone .. => { ten := true, data := true, mem := true }
  | .tenRelease .. => { time := true, alm := true, ten := true, fab := true, data := true }
  | .tenantDrainDone .. => { xlat := true, ten := true, data := true }
  | .epBind .. | .epUnbind .. | .dbgChallenge .. => { ten := true }
  | .debugUnlock .. => { ports := true, ten := true }
  | .watchdogExpire .. | .porN .. | .sysRstN .. | .endObject .. => Reach.everything
  | .perstN .. => { chip := true, data := true }
  | .sprout => { ten := true, fab := true }
  | .catalogueApply => { ports := true, ten := true, fab := true, data := true }
  | .powerBoundary .. | .powerRiseBoundary .. | .undervolt .. | .pwrCap ..
  | .orphan .. => { time := true, ports := true, pwr := true }
  | .pwrBrakeN .. => { chip := true, time := true, ports := true, pwr := true }
  | .undervoltClear | .pwrTmHb | .tmLost => { pwr := true }
  | .supplyLoss | .thermalTrip => { chip := true, lasers := true }
  | .memoryTrained .. => { ten := true, fab := true, data := true }
  | .coreRestart .. => { ports := true, pwr := true, fab := true, data := true }

/-- The parts a row does not reach, with the plane's view aside from its readiness state, are as they were. -/
abbrev Framed (r : Reach) (s t : State) : Prop :=
  (r.chip = false → t.chip = s.chip) ∧ (r.time = false → t.time = s.time) ∧ (r.ports = false → t.ports = s.ports) ∧
  (r.lasers = false → t.lasers = s.lasers) ∧ (r.xlat = false → t.xlat = s.xlat) ∧ (r.alm = false → t.alm = s.alm) ∧
  (r.ten = false → t.ten = s.ten) ∧ (r.pwr = false → t.pwr = s.pwr) ∧
  (r.fab = false → t.fab = { s.fab with state := t.fab.state, transit := t.fab.transit })

/-- The data path is as it was: sessions, transport, home points with their memories, moves, frames in the switching
core, collectives and the array. -/
abbrev SameData (s t : State) : Prop :=
  t.att = s.att ∧ t.trn = s.trn ∧ t.home = s.home ∧ t.mov = s.mov ∧ t.sw = s.sw ∧ t.coll = s.coll ∧ t.arr = s.arr

/-- No mirror session stores frames it sees, and no result write of a collective is under way. -/
def homeQuiet (s : State) : Bool :=
  (List.range 8).all (fun n => !bitAt s (mirOff n) 0) && s.home.accesses.all (fun a => decide (a.own < 25))

/-- Every byte of the Stacks and the Annex reads as it did. -/
abbrev SameBytes (s t : State) : Prop := ∀ space off n, tierRead t space off n = tierRead s space off n

/-- The `n` bytes at `a` of tier `sp` are none of the `len` bytes at `off` of tier `space` (1 the Stacks, else the Annex). -/
abbrev Apart (space off len sp a n : Nat) : Prop := (sp == 1) ≠ (space == 1) ∨ a + n ≤ off ∨ off + len ≤ a

/-- Where the buckets of a change lie in every copy of a tenant's table here: offsets in the Stacks and lengths (R65, R76). -/
def bucketRanges (s : State) (tenant : Nat) (bs : List (Nat × Bytes)) : List (Nat × Nat) :=
  (tableCopies s tenant).flatMap (fun t => bs.map (fun b => (sysPart + t.2 + b.1 * 128, 128)))

/-- What a mapping change from another device writes in the Stacks (R76), and the new copy that giving a page's move up
discards (R252): tier, offset and length. -/
def changeRanges (s : State) : MapChange → List (Nat × Nat × Nat)
  | .buckets w bs => (bucketRanges s w.toNat bs).map (fun r => (1, r))
  | .region ep i _ => ((regionAt s ep.toNat i.toNat).map (fun x => (1, sysPart + x, 32))).toList
  | .page .giveUp _ new size => if inTier s new then [(spaceOf new, offOf new, size)] else []
  | .page (.start_ ..) .. | .page .release .. | .page .settle .. | .drain _ => []

/-- What the scrub of a unit for slot `x` writes as zeros: tier, offset and length (R322). -/
def scrubRanges (s : State) (x : TenSlot) : ScrubUnit → List (Nat × Nat × Nat)
  | .stacksGroup g => [(1, g.val * (9088 * 2 ^ 20), 9088 * 2 ^ 20)]
  | .annexPackage k => [(2, k.val * (96 * 2 ^ 30), 96 * 2 ^ 30)]
  | .cellarSet _ | .arrayGroup _ => []
  | .tables _ =>
    ((List.range 9).filterMap (fun c => tableOf s c x.tenant.toNat)).map (fun k => (1, sysPart + k.2, 2 ^ k.1 * 128)) ++
    (bitsSet 72 x.ports.toNat).map (fun p => (1, sysPart + p * 0x200000, 0x200000)) ++
    (ownRegions s x.tenant.toNat).map (fun r => (1, sysPart + 0x09000000 + r.1 * 32, 32))
  | .regions _ => x.areas

/-- The five Attach requests that carry an address of their own: opcode and row (R34). -/
def addressRows : List (Nat × (APort → AttMsg → Instr)) :=
  [(1, .read), (2, .write), (3, .writeFlag), (4, .atomic), (5, .commit)]

/-- The mailbox commands: code, row, and what the row has for the command's input when `dma` is what its DMA gives. -/
def mailboxRows : List (Nat × (Bytes → Bytes) × (Chan → Bytes → Instr)) :=
  [(0x01, id, .negotiate), (0x02, id, .fwStatus), (0x03, fun _ => [], fun c dma => .fwStage c (.ok dma))] ++
  [(0x04, id, .fwActivate), (0x05, id, fun c dma => .fwArbCommit c dma true), (0x06, id, .catWrite)] ++
  [(0x07, id, fun c dma => .evidenceGet c (.mailbox dma)), (0x08, id, .dbgChallenge)] ++
  [(0x10, id, .tenAdmit), (0x11, id, .tenRelease), (0x12, id, .epBind), (0x13, id, .epUnbind), (0x20, id, .xltUpdate)] ++
  [(0x21, id, .rgnWrite), (0x22, id, .xltDrain), (0x23, id, .epQuarantine), (0x24, id, .epUnquarantine), (0x25, id, .fabJoin)] ++
  [(0x30, id, .almLoad), (0x31, id, .almUnload), (0x32, id, .rdaProgLoad), (0x33, id, .rdaProgUnload)] ++
  [(0x40, id, fun c dma => .movSubmit c (.mailbox dma)), (0x41, id, .movResume), (0x42, id, .movFail), (0x43, id, .memWinSet), (0x50, id, .swcMirror)]

/-- The device has put a COMPLETION of this tag and status on A-port `p`, after all it had put out before (R42). -/
abbrev Completed (s t : State) (p : APort) (tag : BitVec 13) (st : Status) : Prop :=
  s.out <+: t.out ∧ (t.out.drop s.out.length).any (fun e => match e with
    | .attach q g => q == p && g.opc == 0x20 && g.tag == tag && g.status.toNat == st.code
    | _ => false) = true

end Sys2Proof.Machine
end

