-- ==== Sys2Proof/Certificates/Slice0/Obligations.lean ====
section
/-!
DEFINITION. The statements about the block. A statement about rows says, for each of its rows, that the row completes
and what it leaves, for every state and operands that meet its hypotheses; one row may have several forms. The frame of
every row is stated once, in RowsReach and RowsReachData.
-/

section
open Sys2Proof Sys2Proof.Machine

/-- A step takes the command at the front of the queue and runs it with the queue's rest: every statement about a
row reaches a run through this one. -/
def Obligations.StepRunsFront : Prop :=
  ∀ (c : Instr) (cs : List Instr) (s : State), step { s with pending := c :: cs } = exec c { s with pending := cs }

/-- An empty queue lets one tick of 0.25 ns pass once the clocks run and the count is started (R148), and on every
256 ns the device's own time code leaves on FTX_OUT (R151); nothing else happens. That a step on an empty queue
stands for a tick is the model's choice (log entry 3), and so are the contents of the code beyond R151 (log entry
91). -/
def Obligations.StepIdles : Prop :=
  ∀ (s : State), s.pending = [] →
    step s = .next (if s.chip.running && s.time.started then
      (let t := { s with time := { s.time with count := s.time.count + 1 } }
       if t.fab.catalogue && decide (Machine.now t % 1024 = 0) then { t with out := t.out ++ [.chainTime (ownCode t)] } else t)
      else s)

/-- Every command answers a next state in every state, and leaves the waiting commands as they are. -/
def Obligations.CommandsComplete : Prop :=
  ∀ (c : Instr) (s : State), ∃ t, exec c s = .next t ∧ t.pending = s.pending

/-- No waiting command is lost, repeated or stuck: from any state, as many steps as there are waiting commands leave
the queue empty. -/
def Obligations.QueueServed : Prop :=
  ∀ (s : State), ∃ t : State, Host.Core.run Sys2Proof.core s.pending.length s = .next t ∧ t.pending = []

/-- After a supply loss or a thermal trip, and while a reset pin holds the device, the clocks stand: a command that
is not a level on a reset pin or on PWR_BRAKE_N, and not a thermal trip, changes nothing (R365, R368, R426). That
such a command is lost and does not wait is the model's choice (log entry 40). -/
def Obligations.ClocksStopped : Prop :=
  ∀ (c : Instr) (s : State), s.chip.running = false →
    (∀ l, c ≠ .porN l) → (∀ l, c ≠ .sysRstN l) → (∀ l, c ≠ .perstN l) →
    (∀ l t, c ≠ .pwrBrakeN l t) → c ≠ .thermalTrip → exec c s = .next s

/-- Whatever command runs, in whatever state, an anti-rollback bit that is blown stays blown and the debug unlock
count never falls and never passes 64 (R332, R343). -/
def Obligations.FusesKept : Prop :=
  ∀ (a : BitVec 64) (u : Nat) (s t : State), FusesBlown a u s → step s = .next t → FusesBlown a u t

/-- No command but DEBUG_UNLOCK (R332) and FW_ARB_COMMIT (R343) changes a fuse, resets included. -/
def Obligations.FusesOnlyBlown : Prop :=
  ∀ (c : Instr) (s t : State), (∀ a b d e f, c ≠ .debugUnlock a b d e f) → (∀ a b d, c ≠ .fwArbCommit a b d) →
    exec c s = .next t → t.fuses = s.fuses

/-- The frame of every row. `reachOf` names, for each command, the parts its row may write; pins, time, ports,
lasers, translations, Almanacs, tenancy, power and the plane's view stay as they are under every other command, but
for the readiness state, which follows its conditions (R383). -/
def Obligations.RowsReach : Prop :=
  ∀ (c : Instr) (s t : State), exec c s = .next t → Framed (reachOf c) s t

/-- The frame of every row on the data path: sessions, sessions of the transport, every byte of the Stacks and the
Annex, moves, frames under way, contexts and the array stay as they are. And of every row on the memories: where no
engine waits for a page it reads, a row that does not store into the Stacks or the Annex leaves every byte of them. -/
def Obligations.RowsReachData : Prop :=
  (∀ (c : Instr) (s t : State), AtRest s → (reachOf c).data = false → exec c s = .next t → SameData s t) ∧
  (∀ (c : Instr) (s t : State), pageReads s = false → (reachOf c).mem = false → exec c s = .next t → SameBytes s t)

/-- After reset the clocks stand, Fabric Time has not started (R148), the readiness state is RESET, every port is
DISABLED, every session is DOWN, no endpoint is quarantined, nothing is outstanding and nothing has been put out
(R368, R383, R292, R30); and the configuration space identifies the device and its class (R401). The values of
registers and memory the spec gives no reset value are the model's (log entries 1 and 2). -/
def Obligations.ResetState : Prop :=
  State.reset.chip.running = false ∧ State.reset.time.started = false ∧ State.reset.fab.state = .reset ∧ (∀ p, (portSt State.reset p).state = .disabled) ∧
  (∀ p, (sess State.reset p).state = .down) ∧ State.reset.trn.quar = [] ∧ State.reset.trn.reqs = [] ∧
  State.reset.coll.ctxs = [] ∧ State.reset.pending = [] ∧ State.reset.out = [] ∧
  (pciIdentity.device = 0x8872 ∧ pciIdentity.classCode = 0x05 ∧ pciIdentity.subclass = 0x02 ∧ pciIdentity.progIf = 0x10)

/-- At reset no fuse is required blown, the memories are in canonical form, and nothing waits to be handed on. -/
def Obligations.ResetInvariants : Prop :=
  FusesBlown 0 0 State.reset ∧ MemoriesWf State.reset ∧ quiet State.reset = true

/-- On the line: the content of a link group that carries CAPS comes back from its blocks whole, CRC included (R290,
R291); and every Attach message, with header, payload, padding and CRC-32, passes the check of the receiver (R32,
R33, R37). -/
def Obligations.LineFormats : Prop :=
  (∀ (c : Caps), (linkContent (((linkGroupBlocks (capsContent c)).flatMap (·.bytes)).drop 1)).bind parseCaps = some c) ∧
  (∀ (m : AttMsg), attCrcOk (attBytes m) = true ∧ (attBytes m).length % 4 = 0)

/-- R179: the digest is the leftmost 64 bits of the SHA-384 of bytes 0 to 39, so descriptors that agree in every
common field have one digest whatever their own fields are. (SHA-384 itself is that of FIPS 180-4, log entry 12.) -/
def Obligations.DescriptorDigest : Prop :=
  (∀ (b : Bytes), (descDigest b).toNat = beNat ((sha384 (b.take 40)).take 8)) ∧
  (∀ (a b : Bytes), a.take 40 = b.take 40 → descDigest a = descDigest b)

/-- R58, for the five requests with an address and for MOVE, whose DST is an FVA unless it is a RELOCATE (R245). -/
def Obligations.BadAddressMalformed : Prop :=
  (∀ (s : State) (p : APort) (m : AttMsg) (i : Fin addressRows.length),
    AtRest s →
    m.opc.toNat = (addressRows.get i).1 →
    arrival s p m = .take →
    portBound s p = true →
    (sess s p).state = .up →
    (sess s p).out = [] →
    (sess s p).blocked = [] →
    2 ≤ (sess s p).rspCrd →
    (sess s p).unacked = [] →
    (m.addr.toNat / 2 ^ 63 % 2 = 0 ∧ 0x47FF < m.addr.toNat / 2 ^ 48 % 2 ^ 15) ∨ (m.addr.toNat / 2 ^ 63 % 2 = 1 ∧ m.addr.toNat / 2 ^ 48 % 2 ^ 12 ≠ 0) →
    ∃ t, exec ((addressRows.get i).2 p m) s = .next t ∧
      Completed s t p m.tag .malformed ∧ t.xlat = s.xlat ∧ (sess t p).out = []) ∧
  (∀ (s : State) (p : APort) (m : AttMsg) (d : MoveDesc),
    AtRest s →
    m.opc = 6 →
    parseMove m.payload = d →
    arrival s p m = .take →
    portBound s p = true →
    (sess s p).state = .up →
    (sess s p).out = [] →
    (sess s p).blocked = [] →
    2 ≤ (sess s p).rspCrd →
    (sess s p).unacked = [] →
    ((d.src / 2 ^ 63 % 2 = 0 ∧ 0x47FF < d.src / 2 ^ 48 % 2 ^ 15) ∨ (d.src / 2 ^ 63 % 2 = 1 ∧ d.src / 2 ^ 48 % 2 ^ 12 ≠ 0)) ∨ (d.op ≠ 0x20 ∧ ((d.dst / 2 ^ 63 % 2 = 0 ∧ 0x47FF < d.dst / 2 ^ 48 % 2 ^ 15) ∨ (d.dst / 2 ^ 63 % 2 = 1 ∧ d.dst / 2 ^ 48 % 2 ^ 12 ≠ 0))) →
    ∃ t, exec (.move p m) s = .next t ∧
      Completed s t p m.tag .malformed ∧ t.xlat = s.xlat ∧ t.mov.moves = s.mov.moves ∧ (sess t p).out = [])

/-- R62, with the required plane of R61 for a request with an address and that of R246 for a MOVE. -/
def Obligations.WrongPlaneMalformed : Prop :=
  (∀ (s : State) (p : APort) (m : AttMsg) (i : Fin addressRows.length) (q : Nat),
    AtRest s →
    m.opc.toNat = (addressRows.get i).1 →
    arrival s p m = .take →
    portBound s p = true →
    (sess s p).state = .up →
    (sess s p).out = [] →
    (sess s p).blocked = [] →
    2 ≤ (sess s p).rspCrd →
    (sess s p).unacked = [] →
    reqFormat m = true →
    fvaOk m.addr.toNat = true →
    requiredPlane m.addr.toNat (addressRows.get i).1 m.comb (portFifo s p) (slotEp s p) (planeMask s p) = .plane q →
    q ≠ s.fab.plane.toNat →
    ∃ t, exec ((addressRows.get i).2 p m) s = .next t ∧
      Completed s t p m.tag .malformed ∧ t.trn = s.trn ∧ t.sw = s.sw ∧ t.home = s.home ∧ (sess t p).out = []) ∧
  (∀ (s : State) (p : APort) (m : AttMsg) (q : Nat),
    AtRest s →
    arrival s p m = .take →
    portBound s p = true →
    (sess s p).state = .up →
    (sess s p).out = [] →
    (sess s p).blocked = [] →
    2 ≤ (sess s p).rspCrd →
    (sess s p).unacked = [] →
    m.opc = 6 →
    reqFieldsOk m = true →
    m.len = 0 →
    m.atop = 0 →
    moveFormat m.payload = true →
    moveFvas (parseMove m.payload) = true →
    (parseMove m.payload).plane = some q →
    q ≠ s.fab.plane.toNat →
    ∃ t, exec (.move p m) s = .next t ∧
      Completed s t p m.tag .malformed ∧ t.trn = s.trn ∧ t.sw = s.sw ∧ t.mov.moves = s.mov.moves ∧ t.home = s.home ∧ (sess t p).out = [])

/-- R415: the five checks, each where the earlier ones pass, over every mailbox command, and an opcode outside R416.
A command that a check turns away changes nothing but its channel. Which opcode is known, which lengths fit (R416),
which state permits a command (R370, R375, R384), which commands need no NEGOTIATE (R351), and which two conflict
(R417) are the functions named. -/
def Obligations.MailboxChecks : Prop :=
  (∀ (s : State) (i : Fin mailboxRows.length) (c : Chan) (dma : Bytes) (inp : Bytes),
    AtRest s →
    (chan s c).busy = true →
    (chan s c).started = false →
    (chan s c).lost = false →
    (chan s c).opcode.toNat = (mailboxRows.get i).1 →
    mgmtRuns s = true →
    ((mailboxRows.get i).1 = 0x30 → coreSt s coreSched = .running) →
    mbxInput (chan s c) ((mailboxRows.get i).2.1 dma) = inp →
    mbxState s (mailboxRows.get i).1 inp = false →
    ∃ t, exec ((mailboxRows.get i).2.2 c dma) s = .next t ∧
      MbxEnded t c .busy ∧ SameData s t ∧ t.ten = s.ten ∧ t.xlat = s.xlat ∧ t.fuses = s.fuses) ∧
  (∀ (s : State) (i : Fin mailboxRows.length) (c : Chan) (dma : Bytes) (inp : Bytes),
    AtRest s →
    (chan s c).busy = true →
    (chan s c).started = false →
    (chan s c).lost = false →
    (chan s c).opcode.toNat = (mailboxRows.get i).1 →
    mgmtRuns s = true →
    ((mailboxRows.get i).1 = 0x30 → coreSt s coreSched = .running) →
    mbxInput (chan s c) ((mailboxRows.get i).2.1 dma) = inp →
    mbxState s (mailboxRows.get i).1 inp = true →
    mbxSizeOk (chan s c) = false ∨ mbxLenOk (mailboxRows.get i).1 (chan s c).inLen.toNat = false →
    ∃ t, exec ((mailboxRows.get i).2.2 c dma) s = .next t ∧
      MbxEnded t c .malformed ∧ SameData s t ∧ t.ten = s.ten ∧ t.xlat = s.xlat ∧ t.fuses = s.fuses) ∧
  (∀ (s : State) (i : Fin mailboxRows.length) (c : Chan) (dma : Bytes) (inp : Bytes),
    AtRest s →
    (chan s c).busy = true →
    (chan s c).started = false →
    (chan s c).lost = false →
    (chan s c).opcode.toNat = (mailboxRows.get i).1 →
    mgmtRuns s = true →
    ((mailboxRows.get i).1 = 0x30 → coreSt s coreSched = .running) →
    mbxInput (chan s c) ((mailboxRows.get i).2.1 dma) = inp →
    mbxState s (mailboxRows.get i).1 inp = true →
    mbxSizeOk (chan s c) = true ∧ mbxLenOk (mailboxRows.get i).1 (chan s c).inLen.toNat = true →
    s.fw.agreed = none →
    mbxBefore (mailboxRows.get i).1 inp = false →
    ∃ t, exec ((mailboxRows.get i).2.2 c dma) s = .next t ∧
      MbxEnded t c .version ∧ SameData s t ∧ t.ten = s.ten ∧ t.xlat = s.xlat ∧ t.fuses = s.fuses) ∧
  (∀ (s : State) (i : Fin mailboxRows.length) (c : Chan) (dma : Bytes) (inp : Bytes) (feats : BitVec 64) (b : Nat),
    AtRest s →
    (chan s c).busy = true →
    (chan s c).started = false →
    (chan s c).lost = false →
    (chan s c).opcode.toNat = (mailboxRows.get i).1 →
    mgmtRuns s = true →
    ((mailboxRows.get i).1 = 0x30 → coreSt s coreSched = .running) →
    mbxInput (chan s c) ((mailboxRows.get i).2.1 dma) = inp →
    mbxState s (mailboxRows.get i).1 inp = true →
    mbxSizeOk (chan s c) = true ∧ mbxLenOk (mailboxRows.get i).1 (chan s c).inLen.toNat = true →
    s.fw.agreed = some feats →
    mbxFeature (mailboxRows.get i).1 inp = some b →
    feats.getLsbD b = false →
    ∃ t, exec ((mailboxRows.get i).2.2 c dma) s = .next t ∧
      MbxEnded t c .version ∧ SameData s t ∧ t.ten = s.ten ∧ t.xlat = s.xlat ∧ t.fuses = s.fuses) ∧
  (∀ (s : State) (i : Fin mailboxRows.length) (c : Chan) (dma : Bytes) (inp : Bytes),
    AtRest s →
    (chan s c).busy = true →
    (chan s c).started = false →
    (chan s c).lost = false →
    (chan s c).opcode.toNat = (mailboxRows.get i).1 →
    mgmtRuns s = true →
    ((mailboxRows.get i).1 = 0x30 → coreSt s coreSched = .running) →
    mbxInput (chan s c) ((mailboxRows.get i).2.1 dma) = inp →
    mbxState s (mailboxRows.get i).1 inp = true →
    mbxSizeOk (chan s c) = true ∧ mbxLenOk (mailboxRows.get i).1 (chan s c).inLen.toNat = true →
    (match s.fw.agreed with | none => mbxBefore (mailboxRows.get i).1 inp | some feats => (match mbxFeature (mailboxRows.get i).1 inp with | some b => feats.getLsbD b | none => true)) = true →
    mbxConflict s c (mailboxRows.get i).1 inp = true →
    ∃ t, exec ((mailboxRows.get i).2.2 c dma) s = .next t ∧
      MbxEnded t c .busy ∧ SameData s t ∧ t.ten = s.ten ∧ t.xlat = s.xlat ∧ t.fuses = s.fuses) ∧
  (∀ (s : State) (off : BitVec 26) (v : BitVec 32) (c : Nat),
    AtRest s →
    barReach s = true →
    s.fab.state ≠ .recovery →
    off.toNat % 4 = 0 →
    locate off.toNat = some (.mbx c, 0) →
    v.getLsbD 0 = true →
    (chan s c).busy = false →
    mbxKnown (chan s c).opcode.toNat = false →
    mbxState s (chan s c).opcode.toNat [] = true →
    ∃ t, exec (.registerWrite off 4 v) s = .next t ∧
      MbxEnded t c .malformed ∧ SameData s t ∧ t.ten = s.ten ∧ t.xlat = s.xlat ∧ t.fuses = s.fuses)

/-- R164: CLASS is rewritten and HCRC recomputed, the frame joins its tenant's unscheduled queue of that egress,
where it may be marked, and FTM_DEMOTE_CNT counts it; no scheduled frame is lost for want of a window. The frame
arrives at a fabric port and is passed on with TTL one lower (R135). -/
def Obligations.ScheduledFrameDemoted : Prop :=
  (∀ (s : State) (p : Port) (f : Frame) (line : LineIn) (e : Nat) (g : Frame),
    AtRest s →
    (portSt s p).state = .up →
    isFabricPort s p = true →
    f.hcrcOk = true →
    (portSt s p).late = false →
    (portSt s p).delin = true ∨ line.idle = true ∨ regains f = true →
    (portSt s p).enc = false ∨ encOk (portSt s p) line = true →
    s.ten.shared = true →
    f.red = false →
    f.cls = 1 →
    1 < f.ttl.toNat →
    epNode s f.dst.toNat ≠ some (nodeId s) →
    g = ({ f with ttl := f.ttl - 1 } : Frame).reseal →
    egressFor s g = some e →
    windowOpen s e f.tenant.toNat = false →
    hasRoom s f.tenant.toNat g.cells = true →
    (∀ n ∈ List.range 8, bitAt s (mirOff n) 0 = false) →
    ∃ t, exec (.frameForward p f line .clean) s = .next t ∧
      (tget [] (egOf t e).queues (queueFor s f.tenant.toNat).1 = tget [] (egOf s e).queues (queueFor s f.tenant.toNat).1 ++ [({ g with cls := 2 } : Frame).reseal] ∨
      tget [] (egOf t e).queues (queueFor s f.tenant.toNat).1 = tget [] (egOf s e).queues (queueFor s f.tenant.toNat).1 ++ [({ ({ g with cls := 2 } : Frame).reseal with ce := true } : Frame).reseal]) ∧
    fieldOf t cntFtmDemoteCnt.off cntFtmDemoteCnt.lo cntFtmDemoteCnt.w = Nat.min (2 ^ cntFtmDemoteCnt.w - 1) (fieldOf s cntFtmDemoteCnt.off cntFtmDemoteCnt.lo cntFtmDemoteCnt.w + 1))

/-- A port trains: signal, lane lock, equalised, aligned, capabilities, keys. Rows: SIGNAL_DETECT (R292), LANE_LOCK
(R287), EQUALISE_DONE (R292), ALIGN_DONE (R292), STATUS (R290), CAPS (R293), KEYING_EXCHANGE (R305). A clause that
follows a reading of the model's where the spec leaves a point open follows log entries 57 and 58. -/
def Obligations.PortTrains : Prop :=
  (∀ (s : State) (p : Port) (lanes : BitVec 9),
    s.chip.running = true →
    (portSt s p).state = .detect →
    clusterRuns s p = true →
    (portSt s p).refused = false →
    (portSt s p).lightOff = false →
    lasersOn s p = true →
    dieLost s p = false →
    2 ≤ popCount 9 (Nat.land lanes.toNat (laneMask s p)) →
    ∃ t, exec (.signalDetect p lanes) s = .next t ∧
      (portSt t p).state = .equalise ∧ (portSt t p).signal = BitVec.ofNat 9 (Nat.land lanes.toNat (laneMask s p))) ∧
  (∀ (s : State) (p : Port) (lane : Fin 9),
    s.chip.running = true →
    (portSt s p).state ≠ .disabled →
    (portSt s p).state ≠ .detect →
    (laneMask s p).testBit lane = true →
    (portSt s p).off.getLsbD lane = false →
    ∃ t, exec (.laneLock p lane) s = .next t ∧
      (portSt t p).locked = (portSt s p).locked ||| BitVec.ofNat 9 (2 ^ lane.val)) ∧
  (∀ (s : State) (p : Port),
    s.chip.running = true →
    (portSt s p).state = .equalise →
    clusterRuns s p = true →
    (retimerOn s p && (portSt s p).present && !(portSt s p).rtLock) = false →
    2 ≤ popCount 9 (portSt s p).able.toNat →
    ∃ t, exec (.equaliseDone p) s = .next t ∧
      (portSt t p).state = .align ∧ (portSt t p).settled = true ∧ (portSt t p).signal = (portSt s p).signal) ∧
  (∀ (s : State) (p : Port),
    s.chip.running = true →
    (portSt s p).state = .equalise →
    retimerOn s p = true →
    (portSt s p).present = true →
    (portSt s p).rtLock = false →
    ∃ t, exec (.equaliseDone p) s = .next t ∧
      (portSt t p).state = .equalise) ∧
  (∀ (s : State) (p : Port) (lanes : BitVec 9) (w : Nat),
    s.chip.running = true →
    (portSt s p).state = .align →
    clusterRuns s p = true →
    alignWidth s p (lanes &&& (portSt s p).able).toNat = w →
    minLanes s p ≤ w →
    2 ≤ w →
    ∃ t, exec (.alignDone p lanes) s = .next t ∧
      (portSt t p).state = .negotiate ∧ (portSt t p).width = widthCode w ∧
    (portSt t p).active = BitVec.ofNat 9 (maskNat ((bitsSet 9 (lanes &&& (portSt s p).able).toNat).take w)) ∧
    (portSt t p).order = (bitsSet 9 (lanes &&& (portSt s p).able).toNat).take w) ∧
  (∀ (s : State) (p : Port) (peerState : BitVec 8) (ready : Bool),
    s.chip.running = true →
    ((portSt s p).state = .negotiate ∧ ((portSt s p).peerAccepted = false ∨ ready = false)) ∨ (portSt s p).state = .align →
    ∃ t, exec (.status p peerState ready) s = .next t ∧
      (portSt t p).peerReady = ready ∧ (portSt t p).state = (portSt s p).state) ∧
  (∀ (s : State) (p : Port) (cp : Caps),
    s.chip.running = true →
    (portSt s p).state = .negotiate →
    clusterRuns s p = true →
    capsRefusal s p cp = none →
    ∃ t, exec (.caps p cp) s = .next t ∧
      (portSt t p).peerAccepted = true ∧ (portSt t p).peerUnit = cp.unitId ∧
    (portSt t p).peerNode = (if cp.role = 2 ∨ cp.role = 4 then some (cp.node.truncate 11) else none) ∧ (portSt t p).trev11 = (cp.trev == 0x11) ∧
    (portSt t p).enc = (encryption (encPol s p) cp.enc.toNat).getD false ∧
    (portSt t p).fullRate = ((portSt s p).tryFull && rateMax s p && cp.rates.getLsbD 1 && !(cp.trev == 0x11)) ∧
    (portSt t p).state = (if (portSt s p).peerReady then (if (portSt t p).enc then .keying else .up) else .negotiate)) ∧
  (∀ (s : State) (p : Port) (verified : Bool),
    s.chip.running = true →
    (portSt s p).state = .keying →
    ∃ t, exec (.keyingExchange p verified) s = .next t ∧
      (portSt t p).state = (if verified && !s.ten.debug then .up else .detect) ∧ (portSt t p).keyed = (verified && !s.ten.debug)) ∧
  (∀ (s : State) (p : Port) (peerState : BitVec 8),
    s.chip.running = true →
    (portSt s p).state = .negotiate →
    clusterRuns s p = true →
    (portSt s p).peerAccepted = true →
    ∃ t, exec (.status p peerState true) s = .next t ∧
      (portSt t p).state = (if (portSt s p).enc then .keying else .up) ∧ (portSt t p).peerReady = true) ∧
  (∀ (s : State) (p : Port) (cp : Caps) (why : Nat × Bool),
    s.chip.running = true →
    (portSt s p).state = .negotiate →
    clusterRuns s p = true →
    capsRefusal s p cp = some why →
    ∃ t, exec (.caps p cp) s = .next t ∧
      (portSt t p).refused = true ∧ (portSt t p).state = .detect ∧ t.fab.mismatch = (why.2 || s.fab.mismatch)) ∧
  (∀ (s : State) (p : Port) (verified : Bool),
    s.chip.running = true →
    (portSt s p).state = .up →
    (egOf s p).rekeying = true →
    ∃ t, exec (.keyingExchange p verified) s = .next t ∧
      (egOf t p).rekeying = false ∧ (portSt t p).state = (if verified && !s.ten.debug then .up else .detect) ∧
    (portSt t p).epochTx = (verified && !s.ten.debug && !(portSt s p).epochTx) ∧ (portSt t p).epochRx = (verified && !s.ten.debug && !(portSt s p).epochRx) ∧ (portSt t p).oldKey = (verified && !s.ten.debug))

/-- A port that fails a stage goes back to DETECT and tries again. Rows: KEYING_TIMEOUT (R305), PORT_STATE_TIMEOUT
(R292), PORT_RETRY_TIMEOUT (R293), PORT_GIVE_UP_TIMEOUT (R381), DOWN (R299), PORT_FORCED (R358). A clause that
follows a reading of the model's where the spec leaves a point open follows log entry 57. -/
def Obligations.PortFallsBack : Prop :=
  (∀ (s : State) (p : Port),
    s.chip.running = true →
    (portSt s p).state = .keying →
    ∃ t, exec (.keyingTimeout p) s = .next t ∧
      (portSt t p).state = .detect) ∧
  (∀ (s : State) (p : Port) (b : PortBound),
    s.chip.running = true →
    (((portSt s p).state = .equalise ∨ (portSt s p).state = .align ∨ (portSt s p).state = .negotiate ∨ (portSt s p).state = .keying) ∧ clusterRuns s p = true) ∨ (portSt s p).state = .recover ∨ ((portSt s p).state = .up ∧ b ≠ .stateBound) →
    ∃ t, exec (.portStateTimeout p b) s = .next t ∧
      (portSt t p).state = .detect ∧ (portSt t p).active = 0 ∧ (portSt t p).locked = 0) ∧
  (∀ (s : State) (p : Port),
    s.chip.running = true →
    ∃ t, exec (.portRetryTimeout p) s = .next t ∧
      (portSt t p).refused = false ∧ (portSt t p).state = (portSt s p).state) ∧
  (∀ (s : State) (p : Port),
    s.chip.running = true →
    (portSt s p).state = .detect →
    (portSt s p).signal = 0 →
    ∃ t, exec (.portGiveUpTimeout p) s = .next t ∧
      (portSt t p).givenUp = true ∧ (portSt t p).state = .detect) ∧
  (∀ (s : State) (p : Port) (reason : BitVec 8),
    s.chip.running = true →
    (portSt s p).state ≠ .disabled →
    ∃ t, exec (.down p reason) s = .next t ∧
      (portSt t p).state = .detect) ∧
  (∀ (s : State) (p : Port),
    s.chip.running = true →
    powerRuns s = true →
    s.pwr.level = 3 →
    (portSt s p).state = .up ∨ (portSt s p).state = .recover →
    capLanes s p < lanesOf (portSt s p).width.toNat →
    ∃ t, exec (.portForced p) s = .next t ∧
      (portSt t p).state = .disabled) ∧
  (∀ (s : State) (p : Port) (reason : BitVec 8) (n : BitVec 11),
    AtRest s →
    linkRuns s p = true →
    (portSt s p).peerNode = some n →
    2 ≤ reason.toNat →
    reason.toNat ≤ 4 →
    s.coll.ctxs = [] →
    s.coll.opens = [] →
    ∃ t, exec (.down p reason) s = .next t ∧
      (portSt t p).state = .detect ∧ quarantined t (0x4800 + n.toNat) = true)

/-- Lanes and widths of a running port. Rows: LANE_LOCK_LOST (R297), UNCORRECTABLE_CODEWORD (R285), WIDTH (R296),
LANE_UE_THRESHOLD (R296), WIDTH_SWITCH (R296), LANE_RETRAIN_DONE (R296). A clause that follows a reading of the
model's where the spec leaves a point open follows log entries 58, 133 and 134. -/
def Obligations.PortLanes : Prop :=
  (∀ (s : State) (p : Port) (lane : Fin 9),
    s.chip.running = true →
    (portSt s p).state ≠ .disabled →
    (portSt s p).state ≠ .detect →
    (portSt s p).state ≠ .recover →
    (portSt s p).locked.getLsbD lane = true →
    (portSt s p).active.getLsbD lane = false →
    ∃ t, exec (.laneLockLost p lane) s = .next t ∧
      (portSt t p).locked = (portSt s p).locked &&& ~~~(BitVec.ofNat 9 (2 ^ lane.val)) ∧ (portSt t p).state = (portSt s p).state ∧
    (portSt t p).active = (portSt s p).active) ∧
  (∀ (s : State) (p : Port) (lane : Fin 9) (c : LaneChange),
    s.chip.running = true →
    (portSt s p).state = .up →
    (portSt s p).locked.getLsbD lane = true →
    (portSt s p).active.getLsbD lane = false →
    (portSt s p).change = some c →
    c.mask.getLsbD lane = true →
    (portSt s p).narrowDue = false →
    ∃ t, exec (.laneLockLost p lane) s = .next t ∧
      (portSt t p).change = none ∧ (portSt t p).state = .up ∧ (portSt t p).active = (portSt s p).active) ∧
  (∀ (s : State) (p : Port) (lane : Fin 9) (sync : Bool) (errored : List Bool),
    s.chip.running = true →
    (portSt s p).state = .up →
    (portSt s p).active.getLsbD lane = true →
    (portSt s p).delin = true →
    unitFate (!isFabricPort s p) errored = .undelineated →
    ∃ t, exec (.uncorrectableCodeword p lane ⟨sync, [errored]⟩) s = .next t ∧
      (portSt t p).delin = false ∧ (portSt t p).state = .up) ∧
  (∀ (s : State) (p : Port) (lane : Fin 9) (sync : Bool) (errored : List Bool),
    s.chip.running = true →
    (portSt s p).state = .up →
    (portSt s p).active.getLsbD lane = true →
    (portSt s p).delin = true →
    unitFate (!isFabricPort s p) errored = .inverted →
    ∃ t, exec (.uncorrectableCodeword p lane ⟨sync, [errored]⟩) s = .next t ∧
      (portSt t p).late = true ∧ (portSt t p).delin = true ∧ (portSt t p).state = .up) ∧
  (∀ (s : State) (p : Port) (w : WidthMsg) (c : LaneChange),
    s.chip.running = true →
    (portSt s p).state = .up →
    w.op ≠ 4 →
    w.ok = true →
    (portSt s p).change = some c →
    c.op = w.op.toNat →
    c.mask = w.mask →
    c.group = w.group →
    ∃ t, exec (.width p w) s = .next t ∧
      (portSt t p).change = some { c with agreed := true }) ∧
  (∀ (s : State) (p : Port) (lane : Fin 9),
    s.chip.running = true →
    (portSt s p).state = .up →
    (portSt s p).change = none →
    (portSt s p).active.getLsbD lane = true →
    clusterRuns s p = true →
    spareFree (portSt s p) = true →
    ∃ t, exec (.laneUeThreshold p lane) s = .next t ∧
      ((portSt t p).change.map (fun c => (c.op, c.mask))) = some (1, BitVec.ofNat 9 ((portSt s p).active.toNat - 2 ^ lane.val + 2 ^ 8))) ∧
  (∀ (s : State) (p : Port) (c : LaneChange),
    s.chip.running = true →
    (portSt s p).change = some c →
    (portSt s p).narrowDue = false →
    ∃ t, exec (.widthSwitch p) s = .next t ∧
      (portSt t p).change = none ∧ (portSt t p).active = (if c.agreed = true ∧ (portSt s p).state = .up then c.mask else (portSt s p).active) ∧
    (portSt t p).width = (if c.agreed = true ∧ (portSt s p).state = .up then widthCode (popCount 9 c.mask.toNat) else (portSt s p).width)) ∧
  (∀ (s : State) (p : Port) (lanes : BitVec 9),
    s.chip.running = true →
    (portSt s p).state = .up →
    ∃ t, exec (.laneRetrainDone p lanes) s = .next t ∧
      (portSt t p).locked = BitVec.ofNat 9 (Nat.lor (portSt s p).locked.toNat (Nat.land (lanes &&& ~~~(portSt s p).off).toNat (laneMask s p)))) ∧
  (∀ (s : State) (p : Port) (lane : Fin 9) (x : PortSt),
    s.chip.running = true →
    (portSt s p).state = .up →
    (portSt s p).locked.getLsbD lane = true →
    (portSt s p).active.getLsbD lane = true →
    x = { portSt s p with locked := (portSt s p).locked &&& ~~~(BitVec.ofNat 9 (2 ^ lane.val)) } →
    2 ≤ popCount 9 (recoverMask (setPort p x s) p) →
    ∃ t, exec (.laneLockLost p lane) s = .next t ∧
      (portSt t p).state = .recover ∧ (portSt t p).change = none ∧ (portSt t p).locked = x.locked ∧
    Puts s t (.linkWidth p { op := 4, mask := BitVec.ofNat 9 (recoverMask (setPort p x s) p), group := 0, ok := false })) ∧
  (∀ (s : State) (p : Port) (lane : Fin 9) (x : PortSt),
    s.chip.running = true →
    (portSt s p).state = .up ∨ (portSt s p).state = .recover →
    (portSt s p).locked.getLsbD lane = true →
    (portSt s p).active.getLsbD lane = true →
    x = { portSt s p with locked := (portSt s p).locked &&& ~~~(BitVec.ofNat 9 (2 ^ lane.val)) } →
    popCount 9 (recoverMask (setPort p x s) p) < 2 →
    ∃ t, exec (.laneLockLost p lane) s = .next t ∧
      (portSt t p).state = .detect) ∧
  (∀ (s : State) (p : Port) (lane : Fin 9) (sync : Bool) (units : List (List Bool)) (k : Cnt),
    AtRest s →
    (portSt s p).state ≠ .disabled →
    (portSt s p).state ≠ .detect →
    k = cntLnkUeCwCnt p lane →
    ∃ t, exec (.uncorrectableCodeword p lane ⟨sync, units⟩) s = .next t ∧
      fieldOf t k.off k.lo k.w = (if sync then fieldOf s k.off k.lo k.w else Nat.min (2 ^ k.w - 1) (fieldOf s k.off k.lo k.w + 1)) ∧
    (units.all (fun e => unitFate (!isFabricPort s p) e != .undelineated) = true → (portSt t p).delin = (portSt s p).delin) ∧
    t.home = s.home) ∧
  (∀ (s : State) (p : Port) (w : WidthMsg) (n : Nat),
    s.chip.running = true →
    (portSt s p).state = .up →
    w.ok = false →
    (portSt s p).change = none →
    w.mask &&& ~~~(portSt s p).locked = 0 →
    n = popCount 9 w.mask.toNat →
    n = 8 ∨ n = 4 ∨ n = 2 →
    (w.op = 1 ∧ n = lanesOf (portSt s p).width.toNat) ∨ (w.op = 2 ∧ n < lanesOf (portSt s p).width.toNat) ∨ (w.op = 3 ∧ lanesOf (portSt s p).width.toNat < n) →
    ∃ t, exec (.width p w) s = .next t ∧
      (portSt t p).change = some { op := w.op.toNat, mask := w.mask, group := w.group, agreed := true } ∧ Puts s t (.linkWidth p { w with ok := true })) ∧
  (∀ (s : State) (p : Port) (w : WidthMsg) (n : Nat),
    s.chip.running = true →
    (portSt s p).state = .recover →
    w.op = 4 →
    w.mask &&& ~~~(portSt s p).locked = 0 →
    n = popCount 9 w.mask.toNat →
    n = 8 ∨ n = 4 ∨ n = 2 →
    ∃ t, exec (.width p w) s = .next t ∧
      (portSt t p).state = .up ∧ (portSt t p).active = w.mask ∧ (portSt t p).width = widthCode n ∧ (w.ok = false → Puts s t (.linkWidth p { w with ok := true }))) ∧
  (∀ (s : State) (p : Port) (lane : Fin 9) (n : Nat),
    s.chip.running = true →
    (portSt s p).state = .up →
    (portSt s p).change = none →
    (portSt s p).active.getLsbD lane = true →
    clusterRuns s p = true →
    spareFree (portSt s p) = false →
    n = widest (popCount 9 ((portSt s p).active.toNat - 2 ^ lane.val)) →
    n ≠ 0 →
    ∃ t, exec (.laneUeThreshold p lane) s = .next t ∧
      ((portSt t p).change.map (fun c => (c.op, c.mask))) = some (2, BitVec.ofNat 9 (bestLanes s p ((portSt s p).active.toNat - 2 ^ lane.val) n))) ∧
  (∀ (s : State) (p : Port) (lane : Fin 9),
    s.chip.running = true →
    (portSt s p).state = .up →
    (portSt s p).change = none →
    (portSt s p).active.getLsbD lane = true →
    clusterRuns s p = false →
    ∃ t, exec (.laneUeThreshold p lane) s = .next t ∧
      lane.val ∈ (portSt t p).ueDue ∧ (portSt t p).change = none) ∧
  (∀ (s : State) (p : Port) (c : LaneChange),
    s.chip.running = true →
    (portSt s p).change = some c →
    (portSt s p).narrowDue = true →
    (portSt s p).state = .up →
    c.agreed = true →
    capLanes s p < lanesOf (widthCode (popCount 9 c.mask.toNat)).toNat →
    ∃ t, exec (.widthSwitch p) s = .next t ∧
      (portSt t p).active = c.mask ∧ (portSt t p).narrowDue = false ∧ (portSt t p).change.map (·.op) = some 2) ∧
  (∀ (s : State) (p : Port) (lanes : BitVec 9) (u : Nat) (n : Nat),
    s.chip.running = true →
    (portSt s p).state = .up →
    clusterRuns s p = true →
    autoWiden s p = true →
    (portSt s p).change = none →
    u = Nat.lor (portSt s p).active.toNat (Nat.land (Nat.land (lanes &&& ~~~(portSt s p).off).toNat (laneMask s p)) 0xFF) →
    n = Nat.min (widest (popCount 9 u)) (capLanes s p) →
    lanesOf (portSt s p).width.toNat < n →
    ∃ t, exec (.laneRetrainDone p lanes) s = .next t ∧
      ((portSt t p).change.map (fun c => (c.op, c.mask))) = some (3, BitVec.ofNat 9 (maskNat ((bitsSet 9 u).take n))))

/-- Tuning, keys and link groups of a running port. Rows: COEFF (R294), REKEY (R305), OLD_KEY_EXPIRE (R305),
LINK_GROUP_SEND (R290). A clause that follows a reading of the model's where the spec leaves a point open follows
log entries 58, 59, 61, 133 and 134. -/
def Obligations.PortLinkGroups : Prop :=
  (∀ (s : State) (p : Port) (cf : Coeff),
    s.chip.running = true →
    cf.reply = 0 →
    cf.req ≠ 0 →
    ¬(cf.req = 2 ∧ (tapsOf (portSt s p) cf.lane).getD (cf.tap.toNat % 4) 0 = 0x7F) →
    ¬(cf.req = 3 ∧ (tapsOf (portSt s p) cf.lane).getD (cf.tap.toNat % 4) 0 = 0x80) →
    coeffLane (portSt s p) cf.lane = true →
    (laneMask s p).testBit cf.lane = true →
    tapsOk (coeffAsk (tapsOf (portSt s p) cf.lane) cf) = true →
    ∃ t, exec (.coeff p cf) s = .next t ∧
      tapsOf (portSt t p) cf.lane = coeffAsk (tapsOf (portSt s p) cf.lane) cf ∧ Puts s t (.linkCoeff p { cf with reply := 1 })) ∧
  (∀ (s : State) (p : Port),
    s.chip.running = true →
    (portSt s p).enc = true →
    (portSt s p).keyed = true →
    (portSt s p).state = .up →
    (portSt s p).change = none →
    (egOf s p).rekeying = false →
    ∃ t, exec (.rekey p) s = .next t ∧
      (egOf t p).rekeying = true ∧ (egOf t p).rekeyDue = false ∧ (portSt t p).epochTx = (portSt s p).epochTx ∧ (portSt t p).state = .up ∧ Puts s t (.keying p)) ∧
  (∀ (s : State) (p : Port),
    s.chip.running = true →
    ∃ t, exec (.oldKeyExpire p) s = .next t ∧
      (portSt t p).oldKey = false ∧ (portSt t p).state = (portSt s p).state) ∧
  (∀ (s : State) (p : Port),
    s.chip.running = true →
    (portSt s p).state = .align ∨ (portSt s p).state = .negotiate ∨ (portSt s p).state = .keying ∨ (portSt s p).state = .up →
    ∃ t, exec (.linkGroupSend p) s = .next t ∧
      Puts s t (.linkStatus p (BitVec.ofNat 8 (portSt s p).state.code) (portSt s p).peerAccepted) ∧
    ((portSt s p).state = .negotiate → Puts s t (.linkCaps p (ownCaps s p)))) ∧
  (∀ (s : State) (p : Port) (cf : Coeff),
    s.chip.running = true →
    cf.reply = 0 →
    cf.req ≠ 0 →
    coeffLane (portSt s p) cf.lane = true →
    (laneMask s p).testBit cf.lane = true →
    tapsOk (coeffAsk (tapsOf (portSt s p) cf.lane) cf) = false →
    ∃ t, exec (.coeff p cf) s = .next t ∧
      (portSt t p).taps = (portSt s p).taps ∧ Puts s t (.linkCoeff p { cf with reply := 2 })) ∧
  (∀ (s : State) (p : Port) (cf : Coeff),
    s.chip.running = true →
    cf.reply ≠ 0 →
    ∃ t, exec (.coeff p cf) s = .next t ∧
      (portSt t p).taps = (portSt s p).taps ∧ (portSt t p).state = (portSt s p).state) ∧
  (∀ (s : State) (p : Port),
    s.chip.running = true →
    (portSt s p).enc = true →
    (portSt s p).keyed = true →
    (portSt s p).state = .recover ∨ ((portSt s p).state = .up ∧ (portSt s p).change ≠ none) →
    (egOf s p).rekeying = false →
    ∃ t, exec (.rekey p) s = .next t ∧
      (egOf t p).rekeyDue = true ∧ (portSt t p).epochTx = (portSt s p).epochTx)

/-- Retimers and laser modules. Rows: RETIMER_POLL (R300), RETIMER_RESET (R300), LASER_SAFETY_SHUTOFF (R302),
LASER_PROBE (R302), LIGHT_RETURN (R302), LASER_MODULE_FAIL (R301), LASER_MODULE_ENABLE (R301). A clause that follows
a reading of the model's where the spec leaves a point open follows log entry 60. -/
def Obligations.RetimersAndLasers : Prop :=
  (∀ (s : State) (p : APort) (present : Bool) (lock : Bool) (temp : BitVec 8),
    s.chip.running = true →
    retimerOn s p = true →
    clusterRuns s p = true →
    mgmtUp s = true →
    ∃ t, exec (.retimerPoll p present lock temp) s = .next t ∧
      (portSt t p).present = present ∧ (portSt t p).rtLock = (present && lock) ∧ (portSt t p).rtTemp = temp) ∧
  (∀ (s : State) (p : APort),
    s.chip.running = true →
    retimerOn s p = true →
    clusterRuns s p = true →
    mgmtUp s = true →
    (portSt s p).state = .detect →
    ∃ t, exec (.retimerReset p) s = .next t ∧
      Puts s t (.retimerReset p (i3cBus p))) ∧
  (∀ (s : State) (p : Port),
    s.chip.running = true →
    isOptical s p = true →
    (portSt s p).state ≠ .disabled →
    (portSt s p).lightOff = false →
    ∃ t, exec (.laserSafetyShutoff p) s = .next t ∧
      (portSt t p).lightOff = true ∧ (portSt t p).state = .detect) ∧
  (∀ (s : State) (p : Port),
    s.chip.running = true →
    (portSt s p).lightOff = true →
    lasersOn s p = true →
    ∃ t, exec (.laserProbe p) s = .next t ∧
      Puts s t (.probe p)) ∧
  (∀ (s : State) (p : Port),
    s.chip.running = true →
    (portSt s p).lightOff = true →
    ∃ t, exec (.lightReturn p) s = .next t ∧
      (portSt t p).lightOff = false) ∧
  (∀ (s : State) (m : Fin 8) (present : Bool),
    s.chip.running = true →
    ∃ t, exec (.laserModuleFail m present) s = .next t ∧
      (tget {} t.lasers m).present = present ∧ (tget {} t.lasers m).enabled = false ∧ (tget {} t.lasers m).fault = present ∧ (tget {} t.lasers m).interlock = (!present) ∧
    [72 + 2 * m.val, 73 + 2 * m.val].all (fun p => (portSt t p).state == (if (portSt s p).state = .disabled then .disabled else .detect)) = true) ∧
  (∀ (s : State) (m : Fin 8),
    s.chip.running = true →
    ∃ t, exec (.laserModuleEnable m) s = .next t ∧
      (tget {} t.lasers m).present = true ∧ (tget {} t.lasers m).enabled = true ∧ (tget {} t.lasers m).fault = false ∧ (tget {} t.lasers m).interlock = false)

/-- Fabric Time: time groups, the servo states, the grandmaster, the rack chain and the pulse. Rows: TIME (R150),
TIME_GROUP_SEND (R289), SERVO_LOCKED (R155), PARENT_LOST (R155), LOCK_LOST (R155), GRANDMASTER_HANDOVER (R149,
R155), CHAIN_TIME_CODE (R151), CHAIN_BREAK (R151), FT_PPS_IN (R153), PPS_MISS (R153), PPS_OUT_EDGE (R153),
LOCK_BOUND_EXPIRE (R385). A clause that follows a reading of the model's where the spec leaves a point open follows
log entries 34, 91 and 92. -/
def Obligations.FabricTimeRows : Prop :=
  (∀ (s : State) (p : Port) (g : TimeGroup),
    s.chip.running = true →
    isFabricPort s p = true →
    ∃ t, exec (.time p g) s = .next t ∧
      tget (0, 0) t.time.lastRx p = (g.rx, g.tx) ∧
    tget (0, 0, 0, false) t.time.heard p = (g.depth.toNat, g.gmNode.toNat, g.state.toNat, g.isGm)) ∧
  (∀ (s : State) (p : Port),
    s.chip.running = true →
    (portSt s p).state = .align ∨ (portSt s p).state = .negotiate ∨ (portSt s p).state = .keying ∨ (portSt s p).state = .up ∨ (portSt s p).state = .recover →
    ∃ t, exec (.timeGroupSend p) s = .next t ∧
      tget 0 t.time.txSeq p = tget 0 s.time.txSeq p + 1 ∧
    Puts s t (.timeGroup p { seq := tget 0 s.time.txSeq p, state := BitVec.ofNat 3 s.time.servo.code, isGm := s.time.isGm, depth := BitVec.ofNat 8 s.time.depth.toNat, gmNode := s.time.gmNode, tx := s.time.count, echoRx := (if isFabricPort s p && (portSt s p).peerSent then (tget (0, 0) s.time.lastRx p).1 else 0), echoTx := (if isFabricPort s p && (portSt s p).peerSent then (tget (0, 0) s.time.lastRx p).2 else 0), rx := 0 })) ∧
  (∀ (s : State) (errPs : BitVec 16),
    s.chip.running = true →
    servoOn s = true →
    s.time.servo = .acquire ∨ s.time.servo = .holdover ∨ s.time.servo = .unlocked →
    timeSource s = true →
    s.time.isGm = true ∨ (servoInput s).natAbs < usQuarters →
    errPs.toNat ≤ 750 →
    ∃ t, exec (.servoLocked errPs) s = .next t ∧
      t.time.servo = .locked ∧ t.time.errPs = errPs ∧ t.time.everLocked = true) ∧
  (∀ (s : State),
    s.chip.running = true →
    s.time.isGm = false →
    servoOn s = true →
    s.time.servo = .locked →
    ∃ t, exec (.parentLost) s = .next t ∧
      t.time.servo = .holdover ∧ t.time.parent = 0x7E ∧ t.time.holdAt = now s) ∧
  (∀ (s : State) (now : Tick),
    s.chip.running = true →
    servoOn s = true →
    s.time.servo = .holdover →
    s.time.started = true →
    s.time.count ≤ now →
    750 < Nat.min 65535 (s.time.errPs.toNat + (now.toNat - s.time.holdAt) / 80000) →
    ∃ t, exec (.lockLost now) s = .next t ∧
      t.time.servo = .unlocked ∧ t.time.count = now ∧ t.time.errPs.toNat = Nat.min 65535 (s.time.errPs.toNat + (now.toNat - s.time.holdAt) / 80000) ∧
    (t.out.drop s.out.length).any (fun e => match e with | .ctlPlane (.readiness _) => true | _ => false) = true) ∧
  (∀ (s : State) (states : List (BitVec 3)) (n : Nat),
    s.chip.running = true →
    s.fab.plane = 0 →
    gmChosen states s = some n →
    ∃ t, exec (.grandmasterHandover states) s = .next t ∧
      t.time.isGm = decide (n = nodeId s) ∧ (s.time.isGm = false ∨ n ≠ nodeId s → t.time.gmNode = BitVec.ofNat 11 n) ∧
    (s.time.isGm = false → n = nodeId s → t.time.started = true)) ∧
  (∀ (s : State) (code : ChainCode) (loopPs : BitVec 20),
    s.chip.running = true →
    s.fab.plane = 0 →
    ∃ t, exec (.chainTimeCode code loopPs) s = .next t ∧
      t.time = { s.time with broken := false, chainBrk := code.broken, loopPs := loopPs }) ∧
  (∀ (s : State),
    s.chip.running = true →
    s.time.broken = false →
    ∃ t, exec (.chainBreak) s = .next t ∧
      t.time.broken = true ∧ t.time.parent = (if s.time.parent = 0x7F then 0x7E else s.time.parent) ∧
    t.time.servo = (if servoOn s = true ∧ s.time.servo = .locked then .holdover else s.time.servo)) ∧
  (∀ (s : State) (stamp : Tick),
    s.chip.running = true →
    servoOn s = true →
    s.time.isGm = true →
    bitAt s ftmBase 1 = true →
    s.time.servo ≠ .acquire →
    stamp.toNat % 4000000000 < 2000000000 →
    ∃ t, exec (.ftPpsIn stamp) s = .next t ∧
      t.time.ppsMiss = 0 ∧ t.time.offsets = ((2 * (stamp.toNat % 4000000000 : Nat) : Int) :: s.time.offsets).take 8) ∧
  (∀ (s : State),
    s.chip.running = true →
    s.time.isGm = true →
    bitAt s ftmBase 1 = true →
    ∃ t, exec (.ppsMiss) s = .next t ∧
      t.time.ppsMiss = s.time.ppsMiss + 1) ∧
  (∀ (s : State) (now : Tick),
    s.chip.running = true →
    s.time.started = true →
    s.time.count ≤ now →
    ∃ t, exec (.ppsOutEdge now) s = .next t ∧
      t.time.count = now ∧ t.chip.ppsOut = (bitAt s ftmBase 2 && decide (now.toNat % 4000000000 < 400000000))) ∧
  (∀ (s : State),
    s.chip.running = true →
    ∃ t, exec (.lockBoundExpire) s = .next t ∧
      t.time.lockBound = true) ∧
  (∀ (s : State) (p : Port) (g : TimeGroup),
    s.chip.running = true →
    isFabricPort s p = false →
    ∃ t, exec (.time p g) s = .next t ∧
      t.time = s.time) ∧
  (∀ (s : State) (code : ChainCode) (loopPs : BitVec 20),
    s.chip.running = true →
    s.fab.plane ≠ 0 →
    ∃ t, exec (.chainTimeCode code loopPs) s = .next t ∧
      t.time.broken = false ∧ t.time.chainBrk = code.broken ∧ t.time.parent = 0x7F ∧ t.time.depth = code.depth + 1 ∧ t.time.gmNode = code.gmNode)

/-- Die bridges, reference clocks, supply loss and thermal trip. Rows: BRIDGE_FLIT_REPLAY (R10), BRIDGE_DOWN (R10),
REFCLK_LOST (R18), SUPPLY_LOSS (R365), THERMAL_TRIP (R365). A clause that follows a reading of the model's where the
spec leaves a point open follows log entries 53, 74 and 136. -/
def Obligations.BridgesAndClocks : Prop :=
  (∀ (s : State) (d : Die) (failed : Bool),
    s.chip.running = true →
    (tget {} s.chip.bridges (dieNum d)).down = false →
    (tget {} s.chip.bridges (dieNum d)).failRun < 15 →
    ∃ t, exec (.bridgeFlitReplay d failed) s = .next t ∧
      (tget {} t.chip.bridges (dieNum d)).failRun = (if failed then (tget {} s.chip.bridges (dieNum d)).failRun + 1 else 0) ∧
    (tget {} t.chip.bridges (dieNum d)).replays = (tget {} s.chip.bridges (dieNum d)).replays + 1) ∧
  (∀ (s : State) (d : Die),
    s.chip.running = true →
    (tget {} s.chip.bridges (dieNum d)).down = false →
    ∃ t, exec (.bridgeDown d) s = .next t ∧
      (tget {} t.chip.bridges (dieNum d)).down = true ∧ (∀ p ∈ List.range 88, dieOf p = dieNum d → (portSt t p).state = .disabled ∨ (portSt t p).state = .detect)) ∧
  (∀ (s : State) (i : Fin 4),
    s.chip.running = true →
    ∃ t, exec (.refclkLost (.sd i)) s = .next t ∧
      t.chip.sdLost.contains i.val = true ∧ (∀ p ∈ List.range 88, sdOf (dieOf p) = i.val → (portSt t p).state = .disabled ∨ (portSt t p).state = .detect)) ∧
  (∀ (s : State),
    s.chip.running = true →
    ∃ t, exec (.refclkLost .sys) s = .next t ∧
      t.chip.running = false ∧ t.chip.stopped = true ∧ t.chip.ppsOut = false ∧ t.lasers.all (fun x => !x.2.enabled) = true) ∧
  (∀ (s : State),
    s.chip.running = true →
    ∃ t, exec (.supplyLoss) s = .next t ∧
      t.chip.running = false ∧ t.chip.stopped = true ∧ t.chip.ppsOut = false ∧ t.lasers.all (fun x => !x.2.enabled) = true) ∧
  (∀ (s : State),
    s.chip.running = true →
    s.chip.porN = true →
    s.chip.sysRstN = true →
    s.chip.tripped = false →
    ∃ t, exec (.supplyLoss) s = .next t ∧
      pinsOf t = { pinsStanding t true with thermtrip := false }) ∧
  (∀ (s : State),
    s.chip.running = true →
    ∃ t, exec (.thermalTrip) s = .next t ∧
      t.chip.running = false ∧ t.chip.stopped = true ∧ t.chip.ppsOut = false ∧ t.lasers.all (fun x => !x.2.enabled) = true ∧ t.chip.tripped = true) ∧
  (∀ (s : State),
    s.chip.running = true →
    s.chip.porN = true →
    ∃ t, exec (.thermalTrip) s = .next t ∧
      pinsOf t = { pinsStanding t true with thermtrip := true }) ∧
  (∀ (s : State),
    s.chip.running = false →
    s.chip.porN = false →
    ∃ t, exec (.thermalTrip) s = .next t ∧
      t.chip.tripped = true ∧ t.chip.running = false ∧ (pinsOf t).thermtrip = true ∧ (pinsOf t).alert = false) ∧
  (∀ (s : State) (d : Die),
    s.chip.running = true →
    (tget {} s.chip.bridges (dieNum d)).down = false →
    15 ≤ (tget {} s.chip.bridges (dieNum d)).failRun →
    ∃ t, exec (.bridgeFlitReplay d true) s = .next t ∧
      (tget {} t.chip.bridges (dieNum d)).down = true ∧ (∀ p ∈ List.range 88, dieOf p = dieNum d → (portSt t p).state = .disabled ∨ (portSt t p).state = .detect)) ∧
  (∀ (s : State),
    AtRest s →
    s.home.host = [] →
    ∃ t, exec (.refclkLost .cxl) s = .next t ∧
      t.chip.cxlClkLost = true ∧ t.hif.cxl.up = false)

/-- The reset pins: what a low level clears and keeps, and what a high level starts. Rows: POR_N (R368), SYS_RST_N
(R368), PERST_N (R368). A clause that follows a reading of the model's where the spec leaves a point open follows
log entries 53 and 110. -/
def Obligations.ResetPins : Prop :=
  (∀ (s : State),
    s.chip.porN = true →
    ∃ t, exec (.porN false) s = .next t ∧
      t.chip.porN = false ∧ t.chip.running = false ∧ t.fab.state = .reset ∧ t.regs = [] ∧ t.home = {} ∧ t.fw.flash = s.fw.flash ∧ t.fuses = s.fuses) ∧
  (∀ (s : State),
    s.chip.porN = false →
    ∃ t, exec (.porN true) s = .next t ∧
      t.chip.porN = true ∧ t.chip.running = (s.chip.sysRstN && !s.chip.tripped) ∧ t.fuses = s.fuses) ∧
  (∀ (s : State),
    s.chip.sysRstN = true →
    ∃ t, exec (.sysRstN false) s = .next t ∧
      t.chip.sysRstN = false ∧ t.chip.running = false ∧ t.fab.state = .reset ∧ t.regs = [] ∧ t.home = {} ∧ t.fw.flash.slotA = s.fw.flash.slotA ∧ t.fw.flash.slotB = s.fw.flash.slotB ∧ t.fuses = s.fuses) ∧
  (∀ (s : State),
    s.chip.sysRstN = false →
    ∃ t, exec (.sysRstN true) s = .next t ∧
      t.chip.sysRstN = true ∧ t.chip.running = (s.chip.porN && !s.chip.tripped) ∧ t.fuses = s.fuses) ∧
  (∀ (s : State) (level : Bool),
    ∃ t, exec (.perstN level) s = .next t ∧
      t.chip.perstN = level ∧ (level = false → t.fw.agreed = none))

/-- Power and thermal control. Rows: POWER_BOUNDARY (R359), POWER_RISE_BOUNDARY (R360), PWR_BRAKE_N (R359),
UNDERVOLT (R365), UNDERVOLT_CLEAR (R365), PWR_CAP (R361), PWR_TM_HB (R361), TM_LOST (R365), ORPHAN (R365). A clause
that follows a reading of the model's where the spec leaves a point open follows log entries 52 and 107. -/
def Obligations.PowerRows : Prop :=
  (∀ (s : State) (now : Tick) (avgW : BitVec 11) (tj : BitVec 10) (sensor : BitVec 5) (l : Nat),
    s.chip.running = true →
    powerRuns s = true →
    now.toNat % 4000000 = 0 →
    l = Nat.max (heldDemand { s with pwr := { s.pwr with tj := tj } }) (if powerCap s < avgW.toNat then Nat.min 3 (s.pwr.level.toNat + 1) else 0) →
    ∃ t, exec (.powerBoundary now avgW tj sensor) s = .next t ∧
      t.pwr.avgW = avgW ∧ t.pwr.tj = tj ∧ t.pwr.sensor = sensor ∧ t.pwr.boundary = some now.toNat ∧ t.pwr.capUnmet = decide (powerCap s < avgW.toNat) ∧
    t.pwr.level.toNat = (if l ≤ s.pwr.level.toNat then s.pwr.level.toNat else if s.pwr.last.any (fun x => decide (now.toNat < x + 400000000)) then 3 else l)) ∧
  (∀ (s : State) (now : Tick) (avg100W : BitVec 11),
    s.chip.running = true →
    powerRuns s = true →
    now.toNat % 400000000 = 0 →
    s.pwr.level ≠ 0 →
    s.pwr.last.all (fun x => decide (x + 400000000 ≤ now.toNat)) = true →
    heldDemand s < s.pwr.level.toNat →
    s.pwr.avgW.toNat ≤ powerCap s →
    avg100W.toNat * levelTotal (s.pwr.level.toNat - 1) ≤ powerCap s * levelTotal s.pwr.level.toNat →
    s.pwr.tj.toNat + 20 ≤ levelThreshold s.pwr.level.toNat →
    ∃ t, exec (.powerRiseBoundary now avg100W) s = .next t ∧
      t.pwr.level = s.pwr.level - 1 ∧ t.pwr.last = some now.toNat) ∧
  (∀ (s : State) (now : Tick),
    s.chip.running = true →
    s.chip.brakePin = false →
    ∃ t, exec (.pwrBrakeN false now) s = .next t ∧
      t.chip.brakePin = true ∧ 2 ≤ t.pwr.level.toNat) ∧
  (∀ (s : State) (level : Bool) (now : Tick),
    s.chip.running = false →
    ∃ t, exec (.pwrBrakeN level now) s = .next t ∧
      t = { s with chip := { s.chip with brakePin := !level } }) ∧
  (∀ (s : State) (now : Tick),
    s.chip.running = true →
    ∃ t, exec (.pwrBrakeN true now) s = .next t ∧
      t.chip.brakePin = false) ∧
  (∀ (s : State) (now : Tick),
    s.chip.running = true →
    s.pwr.undervolt = false →
    ∃ t, exec (.undervolt now) s = .next t ∧
      t.pwr.undervolt = true ∧ 2 ≤ t.pwr.level.toNat) ∧
  (∀ (s : State),
    s.chip.running = true →
    ∃ t, exec (.undervoltClear) s = .next t ∧
      t.pwr.undervolt = false) ∧
  (∀ (s : State) (watts : BitVec 32) (sampleW : BitVec 11) (now : Tick),
    s.chip.running = true →
    powerRuns s = true →
    mgmtUp s = true →
    watts.toNat ≤ 1400 →
    ∃ t, exec (.pwrCap watts sampleW now) s = .next t ∧
      t.pwr.tmLost = false ∧ t.pwr.orphan = false ∧ t.pwr.orphaned = false ∧ t.pwr.capWritten = true ∧ fieldOf t (pwrBase + 4) 0 11 = watts.toNat ∧ (watts.toNat < sampleW.toNat → 2 ≤ t.pwr.level.toNat ∧ t.pwr.capUnmet = true)) ∧
  (∀ (s : State),
    s.chip.running = true →
    powerRuns s = true →
    mgmtUp s = true →
    ∃ t, exec (.pwrTmHb) s = .next t ∧
      t.pwr.tmLost = false ∧ t.pwr.orphaned = false) ∧
  (∀ (s : State),
    s.chip.running = true →
    powerRuns s = true →
    ∃ t, exec (.tmLost) s = .next t ∧
      t.pwr.tmLost = true) ∧
  (∀ (s : State) (sampleW : BitVec 11) (now : Tick),
    s.chip.running = true →
    powerRuns s = true →
    s.pwr.tmLost = true →
    s.pwr.orphaned = false →
    ∃ t, exec (.orphan sampleW now) s = .next t ∧
      t.pwr.orphan = true ∧ t.pwr.orphaned = true ∧ fieldOf t (pwrBase + 4) 0 11 = fieldOf s pwrBase 0 11 ∧ (fieldOf s pwrBase 0 11 < sampleW.toNat → 2 ≤ t.pwr.level.toNat ∧ t.pwr.capUnmet = true)) ∧
  (∀ (s : State) (watts : BitVec 32) (sampleW : BitVec 11) (now : Tick),
    s.chip.running = true →
    powerRuns s = true →
    mgmtUp s = true →
    1400 < watts.toNat →
    ∃ t, exec (.pwrCap watts sampleW now) s = .next t ∧
      t.pwr.tmLost = false ∧ t.pwr.orphan = s.pwr.orphan ∧ t.pwr.level = s.pwr.level ∧ fieldOf t (pwrBase + 4) 0 11 = fieldOf s (pwrBase + 4) 0 11)

/-- Training of the memories, announces on the rack chain, and FAB_JOIN. Rows: MEMORY_TRAINED (R376), RACK_ANNOUNCE
(R379), RACK_ANNOUNCE_SEND (R379), FAB_JOIN (R384), HEALTH_SCORE_UPDATE (R396), HEALTH_EXPORT (R398). A clause that
follows a reading of the model's where the spec leaves a point open follows log entries 54, 56 and 70. -/
def Obligations.StartUp : Prop :=
  (∀ (s : State) (tier : Tier) (failed : BitVec 128),
    s.chip.running = true →
    s.fab.catalogue = true →
    ∃ t, exec (.memoryTrained tier failed) s = .next t ∧
      (match tier with | .stacks => t.fab.stkTrained | .annex => t.fab.anxTrained) = true ∧
    (tier = .stacks → s.fab.stkTrained = false → ∀ n ∈ bitsSet 128 failed.toNat, t.home.pcOut.contains n = true) ∧
    (tier = .annex → s.fab.anxTrained = false → ∀ n ∈ bitsSet 16 failed.toNat, t.home.pcOut.contains (128 + n) = true)) ∧
  (∀ (s : State) (a : Announce) (direct : Bool),
    s.chip.running = true →
    s.fab.catalogue = true →
    a.node.toNat ≠ nodeId s →
    ∃ t, exec (.rackAnnounce a direct) s = .next t ∧
      Puts s t (.chainAnnounce a) ∧ (direct = true → announceOk s a = false → t.fab.mismatch = true ∧ t.time.broken = true)) ∧
  (∀ (s : State),
    s.chip.running = true →
    s.fab.catalogue = true →
    ∃ t, exec (.rackAnnounceSend) s = .next t ∧
      Puts s t (.chainAnnounce { node := BitVec.ofNat 11 (nodeId s), unitId := s.fuses.serial, domain := s.fab.domain, modes := s.fab.modes })) ∧
  (∀ (s : State) (c : Chan) (dma : Bytes) (inp : Bytes),
    AtRest s →
    MbxRuns s c 0x25 dma inp →
    ∃ t, exec (.fabJoin c dma) s = .next t ∧
      t.fab.state = .ready ∧ t.fab.joined = true ∧ t.fab.transit = true ∧ MbxEnded t c .done ∧
    t.home = s.home) ∧
  (∀ (s : State) (now : Tick),
    AtRest s →
    bitAt s (mgtBase + 0x400) 0 = true →
    mgmtRuns s = true →
    s.hif.handed = [] →
    ∃ t, exec (.healthScoreUpdate now) s = .next t ∧
      t.hlth.acc = [] ∧ t.hlth.tjPeak = s.pwr.tj.toNat) ∧
  (∀ (s : State),
    s.chip.running = true →
    bitAt s (mgtBase + 0x400) 1 = true →
    s.fab.collector = true →
    mgmtRuns s = true →
    mgmtUp s = true →
    ∃ t, exec (.healthExport) s = .next t ∧
      (∀ k ∈ List.range 9, Puts s t (.udp (((List.range hlthEntities).filter (fun e => e / 128 == k)).flatMap (scoreRecord s))))) ∧
  (∀ (s : State) (a : Announce) (direct : Bool) (c : Nat) (p : Fin 88),
    s.chip.running = true →
    s.fab.catalogue = true →
    a.node.toNat / 8 = s.fab.rack.toNat →
    c < 11 →
    (a.modes[c]?).isSome = true →
    a.modes[c]? ≠ s.fab.modes[c]? →
    p.val / 8 = c →
    ∃ t, exec (.rackAnnounce a direct) s = .next t ∧
      t.fab.mismatch = true ∧ (portSt t p).heldDown = true ∧ (portSt t p).state = .disabled)

/-- Link-state adverts and routes. Rows: LINK_STATE_ADVERT (R380), ADVERT_ORIGINATE (R380), ADVERT_EXPIRE (R380),
PLANE_SETTLED (R381), ROUTE_RECOMPUTE (R382). A clause that follows a reading of the model's where the spec leaves a
point open follows log entry 55. -/
def Obligations.PlaneView : Prop :=
  (∀ (s : State) (p : Port) (a : Advert),
    s.chip.running = true →
    linkRuns s p = true →
    a.domain = s.fab.domain →
    a.node.toNat ≠ nodeId s ∨ a.unitId ≠ s.fuses.serial →
    s.fab.db.all (fun b => b.node != a.node || decide (b.seq.toNat < a.seq.toNat)) = true →
    ∃ t, exec (.linkStateAdvert p a) s = .next t ∧
      a ∈ t.fab.db ∧ (∀ l ∈ ownLinks s, (portSt s l.port.toNat).state = .up → l.port.toNat ≠ p.val → Puts s t (.ctl l.peer (.advert (advertBytes a))))) ∧
  (∀ (s : State),
    s.chip.running = true →
    ∃ t, exec (.advertOriginate) s = .next t ∧
      t.fab.advSeq = s.fab.advSeq + 1 ∧ (∀ l ∈ ownLinks s, (portSt s l.port.toNat).state = .up →
      Puts s t (.ctl l.peer (.advert (advertBytes { node := BitVec.ofNat 11 (nodeId s), unitId := s.fuses.serial, domain := s.fab.domain, seq := s.fab.advSeq + 1, state := BitVec.ofNat 4 s.fab.state.code, transit := s.fab.transit, links := ownLinks s }))))) ∧
  (∀ (s : State) (node : BitVec 11),
    s.chip.running = true →
    ∃ t, exec (.advertExpire node) s = .next t ∧
      t.fab.db = s.fab.db.filter (fun b => !(b.node == node))) ∧
  (∀ (s : State),
    s.chip.running = true →
    s.fab.catalogue = true →
    ((List.range 88).filter (isFabricPort s)).all (portDone s) = true →
    ∃ t, exec (.planeSettled) s = .next t ∧
      t.fab.settled = true) ∧
  (∀ (s : State),
    s.chip.running = true →
    s.fab.settled = true →
    ∃ t, exec (.routeRecompute) s = .next t ∧
      t.fab.routed = true ∧ t.fab.deadLinks = [] ∧ t.fab.routes.map (·.1) = routable s) ∧
  (∀ (s : State) (p : Port) (a : Advert),
    s.chip.running = true →
    linkRuns s p = true →
    a.domain ≠ s.fab.domain →
    ∃ t, exec (.linkStateAdvert p a) s = .next t ∧
      (portSt t p).state = .detect ∧ (portSt t p).refused = true ∧ t.fab.mismatch = true ∧ t.fab.db = s.fab.db)

/-- Boot and the Catalogue. Rows: SPROUT (R342), CATALOGUE_APPLY (R376), CAT_WRITE (R371), NEGOTIATE (R351),
FW_STATUS (R416). A clause that follows a reading of the model's where the spec leaves a point open follows log
entries 49 and 50. -/
def Obligations.BootRows : Prop :=
  (∀ (s : State) (d : Directory),
    s.chip.running = true →
    s.fab.state = .reset →
    s.fw.recovery = false →
    coreSt s coreSec ≠ .held →
    s.fw.flash.readable = true →
    mgmtUp s = true →
    s.fw.flash.dir = some d →
    ∃ t, exec (.sprout) s = .next t ∧
      t.fab.state = (if (slotCheck s (slotBytes s d.active)).1 = .done ∨ (slotCheck s (slotBytes s (!d.active))).1 = .done then .sprout else .recovery) ∧
    t.fw.booted = ((slotCheck s (slotBytes s d.active)).1 == .done || (slotCheck s (slotBytes s (!d.active))).1 == .done || s.fw.booted)) ∧
  (∀ (s : State),
    s.chip.running = true →
    s.fab.state = .sprout →
    mgmtRuns s = true →
    s.fab.catalogue = false →
    s.fw.flash.readable = true →
    mgmtUp s = true →
    ∃ t, exec (.catalogueApply) s = .next t ∧
      t.fab.catalogue = ((catTry s s.fw.flash.cat0).1.isSome || (catTry s s.fw.flash.cat1).1.isSome) ∧
    (t.fab.catalogue = false → t.fab.state = .faulted ∧ t.fab.cause = 1) ∧ (t.fab.catalogue = true → t.fab.state ≠ .sprout ∧ t.fab.state ≠ .faulted)) ∧
  (∀ (s : State) (c : Chan) (dma : Bytes) (inp : Bytes),
    AtRest s →
    MbxRuns s c 0x06 dma inp →
    s.fw.staging = false →
    mgmtUp s = true →
    ∃ t, exec (.catWrite c dma) s = .next t ∧
      MbxEnded t c (catCheck s inp).1 ∧ ((catCheck s inp).1 = .done → t.fw.flash.cat0 = some inp ∧ t.fw.flash.cat1 = some inp) ∧
    ((catCheck s inp).1 ≠ .done → t.fw.flash.cat0 = s.fw.flash.cat0 ∧ t.fw.flash.cat1 = s.fw.flash.cat1)) ∧
  (∀ (s : State) (c : Chan) (dma : Bytes) (inp : Bytes),
    AtRest s →
    MbxRuns s c 0x01 dma inp →
    featureBusy s (s.fw.agreed.getD 0 &&& ~~~(BitVec.ofNat 64 (beField inp 4 8) &&& ownFeatures)) = false →
    mbxFits s c 12 = true →
    ∃ t, exec (.negotiate c dma) s = .next t ∧
      t.fw.agreed = some (BitVec.ofNat 64 (beField inp 4 8) &&& ownFeatures) ∧ MbxEnded t c .done) ∧
  (∀ (s : State) (c : Chan) (dma : Bytes) (inp : Bytes),
    AtRest s →
    MbxRuns s c 0x02 dma inp →
    mbxFits s c 64 = true →
    ∃ t, exec (.fwStatus c dma) s = .next t ∧
      MbxEnded t c .done ∧ (chan t c).outLen = 64) ∧
  (∀ (s : State),
    s.chip.running = true →
    s.fab.state = .reset →
    s.fw.recovery = false →
    coreSt s coreSec ≠ .held →
    s.fw.flash.readable = false ∨ mgmtUp s = false ∨ s.fw.flash.dir = none →
    ∃ t, exec (.sprout) s = .next t ∧
      t.fab.state = .recovery ∧ t.fw.recovery = true ∧ t.fw.reason = 2) ∧
  (∀ (s : State),
    s.chip.running = true →
    s.fab.state = .sprout →
    mgmtRuns s = true →
    s.fw.flash.readable = false ∨ mgmtUp s = false →
    ∃ t, exec (.catalogueApply) s = .next t ∧
      t.fab.state = .faulted ∧ t.fab.cause = 1 ∧ t.fab.catalogue = s.fab.catalogue)

/-- Staging and activating firmware. Rows: FW_STAGE (R346), FW_ACTIVATE (R347), ACTIVATION_STAGE (R348),
ACTIVATION_STAGE_TIMEOUT (R350), ACTIVATION_START_TIMEOUT (R348), POWER_STAGE_DEFERRED_RUN (R349), FW_ARB_COMMIT
(R343). A clause that follows a reading of the model's where the spec leaves a point open follows log entries 50 and
105. -/
def Obligations.FirmwareUpdates : Prop :=
  (∀ (s : State) (c : Chan) (data : Bytes) (inp : Bytes),
    AtRest s →
    MbxRuns s c 0x03 [] inp →
    s.fw.stage = 0 →
    beField inp 8 4 ≤ slotSize →
    mgmtUp s = true →
    dmaOn s = true →
    ∃ t, exec (.fwStage c (.ok data)) s = .next t ∧
      (if activeB s then t.fw.flash.slotA else t.fw.flash.slotB) = some (slice data 0 (beField inp 8 4)) ∧
    Puts s t (.hostRead (beField inp 0 8) (beField inp 8 4)) ∧ MbxEnded t c (slotCheck s (slice data 0 (beField inp 8 4))).1) ∧
  (∀ (s : State) (c : Chan) (dma : Bytes) (inp : Bytes),
    AtRest s →
    MbxRuns s c 0x04 dma inp →
    beField inp 0 1 = 1 →
    ∃ t, exec (.fwActivate c dma) s = .next t ∧
      t.fw.stage = (if (activateCheck s 1).1 = .done then 1 else s.fw.stage) ∧ ((activateCheck s 1).1 ≠ .done → MbxEnded t c (activateCheck s 1).1)) ∧
  (∀ (s : State) (now : Tick),
    s.chip.running = true →
    s.fw.stage = 1 →
    s.fw.back = false →
    checkSoon (advance now s) = false →
    ∃ t, exec (.activationStage now) s = .next t ∧
      t.fw.stage = 2 ∧ (coreSt s coreSched = .running → coreSt t coreSched = .switching)) ∧
  (∀ (s : State),
    s.chip.running = true →
    2 ≤ s.fw.stage →
    s.fw.stage ≤ 5 →
    s.fw.back = false →
    ∃ t, exec (.activationStageTimeout) s = .next t ∧
      t.fw.stage = (if s.fw.stage = 2 then 0 else s.fw.stage - 1) ∧ t.fw.back = decide (s.fw.stage ≠ 2) ∧ t.fw.actChan = none ∧ activeB t = activeB s ∧ (stageCores (s.fw.stage - 1)).all (fun n => coreSt s n != .switching || coreSt t n == .running) = true) ∧
  (∀ (s : State),
    s.chip.running = true →
    s.fw.stage = 1 →
    ∃ t, exec (.activationStartTimeout) s = .next t ∧
      t.fw.stage = 0 ∧ t.fw.actChan = none) ∧
  (∀ (s : State),
    s.chip.running = true →
    s.fw.stage = 6 →
    emergWord s = 0 →
    ∃ t, exec (.powerStageDeferredRun) s = .next t ∧
      t.fw.stage = 5 ∧ (coreSt s corePower = .running → coreSt t corePower = .switching)) ∧
  (∀ (s : State) (c : Chan) (dma : Bytes) (inp : Bytes),
    AtRest s →
    MbxRuns s c 0x05 dma inp →
    beField inp 0 1 ≤ 64 →
    beField inp 0 1 ≤ manSvn s.fw.running →
    s.fab.state = .ready →
    s.fw.resetPending = false →
    ∃ t, exec (.fwArbCommit c dma true) s = .next t ∧
      t.fuses.arb = blowTo (beField inp 0 1) s.fuses.arb ∧ MbxEnded t c .done) ∧
  (∀ (s : State) (c : Chan) (dma : Bytes) (inp : Bytes),
    AtRest s →
    MbxRuns s c 0x04 dma inp →
    beField inp 0 1 ≠ 1 →
    ∃ t, exec (.fwActivate c dma) s = .next t ∧
      t.fw.stage = s.fw.stage ∧ MbxEnded t c (activateCheck s (beField inp 0 1)).1) ∧
  (∀ (s : State) (now : Tick),
    s.chip.running = true →
    s.fw.stage = 2 ∨ s.fw.stage = 3 →
    s.fw.back = false →
    stageWhole s (s.fw.stage - 1) = true →
    ∃ t, exec (.activationStage now) s = .next t ∧
      t.fw.stage = s.fw.stage + 1 ∧ (stageCores (s.fw.stage - 1)).all (fun n => coreSt t n == .running) = true ∧
    (stageCores s.fw.stage).all (fun n => coreSt s n != .running || coreSt t n == .switching) = true) ∧
  (∀ (s : State) (now : Tick),
    s.chip.running = true →
    s.fw.stage = 4 →
    s.fw.back = false →
    stageWhole s 3 = true →
    ∃ t, exec (.activationStage now) s = .next t ∧
      t.fw.stage = (if emergWord s = 0 then 5 else 6) ∧ (emergWord s = 0 → coreSt s corePower = .running → coreSt t corePower = .switching)) ∧
  (∀ (s : State) (now : Tick),
    s.chip.running = true →
    s.fw.stage = 5 →
    s.fw.back = false →
    coreSt s corePower = .switching →
    ∃ t, exec (.activationStage now) s = .next t ∧
      t.fw.stage = 0 ∧ t.fw.actChan = none ∧ t.fw.slotB = (!activeB s) ∧ activeB t = (!activeB s) ∧ coreSt t corePower = .running) ∧
  (∀ (s : State) (now : Tick),
    s.chip.running = true →
    2 ≤ s.fw.stage →
    s.fw.stage ≤ 5 →
    s.fw.back = true →
    ∃ t, exec (.activationStage now) s = .next t ∧
      t.fw.stage = (if s.fw.stage = 2 then 0 else s.fw.stage - 1) ∧ t.fw.back = decide (s.fw.stage ≠ 2) ∧ activeB t = activeB s ∧ (stageCores (s.fw.stage - 1)).all (fun n => coreSt s n != .switching || coreSt t n == .running) = true) ∧
  (∀ (s : State) (c : Chan) (dma : Bytes) (inp : Bytes),
    AtRest s →
    MbxRuns s c 0x05 dma inp →
    beField inp 0 1 ≤ 64 →
    ∃ t, exec (.fwArbCommit c dma false) s = .next t ∧
      t.fuses = s.fuses ∧ MbxEnded t c .busy)

/-- The recovery protocol, the Ledger's export, watchdogs and the restart of a core. Rows: DISCOVER (R345), BEGIN
(R345), DATA (R345), END (R345), RECOVERY_SESSION_TIMEOUT (R344), LEDGER_EXPORT (R354), WATCHDOG_EXPIRE (R337),
CORE_RESTART (R337). A clause that follows a reading of the model's where the spec leaves a point open follows log
entries 51, 73, 106 and 135. -/
def Obligations.RecoveryRows : Prop :=
  (∀ (s : State) (h : Nat) (serial : BitVec 64),
    s.chip.running = true →
    recoveryOn s = true →
    serial = 0 ∨ serial = s.fuses.serial →
    ∃ t, exec (.discover h serial) s = .next t ∧
      Puts s t (.recovery (recMsg s 2 0 0 (beBytes 4 Config.romVersion.toNat ++ beBytes 1 (arbCount s) ++ beBytes 1 s.fw.reason))) ∧ t.fw.recSeq = s.fw.recSeq + 1) ∧
  (∀ (s : State) (h : RecFrom) (kind : BitVec 8) (total : BitVec 64),
    s.chip.running = true →
    recoveryOn s = true →
    h.serial = s.fuses.serial →
    s.fw.session.all (fun r => r.host == h.host) = true →
    kind = 2 ∨ (kind = 1 ∧ s.fw.recovery = true) →
    total.toNat ≤ slotSize →
    ∃ t, exec (.beginObject h kind total) s = .next t ∧
      t.fw.session = some { host := h.host, kind := kind.toNat, total := total.toNat } ∧ t.fw.flash.object = [] ∧ Puts s t (.recovery (recMsg s 6 0 0 []))) ∧
  (∀ (s : State) (h : RecFrom) (offset : BitVec 64) (bytes : Bytes) (r : Recovery),
    s.chip.running = true →
    recoveryOn s = true →
    s.fw.session = some r →
    h.serial = s.fuses.serial →
    r.host = h.host →
    offset.toNat = s.fw.flash.object.length →
    bytes ≠ [] →
    bytes.length ≤ 1024 →
    s.fw.flash.object.length + bytes.length ≤ r.total →
    ∃ t, exec (.data h offset bytes) s = .next t ∧
      t.fw.session = some r ∧ t.fw.flash.object = s.fw.flash.object ++ bytes ∧ Puts s t (.recovery (recMsg s 6 0 (s.fw.flash.object.length + bytes.length) []))) ∧
  (∀ (s : State) (h : RecFrom) (r : Recovery),
    s.chip.running = true →
    recoveryOn s = true →
    s.fw.session = some r →
    h.serial = s.fuses.serial →
    r.host = h.host →
    r.kind ≠ 1 →
    s.fw.flash.object.length = r.total →
    ∃ t, exec (.endObject h) s = .next t ∧
      t.fw.session = none ∧ Puts s t (.recovery (recMsg s 6 (catCheck s s.fw.flash.object).1.code r.total [])) ∧
    (t.fw.flash.cat0, t.fw.flash.cat1) = (if (catCheck s s.fw.flash.object).1 = .done then (some s.fw.flash.object, some s.fw.flash.object) else (s.fw.flash.cat0, s.fw.flash.cat1))) ∧
  (∀ (s : State),
    s.chip.running = true →
    ∃ t, exec (.recoverySessionTimeout) s = .next t ∧
      t.fw.session = none) ∧
  (∀ (s : State),
    s.chip.running = true →
    s.fab.collector = true →
    mgmtRuns s = true →
    mgmtUp s = true →
    ∃ t, exec (.ledgerExport) s = .next t ∧
      t.fw.exported = s.fw.head.toNat ∧ (∀ e ∈ datagrams 1024 (s.fw.ledger.filter (fun e => decide (s.fw.exported ≤ e.seq.toNat))), Puts s t e)) ∧
  (∀ (s : State) (core : Fin 18) (u : Tick),
    s.chip.running = true →
    5 ≤ core.val →
    coreSt s core ≠ .held →
    ∃ t, exec (.watchdogExpire core u) s = .next t ∧
      coreSt t core = (if 2 ≤ ((tget [] s.fw.expiries core.val).filter (fun x => decide (Machine.now (advance u s) < x))).length then .held else .inReset) ∧ (core.val = corePower → t.pwr.coreBrake = true ∧ 2 ≤ t.pwr.level.toNat) ∧
    (2 ≤ ((tget [] s.fw.expiries core.val).filter (fun x => decide (Machine.now (advance u s) < x))).length → t.fab.state = .faulted ∧ t.fab.cause = 3)) ∧
  (∀ (s : State) (core : Fin 18),
    s.chip.running = true →
    coreSt s core = .inReset →
    ∃ t, exec (.coreRestart core) s = .next t ∧
      coreSt t core = .running ∧ (core.val = corePower → t.pwr.coreBrake = false)) ∧
  (∀ (s : State) (h : RecFrom) (r : Recovery),
    s.chip.running = true →
    recoveryOn s = true →
    s.fw.session = some r →
    h.serial = s.fuses.serial →
    r.host = h.host →
    r.kind = 1 →
    s.fw.flash.object.length = r.total →
    ∃ t, exec (.endObject h) s = .next t ∧
      t.fw.session = none ∧ Puts s t (.recovery (recMsg s 6 (slotCheck s s.fw.flash.object).1.code r.total [])) ∧
    t.fw.flash.slotA = (if (slotCheck s s.fw.flash.object).1 = .done then some s.fw.flash.object else s.fw.flash.slotA) ∧ ((slotCheck s s.fw.flash.object).1 = .done → t.fab.state = .reset)) ∧
  (∀ (s : State) (core : Fin 18) (u : Tick),
    s.chip.running = true →
    core.val < 4 →
    coreSt s core ≠ .held →
    ∃ t, exec (.watchdogExpire core u) s = .next t ∧
      (∀ m ∈ List.range 4, coreSt t m = (if coreSt s m = .held ∨ (m = core.val ∧ 2 ≤ ((tget [] s.fw.expiries core.val).filter (fun x => decide (Machine.now (advance u s) < x))).length) then .held else .inReset)) ∧
    (∀ c ∈ List.range 4, (chan t c).started = false ∨ (chan s c).busy = false)) ∧
  (∀ (s : State) (core : Fin 18) (u : Tick),
    s.chip.running = true →
    core.val = coreSec →
    coreSt s core ≠ .held →
    ∃ t, exec (.watchdogExpire core u) s = .next t ∧
      t.fab.state = (if 2 ≤ ((tget [] s.fw.expiries core.val).filter (fun x => decide (Machine.now (advance u s) < x))).length then .faulted else .reset) ∧ coreSt t coreSec = (if 2 ≤ ((tget [] s.fw.expiries core.val).filter (fun x => decide (Machine.now (advance u s) < x))).length then .held else .running) ∧ t.home = {} ∧ t.coll = {})

/-- Register accesses, and the interrupt vectors. Rows: REGISTER_WRITE (R409), RC_READ (R3), LATCHED_READ (R407),
IRQ_HOLDOFF_EXPIRE (R420), MSIX_UNMASK (R420). A clause that follows a reading of the model's where the spec leaves
a point open follows log entries 62 and 64. -/
def Obligations.RegisterRows : Prop :=
  (∀ (s : State) (off : BitVec 26) (value : BitVec 32) (c : Nat),
    AtRest s →
    barReach s = true →
    s.fab.state ≠ .recovery →
    off.toNat % 4 = 0 →
    locate off.toNat = some (.mbx c, 0x08) →
    (chan s c).busy = false →
    ∃ t, exec (.registerWrite off 4 value) s = .next t ∧
      (chan t c).inLen = BitVec.ofNat 26 value.toNat) ∧
  (∀ (s : State) (off : BitVec 26),
    s.chip.running = true →
    barReach s = true →
    off.toNat % 4 = 0 →
    ∃ t, exec (.rcRead off 4) s = .next t ∧
      Puts s t (.hostReply (regRead s off.toNat))) ∧
  (∀ (s : State),
    AtRest s →
    barReach s = true →
    ∃ t, exec (.rcRead (BitVec.ofNat 26 cntGlbWerrCnt.off) 4) s = .next t ∧
      fieldOf t cntGlbWerrCnt.off cntGlbWerrCnt.lo cntGlbWerrCnt.w = 0 ∧
    t.home = s.home) ∧
  (∀ (s : State),
    AtRest s →
    barReach s = true →
    ∃ t, exec (.latchedRead (BitVec.ofNat 26 (ftmBase + 8))) s = .next t ∧
      tget 0 t.hif.latches (ftmBase + 0x0C) = BitVec.ofNat 32 (now s / 2 ^ 32) ∧ Puts s t (.hostReply (regRead s (ftmBase + 8))) ∧
    t.home = s.home) ∧
  (∀ (s : State) (v : Fin 32),
    s.chip.running = true →
    (vecOf s v).holdoff = true →
    (vecOf s v).rose = true →
    (vecOf s v).masked = false →
    ∃ t, exec (.irqHoldoffExpire v) s = .next t ∧
      Puts s t (.msix v)) ∧
  (∀ (s : State) (v : Fin 32),
    AtRest s →
    (vecOf s v).holdoff = true →
    (vecOf s v).rose = false →
    v.val ≠ 0 →
    ∃ t, exec (.irqHoldoffExpire v) s = .next t ∧
      (vecOf t v).holdoff = false) ∧
  (∀ (s : State) (v : Fin 32),
    s.chip.running = true →
    s.hif.cxl.up = true →
    (vecOf s v).masked = true →
    (vecOf s v).pba = true →
    (vecOf s v).holdoff = false →
    ∃ t, exec (.msixUnmask v) s = .next t ∧
      Puts s t (.msix v)) ∧
  (∀ (s : State) (value : BitVec 32),
    AtRest s →
    barReach s = true →
    s.fab.state ≠ .recovery →
    s.fab.catalogue = true →
    s.hif.staging.length < 256 →
    ∃ t, exec (.registerWrite (BitVec.ofNat 26 (cxlBase + 0x104)) 4 value) s = .next t ∧
      t.hif.staging.any (fun x => x.1 == cxlBase + 0x104 && x.2 == value) = true ∧ word t (cxlBase + 0x104) = word s (cxlBase + 0x104)) ∧
  (∀ (s : State) (off : BitVec 26) (size : Nat) (value : BitVec 32),
    AtRest s →
    barReach s = true →
    s.fab.state ≠ .recovery →
    size ≠ 4 ∨ off.toNat % 4 ≠ 0 →
    ∃ t, exec (.registerWrite off size value) s = .next t ∧
      fieldOf t cntGlbWerrCnt.off cntGlbWerrCnt.lo cntGlbWerrCnt.w = Nat.min (2 ^ cntGlbWerrCnt.w - 1) (fieldOf s cntGlbWerrCnt.off cntGlbWerrCnt.lo cntGlbWerrCnt.w + 1) ∧
    t.hif.werrOff = off ∧ t.hif.werrSt.toNat = Status.malformed.code) ∧
  (∀ (s : State) (off : BitVec 26) (size : Nat),
    s.chip.running = true →
    barReach s = true →
    size ≠ 4 ∨ off.toNat % 4 ≠ 0 →
    ∃ t, exec (.rcRead off size) s = .next t ∧
      Puts s t (.hostReply 0xFFFFFFFF))

/-- The CXL link, the memory-device mailbox and DOE. Rows: CXL_LINK_DOWN (R24), CXL_LINK_UP (R402),
IDENTIFY_MEMORY_DEVICE (R400), GET_SUPPORTED_LOGS (R400), GET_LOG (R400), GET_PARTITION_INFO (R400),
GET_EVENT_RECORDS (R400), CLEAR_EVENT_RECORDS (R400), DOE_REQUEST (R400). The layouts of the answers of the memory
device are the model's (log entry 67), and so are the reset values of the link (log entry 1). -/
def Obligations.CxlRows : Prop :=
  (∀ (s : State),
    AtRest s →
    s.home.host = [] →
    ∃ t, exec (.cxlLinkDown) s = .next t ∧
      t.hif.cxl.up = false ∧ t.hif.cxl.bme = false) ∧
  (∀ (s : State) (width : BitVec 4) (speed : BitVec 2) (busMaster : Bool),
    AtRest s →
    s.fab.state ≠ .reset →
    s.chip.perstN = true →
    (tget {} s.chip.bridges 0).down = false →
    width = 1 ∨ width = 2 ∨ width = 4 ∨ width = 8 →
    speed ≠ 3 →
    ∃ t, exec (.cxlLinkUp width speed busMaster) s = .next t ∧
      t.chip.cxlClkLost = false ∧ t.hif.cxl.up = true ∧ t.hif.cxl.width = width ∧ t.hif.cxl.speed = speed ∧ t.hif.cxl.bme = busMaster) ∧
  (∀ (s : State),
    s.chip.running = true →
    s.hif.cxl.up = true →
    ∃ t, exec (.identifyMemoryDevice) s = .next t ∧
      Puts s t (.mdMailbox mdOk mdIdentify)) ∧
  (∀ (s : State),
    s.chip.running = true →
    s.hif.cxl.up = true →
    ∃ t, exec (.getSupportedLogs) s = .next t ∧
      Puts s t (.mdMailbox mdOk mdLogs)) ∧
  (∀ (s : State) (off : BitVec 32) (len : BitVec 32),
    s.chip.running = true →
    s.hif.cxl.up = true →
    off.toNat + len.toNat ≤ 24 →
    ∃ t, exec (.getLog off len) s = .next t ∧
      Puts s t (.mdMailbox mdOk (slice mdEffects off.toNat len.toNat))) ∧
  (∀ (s : State),
    s.chip.running = true →
    s.hif.cxl.up = true →
    ∃ t, exec (.getPartitionInfo) s = .next t ∧
      Puts s t (.mdMailbox mdOk mdPartition)) ∧
  (∀ (s : State) (log : BitVec 8),
    s.chip.running = true →
    s.hif.cxl.up = true →
    log.toNat < 4 →
    ∃ t, exec (.getEventRecords log) s = .next t ∧
      Puts s t (.mdMailbox mdOk (List.replicate 32 0))) ∧
  (∀ (s : State) (log : BitVec 8),
    s.chip.running = true →
    s.hif.cxl.up = true →
    log.toNat < 4 →
    ∃ t, exec (.clearEventRecords log) s = .next t ∧
      Puts s t (.mdMailbox mdOk [])) ∧
  (∀ (s : State) (k : DoeKind),
    s.chip.running = true →
    s.hif.cxl.up = true →
    s.ten.idReady = true →
    ∃ t, exec (.doeRequest k) s = .next t ∧
      Puts s t (.doe k) ∧ (k = .ideKm true → t.hif.cxl.ideIo = true) ∧ (k = .ideKm false → t.hif.cxl.ideMem = true))

/-- The staging set and the commit slots. Rows: ARM (R411), DISCARD (R411), CANCEL (R412), COMMIT_FIRE (R412). A
clause that follows a reading of the model's where the spec leaves a point open follows log entries 63 and 95. -/
def Obligations.CommitRows : Prop :=
  (∀ (s : State) (n : Fin 8) (w : Nat),
    AtRest s →
    barReach s = true →
    s.fab.state ≠ .recovery →
    s.fab.catalogue = true →
    s.hif.staging ≠ [] →
    s.hif.staging.all (stagedOk s) = true →
    (List.range 8).find? (fun m => !(cmtSlot s m).pending) = some n.val →
    w = (word s 0x60).toNat + 2 ^ 32 * (word s 0x64).toNat →
    w = 0 ∨ now s + 8000 ≤ w →
    ∃ t, exec (.arm) s = .next t ∧
      t.hif.staging = [] ∧ (cmtSlot t n).pending = true ∧ (cmtSlot t n).values = s.hif.staging ∧
    (cmtSlot t n).tick = BitVec.ofNat 64 (if w = 0 then now s + 8000 else w) ∧ t.hif.lastStat = 0) ∧
  (∀ (s : State),
    AtRest s →
    barReach s = true →
    s.fab.state ≠ .recovery →
    s.fab.catalogue = true →
    ∃ t, exec (.discard) s = .next t ∧
      t.hif.staging = []) ∧
  (∀ (s : State) (slot : Fin 8),
    AtRest s →
    barReach s = true →
    s.fab.state ≠ .recovery →
    s.fab.catalogue = true →
    (cmtSlot s slot).pending = true →
    now s < (cmtSlot s slot).tick.toNat →
    ∃ t, exec (.cancel slot) s = .next t ∧
      (cmtSlot t slot).pending = false ∧ t.hif.lastStat = 0) ∧
  (∀ (s : State) (slot : Fin 8) (now : Tick) (v : Word),
    AtRest s →
    (cmtSlot s slot).pending = true →
    (cmtSlot s slot).tick ≤ now →
    s.time.started = true →
    s.time.count ≤ now →
    (∀ m ∈ List.range 8, m ≠ slot.val → (cmtSlot s m).pending = false) →
    (cmtSlot s slot).values = [(cxlBase + 0x104, v)] →
    ∃ t, exec (.commitFire slot now) s = .next t ∧
      (cmtSlot t slot).pending = false ∧ fieldOf t (cxlBase + 0x104) 0 23 = bitsOf v.toNat 0 23 ∧
    (homeQuiet s = true → t.home = s.home)) ∧
  (∀ (s : State) (w : Nat),
    AtRest s →
    barReach s = true →
    s.fab.state ≠ .recovery →
    s.fab.catalogue = true →
    s.hif.staging ≠ [] →
    s.hif.staging.all (stagedOk s) = true →
    (List.range 8).any (fun m => !(cmtSlot s m).pending) = true →
    w = (word s 0x60).toNat + 2 ^ 32 * (word s 0x64).toNat →
    w ≠ 0 →
    w < now s + 8000 →
    ∃ t, exec (.arm) s = .next t ∧
      t.hif.staging = s.hif.staging ∧ t.hif.slots = s.hif.slots ∧ t.hif.lastStat.toNat = Status.late.code) ∧
  (∀ (s : State) (slot : Fin 8),
    AtRest s →
    barReach s = true →
    s.fab.state ≠ .recovery →
    s.fab.catalogue = true →
    (cmtSlot s slot).pending = false ∨ (cmtSlot s slot).tick.toNat ≤ now s →
    ∃ t, exec (.cancel slot) s = .next t ∧
      t.hif.slots = s.hif.slots ∧ t.hif.lastStat.toNat = Status.busy.code)

/-- Enabling and disabling a port; HELLO opens an Attach session or refuses it. Rows: EPB_ATT_EN_SET (R30),
EPB_ATT_EN_CLEAR (R30), PRT_EN_SET (R292), PRT_EN_CLEAR (R292), HELLO (R30, R31, R36), HELLO_REPEAT (R30),
HELLO_TIMEOUT (R30). A clause that follows a reading of the model's where the spec leaves a point open follows log
entries 18, 62 and 78. -/
def Obligations.EnableAndHello : Prop :=
  (∀ (s : State) (p : APort),
    AtRest s →
    barReach s = true →
    s.fab.state ≠ .recovery →
    s.fab.catalogue = true →
    s.fab.joined = true →
    ∃ t, exec (.epbAttEnSet p) s = .next t ∧
      bitAt t (epbBase p) 0 = true) ∧
  (∀ (s : State) (p : APort),
    AtRest s →
    barReach s = true →
    s.fab.state ≠ .recovery →
    s.fab.catalogue = true →
    s.fab.joined = true →
    (sess s p).state = .down →
    ∃ t, exec (.epbAttEnClear p) s = .next t ∧
      bitAt t (epbBase p) 0 = false) ∧
  (∀ (s : State) (p : APort),
    AtRest s →
    barReach s = true →
    s.fab.state ≠ .recovery →
    s.fab.catalogue = true →
    s.fab.joined = true →
    bitAt s (epbBase p) 0 = false →
    (sess s p).state = .down →
    linkUp s p = true →
    ∃ t, exec (.epbAttEnSet p) s = .next t ∧
      (sess t p).state = .hello ∧ Puts s t (.attach p (helloMsg (sess t p) 1 .done))) ∧
  (∀ (s : State) (p : Port),
    s.chip.running = true →
    barReach s = true →
    s.fab.state ≠ .recovery →
    s.fab.catalogue = true →
    bitAt s (prtBase p) 0 = false →
    (portSt s p).state = .disabled →
    portHeld (portSt s p) = false →
    linksOn s = true →
    clusterMode s (p.val / 8) ≠ 0 →
    ∃ t, exec (.prtEnSet p) s = .next t ∧
      (portSt t p).state = .detect) ∧
  (∀ (s : State) (p : Port),
    s.chip.running = true →
    barReach s = true →
    s.fab.state ≠ .recovery →
    s.fab.catalogue = true →
    bitAt s (prtBase p) 0 = true →
    ∃ t, exec (.prtEnClear p) s = .next t ∧
      (portSt t p).state = .disabled) ∧
  (∀ (s : State) (p : APort) (m : AttMsg),
    AtRest s →
    (sess s p).state = .hello →
    m.opc = 0x3C →
    helloAccepted s p m = true →
    portBound s p = true →
    ∃ t, exec (.hello p m) s = .next t ∧
      (sess t p).state = .up ∧ (sess t p).rspCrd = beField m.payload 4 2 ∧ (sess t p).inbCrd = beField m.payload 6 2 ∧ (sess t p).rxMsn = 0 ∧ (sess t p).txMsn = 0 ∧
    (sess t p).unacked = []) ∧
  (∀ (s : State) (p : APort) (m : AttMsg),
    AtRest s →
    (sess s p).state = .hello →
    m.opc = 0x3C →
    helloAccepted s p m = false →
    ∃ t, exec (.hello p m) s = .next t ∧
      (sess t p).state = .down ∧ (sess t p).refused = true ∧ Puts s t (.attach p (helloMsg (sess s p) 1 .version))) ∧
  (∀ (s : State) (p : APort),
    s.chip.running = true →
    (sess s p).state = .hello →
    ∃ t, exec (.helloRepeat p) s = .next t ∧
      Puts s t (.attach p (helloMsg (sess s p) 1 .done))) ∧
  (∀ (s : State) (p : APort),
    AtRest s →
    (sess s p).state = .hello →
    ∃ t, exec (.helloTimeout p) s = .next t ∧
      (sess t p).state = .down ∧ (sess t p).refused = true ∧
    t.home = s.home)

/-- Custody of what the Oseno sends: ACCEPT, ATTACH_NAK, credits and their timeouts. Rows: ACCEPT (R37, R39),
ATTACH_NAK (R38), CREDIT (R40), ATTACH_MESSAGE_CORRUPT (R37), ATTACH_RESEND_TIMEOUT (R38), ATTACH_TIMEOUT (R51),
FENCE_WAIT_END (R54). A clause that follows a reading of the model's where the spec leaves a point open follows log
entries 17, 18 and 78. -/
def Obligations.AttachCustody : Prop :=
  (∀ (s : State) (p : APort) (msn : BitVec 16),
    AtRest s →
    sessOpen s p = true →
    (sess s p).unacked.any (fun u => u.1 == msn) = true →
    ∃ t, exec (.accept p msn) s = .next t ∧
      (sess t p).unacked = ((sess s p).unacked.dropWhile (fun u => !(u.1 == msn))).drop 1 ∧
    t.home = s.home) ∧
  (∀ (s : State) (p : APort) (msn : BitVec 16) (status : BitVec 8),
    s.chip.running = true →
    sessOpen s p = true →
    (sess s p).halted = false →
    status.toNat ≠ Status.fenced.code →
    ∃ t, exec (.attachNak p msn status) s = .next t ∧
      (∀ u ∈ (sess s p).unacked.dropWhile (fun (u : BitVec 16 × AttMsg) => !(u.1 == msn)), Puts s t (.attach p u.2))) ∧
  (∀ (s : State) (p : APort) (msn : BitVec 16) (status : BitVec 8),
    AtRest s →
    sessOpen s p = true →
    status.toNat = Status.fenced.code →
    ∃ t, exec (.attachNak p msn status) s = .next t ∧
      (sess t p).halted = true ∧ (sess t p).unacked = (sess s p).unacked ∧
    t.home = s.home) ∧
  (∀ (s : State) (p : APort) (counts : BitVec 64),
    AtRest s →
    sessOpen s p = true →
    (sess s p).blocked = [] →
    ∃ t, exec (.credit p counts) s = .next t ∧
      (sess t p).rspCrd = (sess s p).rspCrd + bitsOf counts.toNat 32 16 ∧ (sess t p).inbCrd = (sess s p).inbCrd + bitsOf counts.toNat 16 16 ∧
    t.home = s.home) ∧
  (∀ (s : State) (p : APort),
    s.chip.running = true →
    sessOpen s p = true →
    (sess s p).nakSent = false →
    ∃ t, exec (.attachMessageCorrupt p) s = .next t ∧
      Puts s t (.attach p { opc := 0x3E, msn := (sess s p).rxMsn })) ∧
  (∀ (s : State) (p : APort),
    s.chip.running = true →
    sessOpen s p = true →
    (sess s p).halted = false →
    ∃ t, exec (.attachResendTimeout p) s = .next t ∧
      (∀ u ∈ (sess s p).unacked, Puts s t (.attach p u.2))) ∧
  (∀ (s : State) (p : APort),
    AtRest s →
    sessOpen s p = true →
    quarantined s (slotEp s p) = false →
    s.home.accesses = [] →
    s.trn.send = [] →
    s.coll.ctxs = [] →
    ∃ t, exec (.attachTimeout p) s = .next t ∧
      (sess t p).state = .lost ∧ slotEp s p ∈ t.trn.quar ∧ Puts s t (.ctlPlane (.quarantine (BitVec.ofNat 16 (slotEp s p))))) ∧
  (∀ (s : State) (p : APort),
    AtRest s →
    sessOpen s p = true →
    quarantined s (slotEp s p) = true →
    s.home.accesses = [] →
    ∃ t, exec (.attachTimeout p) s = .next t ∧
      (sess t p).state = .lost ∧ (sess t p).unacked = []) ∧
  (∀ (s : State) (p : APort),
    AtRest s →
    (sess s p).state = .fenced →
    (sess s p).waitEnd = false →
    s.home.accesses = [] →
    ∃ t, exec (.fenceWaitEnd p) s = .next t ∧
      (sess t p).waitEnd = true ∧ (sess t p).inb = [])

/-- READ, WRITE, WRITE_FLAG, ATOMIC and COMMIT are taken into custody and their page is looked up. Rows: READ (R43),
WRITE (R43), WRITE_FLAG (R90), ATOMIC (R44), COMMIT (R119). A clause that follows a reading of the model's where the
spec leaves a point open follows log entries 17 and 20. -/
def Obligations.RequestsTaken : Prop :=
  (∀ (s : State) (p : APort) (m : AttMsg) (k : PageKey),
    s.chip.running = true →
    arrival s p m = .take →
    reqCheck s p 1 m = .done →
    (sess s p).out = [] →
    pagesOf (portTenant s p) m.addr.toNat m.len.toNat = [k] →
    cacheFind s (p.val / 8) k = none →
    (tableOf s (p.val / 8) k.tenant.toNat).isSome = true →
    (missesOf s (p.val / 8)).length < 64 →
    ∃ t, exec (.read p m) s = .next t ∧
      Puts s t (.attach p { opc := 0x3D, msn := m.msn }) ∧ (missesOf t (p.val / 8)).any (fun q => q.key == k) = true) ∧
  (∀ (s : State) (p : APort) (m : AttMsg) (k : PageKey),
    s.chip.running = true →
    arrival s p m = .take →
    reqCheck s p 2 m = .done →
    (sess s p).out = [] →
    pagesOf (portTenant s p) m.addr.toNat m.len.toNat = [k] →
    cacheFind s (p.val / 8) k = none →
    (tableOf s (p.val / 8) k.tenant.toNat).isSome = true →
    (missesOf s (p.val / 8)).length < 64 →
    ∃ t, exec (.write p m) s = .next t ∧
      Puts s t (.attach p { opc := 0x3D, msn := m.msn }) ∧ (missesOf t (p.val / 8)).any (fun q => q.key == k) = true) ∧
  (∀ (s : State) (p : APort) (m : AttMsg) (k : PageKey),
    s.chip.running = true →
    arrival s p m = .take →
    reqCheck s p 3 m = .done →
    (sess s p).out = [] →
    pagesOf (portTenant s p) m.addr.toNat m.len.toNat = [k] →
    cacheFind s (p.val / 8) k = none →
    (tableOf s (p.val / 8) k.tenant.toNat).isSome = true →
    (missesOf s (p.val / 8)).length < 64 →
    ∃ t, exec (.writeFlag p m) s = .next t ∧
      Puts s t (.attach p { opc := 0x3D, msn := m.msn }) ∧ (missesOf t (p.val / 8)).any (fun q => q.key == k) = true) ∧
  (∀ (s : State) (p : APort) (m : AttMsg) (k : PageKey),
    s.chip.running = true →
    arrival s p m = .take →
    reqCheck s p 4 m = .done →
    (sess s p).out = [] →
    pagesOf (portTenant s p) m.addr.toNat m.len.toNat = [k] →
    cacheFind s (p.val / 8) k = none →
    (tableOf s (p.val / 8) k.tenant.toNat).isSome = true →
    (missesOf s (p.val / 8)).length < 64 →
    ∃ t, exec (.atomic p m) s = .next t ∧
      Puts s t (.attach p { opc := 0x3D, msn := m.msn }) ∧ (missesOf t (p.val / 8)).any (fun q => q.key == k) = true) ∧
  (∀ (s : State) (p : APort) (m : AttMsg) (k : PageKey),
    s.chip.running = true →
    arrival s p m = .take →
    reqCheck s p 5 m = .done →
    (sess s p).out = [] →
    pagesOf (portTenant s p) m.addr.toNat m.len.toNat = [k] →
    cacheFind s (p.val / 8) k = none →
    (tableOf s (p.val / 8) k.tenant.toNat).isSome = true →
    (missesOf s (p.val / 8)).length < 64 →
    ∃ t, exec (.commit p m) s = .next t ∧
      Puts s t (.attach p { opc := 0x3D, msn := m.msn }) ∧ (missesOf t (p.val / 8)).any (fun q => q.key == k) = true)

/-- MOVE, marks, and inbound answers. Rows: MOVE (R246), RELEASE_MARK (R46), MARK_DONE (R46), INB_DONE (R49). A
clause that follows a reading of the model's where the spec leaves a point open follows log entries 19, 20 and 27. -/
def Obligations.MovesMarksAndAnswers : Prop :=
  (∀ (s : State) (p : APort) (m : AttMsg),
    AtRest s →
    arrival s p m = .take →
    (moveCheck s p m).1 = .done →
    ∃ t, exec (.move p m) s = .next t ∧
      Puts s t (.attach p { opc := 0x3D, msn := m.msn }) ∧
    t.mov.moves.any (fun v => v.origin == .attach p (nextOut s p) && v.desc == m.payload && v.tenant == BitVec.ofNat 12 (portTenant s p)) = true ∧
    (homeQuiet s = true → t.home = s.home)) ∧
  (∀ (s : State) (p : APort) (m : AttMsg),
    AtRest s →
    arrival s p m = .take →
    reqCheck s p 8 m = .done →
    ∃ t, exec (.releaseMark p m) s = .next t ∧
      Puts s t (.attach p { opc := 0x3D, msn := m.msn }) ∧
    (sess t p).out.any (fun r => r.id == nextOut s p && r.phase == .mark && r.msg.tag == m.tag) = true ∧
    (homeQuiet s = true → t.home = s.home)) ∧
  (∀ (s : State) (p : APort) (tag : BitVec 13) (r : OutReq),
    AtRest s →
    (sess s p).state = .up →
    (sess s p).out = [r] →
    r.phase = .mark →
    r.msg.opc = 8 →
    r.msg.tag = tag →
    r.gone = false →
    (sess s p).blocked = [] →
    2 ≤ (sess s p).rspCrd →
    (sess s p).unacked = [] →
    ∃ t, exec (.markDone p tag) s = .next t ∧
      (sess t p).out = [] ∧ Puts s t (.attach p { opc := 0x21, tag := tag, msn := (sess s p).txMsn }) ∧
    (homeQuiet s = true → t.home = s.home)) ∧
  (∀ (s : State) (p : APort) (m : AttMsg) (r : InbReq),
    AtRest s →
    arrival s p { m with opc := 0x30 } = .take →
    (sess s p).state = .up →
    (sess s p).inb = [r] →
    r.tag = m.tag →
    inbUnsent (sess s p) m.tag = false →
    accOf s r.access = none →
    ∃ t, exec (.inbDone p m) s = .next t ∧
      Puts s t (.attach p { opc := 0x3D, msn := m.msn }) ∧ (sess t p).inb = []) ∧
  (∀ (s : State) (p : APort) (m : AttMsg) (r : InbReq) (a : Access),
    AtRest s →
    arrival s p { m with opc := 0x30 } = .take →
    (sess s p).state = .up →
    (sess s p).inb = [r] →
    r.tag = m.tag →
    r.opc = 0x28 →
    r.locked = false →
    inbUnsent (sess s p) m.tag = false →
    accOf s r.access = some a →
    a.left = 1 →
    a.combine = none →
    a.own = 0 →
    a.reply = none →
    ∃ t, exec (.inbDone p m) s = .next t ∧
      accOf t r.access = none ∧ (sess t p).inb = [])

/-- Bucket reads and descriptor reads return. Rows: BUCKET_READ_RETURN (R69), DESCRIPTOR_MISS_RETURN (R74). A clause
that follows a reading of the model's where the spec leaves a point open follows log entries 9, 22 and 80. -/
def Obligations.TranslationReads : Prop :=
  (∀ (s : State) (c : ACluster) (ecc : Ecc) (m : Miss) (rest : List Miss),
    s.chip.running = true →
    missesOf s c = m :: rest →
    m.port / 8 = c.val →
    (∀ i ∈ List.range 8, (sess s (c.val * 8 + i)).out = []) →
    ∃ t, exec (.bucketReadReturn c ecc) s = .next t ∧
      missesOf t c = rest ∧
    (match bucketResult s c m.key ecc with
      | .ok w => (cacheWays t (cacheSet c m.key)).any (fun e => e.w0 == w.1 && e.w1 == w.2)
      | .error _ => t.xlat.cache == s.xlat.cache) = true) ∧
  (∀ (s : State) (h : HomePt) (ecc : Ecc) (f : Frame) (x : Nat),
    s.chip.running = true →
    tget [] s.xlat.rgnMiss (HomePt.num h) = [f] →
    regionAt s f.dst.toNat f.keyidx = some x →
    sysReadFails s x ecc = false →
    ∃ t, exec (.descriptorMissReturn h ecc) s = .next t ∧
      tget [] t.xlat.rgnMiss (HomePt.num h) = [] ∧ rgnCached t f = true) ∧
  (∀ (s : State) (h : HomePt) (ecc : Ecc) (f : Frame) (r : RecvCtx),
    AtRest s →
    tget [] s.xlat.rgnMiss (HomePt.num h) = [f] →
    (match regionAt s f.dst.toNat f.keyidx with | some x => sysReadFails s x ecc | none => true) = true →
    s.trn.recv = [r] →
    r.sid = fwdSid f →
    inSession r.ipsn f.psn = true →
    r.e = f.psn →
    r.held = [] →
    r.seen = [] →
    f.ord = false →
    ∃ t, exec (.descriptorMissReturn h ecc) s = .next t ∧
      tget [] t.xlat.rgnMiss (HomePt.num h) = [] ∧ t.xlat.rgnCache = s.xlat.rgnCache ∧ t.home.accesses = s.home.accesses ∧ t.trn.recv.map (fun x => x.e) = [f.psn + 1]) ∧
  (∀ (s : State) (c : ACluster) (ecc : Ecc) (m : Miss) (rest : List Miss) (p : APort) (r : OutReq) (w : BitVec 64 × BitVec 64),
    AtRest s →
    missesOf s c = m :: rest →
    m.port / 8 = c.val →
    p.val / 8 = c.val →
    (sess s p).out = [r] →
    (List.range 8).all (fun i => (c.val * 8 + i == p.val) || (sess s (c.val * 8 + i)).out.isEmpty) = true →
    r.phase = .translate →
    r.gone = false →
    r.pages = [{ key := m.key }] →
    (match bucketResult s c m.key ecc with | .ok v => v == w | .error _ => false) = true →
    slotChecks s r.msg.opc.toNat [slotW w] = .done →
    s.trn.send = [] →
    0 < ctxLimit s (unitOf s (BitVec.ofNat 16 (slotEp s p)) (BitVec.ofNat 12 (portTenant s p))) →
    ∃ t, exec (.bucketReadReturn c ecc) s = .next t ∧
      missesOf t c = rest ∧
    t.trn.reqs.any (fun q => q.origin == .attach p r.id && q.opc == r.msg.opc && q.sid.dst == BitVec.ofNat 16 (slotW w).endpoint) = true) ∧
  (∀ (s : State) (c : ACluster) (ecc : Ecc) (m : Miss) (rest : List Miss) (p : APort) (r : OutReq) (st : Status),
    AtRest s →
    missesOf s c = m :: rest →
    m.port / 8 = c.val →
    p.val / 8 = c.val →
    (sess s p).out = [r] →
    (List.range 8).all (fun i => (c.val * 8 + i == p.val) || (sess s (c.val * 8 + i)).out.isEmpty) = true →
    r.phase = .translate →
    r.gone = false →
    r.pages = [{ key := m.key }] →
    (match bucketResult s c m.key ecc with | .ok _ => false | .error x => x == st) = true →
    r.msg.opc ≠ 8 →
    (sess s p).blocked = [] →
    2 ≤ (sess s p).rspCrd →
    (sess s p).unacked = [] →
    ∃ t, exec (.bucketReadReturn c ecc) s = .next t ∧
      missesOf t c = rest ∧ Completed s t p r.msg.tag st ∧ (sess t p).out = [] ∧ t.xlat.cache = s.xlat.cache) ∧
  (∀ (s : State) (h : HomePt) (ecc : Ecc) (f : Frame) (x : Nat) (r : RecvCtx),
    AtRest s →
    tget [] s.xlat.rgnMiss (HomePt.num h) = [f] →
    regionAt s f.dst.toNat f.keyidx = some x →
    sysReadFails s x ecc = false →
    keyCheck s f = .done →
    epFenced s f.dst.toNat = false →
    f.opc ≠ 0 →
    f.opc.toNat < 0x50 →
    s.trn.recv = [r] →
    r.sid = fwdSid f →
    inSession r.ipsn f.psn = true →
    r.e = f.psn →
    r.held = [] →
    r.seen = [] →
    f.ord = false →
    s.mov.arriving = [] →
    s.mov.holding = [] →
    s.mov.oldPages = [] →
    homeReach s (homeOf f) f = .done →
    ∃ t, exec (.descriptorMissReturn h ecc) s = .next t ∧
      t.home.accesses.any (fun a => a.frame == f && a.home == homeOf f && a.op == opOf f.opc) = true ∧ t.trn.recv.map (fun x => x.e) = [f.psn + 1]) ∧
  (∀ (s : State) (h : HomePt) (ecc : Ecc) (f : Frame) (x : Nat) (r : RecvCtx),
    AtRest s →
    tget [] s.xlat.rgnMiss (HomePt.num h) = [f] →
    regionAt s f.dst.toNat f.keyidx = some x →
    sysReadFails s x ecc = false →
    keyCheck s f = .accessDenied →
    epFenced s f.dst.toNat = false →
    s.trn.recv = [r] →
    r.sid = fwdSid f →
    inSession r.ipsn f.psn = true →
    r.e = f.psn →
    r.held = [] →
    r.seen = [] →
    f.ord = false →
    ∃ t, exec (.descriptorMissReturn h ecc) s = .next t ∧
      rgnCached t f = true ∧ t.home.accesses = s.home.accesses ∧ t.trn.recv.map (fun x => x.e) = [f.psn + 1])

/-- XLT_UPDATE, RGN_WRITE and XLT_DRAIN. Rows: XLT_UPDATE (R76), RGN_WRITE (R76), XLT_DRAIN (R78), XLT_DRAIN_DONE
(R78), XLT_DRAIN_TIMEOUT (R78). A clause that follows a reading of the model's where the spec leaves a point open
follows log entries 23, 24 and 102. -/
def Obligations.MappingCommands : Prop :=
  (∀ (s : State) (c : Chan) (dma : Bytes) (inp : Bytes) (b : Nat × Bytes) (k : Nat) (x : Nat) (sp : Nat) (a0 : Nat) (n0 : Nat),
    AtRest s →
    MbxRuns s c 0x20 dma inp →
    updOk s inp = true →
    updBuckets inp = [b] →
    tableCopies s (beField inp 0 2) = [(k, x)] →
    ∃ t, exec (.xltUpdate c dma) s = .next t ∧
      (∀ k ∈ List.range 9, tget false t.xlat.epoch k = (!tget false s.xlat.epoch k)) ∧ sysRead t (x + b.1 * 128) 128 = b.2 ∧
    changeOf t c = some { id := c, nodes := tableNodes s, kind := 0 } ∧
    (∀ e ∈ (tableNodes s).map (fun n => Emit.ctl (BitVec.ofNat 11 n) (.mapChange (.buckets (BitVec.ofNat 12 (beField inp 0 2)) [b]))), Puts s t e) ∧
    (pageReads s = false → Apart 1 (sysPart + x + b.1 * 128) 128 sp a0 n0 → tierRead t sp a0 n0 = tierRead s sp a0 n0)) ∧
  (∀ (s : State) (c : Chan) (dma : Bytes) (inp : Bytes) (sp : Nat) (a0 : Nat) (n0 : Nat),
    s.chip.running = true →
    MbxRuns s c 0x21 dma inp →
    beField inp 0 2 < 0x5000 →
    rgnTenantOk s (beField inp 0 2) (parseRegion (slice inp 4 32)) = true →
    measFull s (beField inp 0 2) (beField inp 2 2) (parseRegion (slice inp 4 32)) = false →
    ∃ t, exec (.rgnWrite c dma) s = .next t ∧
      (∀ k ∈ List.range 9, tget false t.xlat.epoch k = (!tget false s.xlat.epoch k)) ∧
    (if (rgnHolders s (beField inp 0 2)) = [] then MbxEnded t c .done else changeOf t c = some { id := c, nodes := (rgnHolders s (beField inp 0 2)), kind := 0 }) ∧
    (∀ e ∈ ((rgnHolders s (beField inp 0 2))).map (fun n => Emit.ctl (BitVec.ofNat 11 n) (.mapChange (.region (BitVec.ofNat 16 (beField inp 0 2)) (BitVec.ofNat 16 (beField inp 2 2)) (slice inp 4 32)))), Puts s t e) ∧
    (pageReads s = false → (∀ x ∈ (regionAt s (beField inp 0 2) (beField inp 2 2)).toList, Apart 1 (sysPart + x) 32 sp a0 n0) → tierRead t sp a0 n0 = tierRead s sp a0 n0)) ∧
  (∀ (s : State) (c : Chan) (dma : Bytes) (inp : Bytes),
    AtRest s →
    MbxRuns s c 0x21 dma inp →
    beField inp 0 2 = memEp s →
    rgnTenantOk s (beField inp 0 2) (parseRegion (slice inp 4 32)) = true →
    measFull s (beField inp 0 2) (beField inp 2 2) (parseRegion (slice inp 4 32)) = false →
    ∃ t, exec (.rgnWrite c dma) s = .next t ∧
      readRegion t (memEp s) (beField inp 2 2) = some (parseRegion (slice inp 4 32)) ∧ MbxEnded t c .done) ∧
  (∀ (s : State) (c : Chan) (dma : Bytes) (inp : Bytes),
    s.chip.running = true →
    MbxRuns s c 0x22 dma inp →
    beField inp 0 2 < 4096 →
    ∃ t, exec (.xltDrain c dma) s = .next t ∧
      changeOf t c = some { id := c, nodes := tableNodes s, kind := 1 } ∧ (∀ e ∈ (tableNodes s).map (fun n => Emit.ctl (BitVec.ofNat 11 n) (.mapChange (.drain (BitVec.ofNat 12 (beField inp 0 2))))), Puts s t e)) ∧
  (∀ (s : State) (c : Chan),
    AtRest s →
    draining s c = true →
    (changeOf s c).map (·.nodes) = some [] →
    oldLeft s (beField (chan s c).named 0 2) = false →
    (chan s c).busy = true →
    (chan s c).lost = false →
    ∃ t, exec (.xltDrainDone c) s = .next t ∧
      changeOf t c = none ∧ MbxEnded t c .done) ∧
  (∀ (s : State) (c : Chan),
    AtRest s →
    draining s c = true →
    (chan s c).busy = true →
    (chan s c).lost = false →
    ∃ t, exec (.xltDrainTimeout c) s = .next t ∧
      changeOf t c = none ∧ MbxEnded t c .targetUnreachable) ∧
  (∀ (s : State) (c : Chan) (dma : Bytes) (inp : Bytes),
    AtRest s →
    MbxRuns s c 0x21 dma inp →
    beField inp 0 2 < 0x5000 →
    rgnTenantOk s (beField inp 0 2) (parseRegion (slice inp 4 32)) = false →
    ∃ t, exec (.rgnWrite c dma) s = .next t ∧
      MbxEnded t c .accessDenied ∧ t.xlat = s.xlat ∧ t.home.stk = s.home.stk)

/-- Confirmations of mapping changes, and changes from other Osenos. Rows: MAPPING_CONFIRM (R76),
MAPPING_CONFIRM_TIMEOUT (R76), MAPPING_CHANGE (R76). A clause that follows a reading of the model's where the spec
leaves a point open follows log entries 23, 24 and 102. -/
def Obligations.MappingConfirmations : Prop :=
  (∀ (s : State) (c : Chan) (node : BitVec 11) (x : PendChange),
    AtRest s →
    changeOf s c = some x →
    x.nodes = [node.toNat] →
    x.kind ≠ 1 →
    (chan s c).busy = true →
    (chan s c).lost = false →
    ∃ t, exec (.mappingConfirm (.chan c) ⟨node, .done⟩) s = .next t ∧
      changeOf t c = none ∧ MbxEnded t c .done) ∧
  (∀ (s : State) (e : Fin 16) (node : BitVec 11) (st : Status) (x : PendChange),
    s.chip.running = true →
    changeOf s (4 + e.val) = some x →
    st = .done ∨ x.kind ≠ 3 →
    ∃ t, exec (.mappingConfirm (.engine e) ⟨node, st⟩) s = .next t ∧
      changeOf t (4 + e.val) = some { x with nodes := x.nodes.filter (fun q => !(q == node.toNat)) }) ∧
  (∀ (s : State) (c : Chan) (x : PendChange) (sp : Nat) (a0 : Nat) (n0 : Nat),
    AtRest s →
    changeOf s c = some x →
    x.nodes ≠ [] →
    x.kind ≠ 1 →
    (chan s c).busy = true →
    (chan s c).lost = false →
    ∃ t, exec (.mappingConfirmTimeout (.chan c)) s = .next t ∧
      changeOf t c = none ∧ MbxEnded t c .targetUnreachable ∧ (pageReads s = false → tierRead t sp a0 n0 = tierRead s sp a0 n0)) ∧
  (∀ (s : State) (node : BitVec 11) (w : BitVec 12) (b : Nat × Bytes) (k : Nat) (x : Nat),
    AtRest s →
    tableCopies s w.toNat = [(k, x)] →
    b.1 < 2 ^ k →
    b.2.length = 128 →
    ∃ t, exec (.mappingChange node (.buckets w [b])) s = .next t ∧
      sysRead t (x + b.1 * 128) 128 = b.2 ∧ (∀ k ∈ List.range 9, tget false t.xlat.epoch k = (!tget false s.xlat.epoch k)) ∧
    Puts s t (.ctl node (.mapConfirm (BitVec.ofNat 11 (nodeId s)) .done))) ∧
  (∀ (s : State) (node : BitVec 11) (ch : MapChange) (sp : Nat) (a0 : Nat) (n0 : Nat),
    s.chip.running = true →
    ∃ t, exec (.mappingChange node ch) s = .next t ∧
      (pageReads s = false → (∀ r ∈ changeRanges s ch, Apart r.1 r.2.1 r.2.2 sp a0 n0) → tierRead t sp a0 n0 = tierRead s sp a0 n0)) ∧
  (∀ (s : State) (c : Chan) (node : BitVec 11) (x : PendChange),
    s.chip.running = true →
    changeOf s c = some x →
    x.kind = 1 ∨ x.nodes.any (fun q => !(q == node.toNat)) = true →
    (chan s c).busy = true →
    (chan s c).lost = false →
    ∃ t, exec (.mappingConfirm (.chan c) ⟨node, .done⟩) s = .next t ∧
      changeOf t c = some { x with nodes := x.nodes.filter (fun q => !(q == node.toNat)) } ∧ (chan t c).busy = true) ∧
  (∀ (s : State) (c : Chan) (node : BitVec 11) (x : PendChange) (st : Status),
    AtRest s →
    changeOf s c = some x →
    x.kind = 0 →
    st ≠ .done →
    (chan s c).busy = true →
    (chan s c).lost = false →
    ∃ t, exec (.mappingConfirm (.chan c) ⟨node, st⟩) s = .next t ∧
      changeOf t c = none ∧ MbxEnded t c st) ∧
  (∀ (s : State) (e : Fin 16) (m : Move) (j : BitVec 32) (it : Nat) (di : Nat) (node : BitVec 11) (st : Status) (x : PendChange),
    AtRest s →
    s.mov.moves = [m] →
    m.engine = some e.val →
    m.origin = .almanac j it di →
    m.phase = .draining →
    changeOf s (4 + e.val) = some x →
    x.kind = 3 →
    onNode s m.src = false ∨ heldFor s (movePageOf m) = [] →
    s.mov.arrWait = [] →
    st ≠ .done →
    st ≠ .busy →
    ∃ t, exec (.mappingConfirm (.engine e) ⟨node, st⟩) s = .next t ∧
      changeOf t (4 + e.val) = none ∧ t.mov.moves = [] ∧ t.mov.doneDesc = s.mov.doneDesc ++ [(j, it, di, .accessDenied)] ∧
    (∀ g ∈ (farNodes s m).map (fun q => Emit.ctl (BitVec.ofNat 11 q) (.mapChange (.page .giveUp m.src m.dst m.n))), Puts s t g)) ∧
  (∀ (s : State) (e : Fin 16) (m : Move) (node : BitVec 11) (x : PendChange),
    AtRest s →
    s.mov.moves = [m] →
    m.engine = some e.val →
    m.phase = .draining →
    changeOf s (4 + e.val) = some x →
    x.kind = 3 →
    onNode s m.src = false ∨ heldFor s (movePageOf m) = [] →
    s.mov.arrWait = [] →
    ∃ t, exec (.mappingConfirm (.engine e) ⟨node, .busy⟩) s = .next t ∧
      changeOf t (4 + e.val) = none ∧ t.mov.moves.map (fun r => (r.id, r.phase, r.pos)) = [(m.id, .start, m.pos)] ∧ t.mov.doneDesc = s.mov.doneDesc ∧
    (∀ g ∈ (farNodes s m).map (fun q => Emit.ctl (BitVec.ofNat 11 q) (.mapChange (.page .giveUp m.src m.dst m.n))), Puts s t g)) ∧
  (∀ (s : State) (node : BitVec 11) (ep : BitVec 16) (i : BitVec 16) (d : Bytes) (x : Nat),
    AtRest s →
    regionAt s ep.toNat i.toNat = some x →
    d.length = 32 →
    rgnTenantOk s ep.toNat (parseRegion d) = true →
    measFull s ep.toNat i.toNat (parseRegion d) = false →
    ∃ t, exec (.mappingChange node (.region ep i d)) s = .next t ∧
      sysRead t x 32 = d ∧ (∀ k ∈ List.range 9, tget false t.xlat.epoch k = (!tget false s.xlat.epoch k)) ∧ Puts s t (.ctl node (.mapConfirm (BitVec.ofNat 11 (nodeId s)) .done))) ∧
  (∀ (s : State) (node : BitVec 11) (ep : BitVec 16) (i : BitVec 16) (d : Bytes),
    s.chip.running = true →
    rgnTenantOk s ep.toNat (parseRegion (slice d 0 32)) = false →
    ∃ t, exec (.mappingChange node (.region ep i d)) s = .next t ∧
      t.xlat = s.xlat ∧ Puts s t (.ctl node (.mapConfirm (BitVec.ofNat 11 (nodeId s)) .accessDenied))) ∧
  (∀ (s : State) (node : BitVec 11) (w : BitVec 12),
    s.chip.running = true →
    ∃ t, exec (.mappingChange node (.drain w)) s = .next t ∧
      (if oldLeft s w.toNat = true then (node, w) ∈ t.mov.drains else Puts s t (.ctl node (.mapConfirm (BitVec.ofNat 11 (nodeId s)) .done)))) ∧
  (∀ (s : State) (node : BitVec 11) (old : Nat) (new : Nat) (size : Nat) (w : BitVec 12) (key : BitVec 16) (tag : BitVec 32) (dkey : BitVec 16) (dtag : BitVec 32) (st : Status),
    AtRest s →
    pageVerdict s w.toNat old new size key.toNat tag.toNat dkey.toNat dtag.toNat = st →
    st ≠ .done →
    ∃ t, exec (.mappingChange node (.page (.start_ w key tag dkey dtag) old new size)) s = .next t ∧
      t.mov = s.mov ∧ Puts s t (.ctl node (.mapConfirm (BitVec.ofNat 11 (nodeId s)) st))) ∧
  (∀ (s : State) (node : BitVec 11) (old : Nat) (new : Nat) (size : Nat) (w : BitVec 12) (key : BitVec 16) (tag : BitVec 32) (dkey : BitVec 16) (dtag : BitVec 32),
    AtRest s →
    pageVerdict s w.toNat old new size key.toNat tag.toNat dkey.toNat dtag.toNat = .done →
    onNode s old = false ∨ storesUnder s (oldMark old new size 0) = false →
    ∃ t, exec (.mappingChange node (.page (.start_ w key tag dkey dtag) old new size)) s = .next t ∧
      t.mov.holding = s.mov.holding ++ (if onNode s old then [oldMark old new size (0x4800 + node.toNat)] else []) ∧
    t.mov.arriving = s.mov.arriving ++ (if onNode s new then [newMark new size (0x4800 + node.toNat)] else [])) ∧
  (∀ (s : State) (node : BitVec 11) (old : Nat) (new : Nat) (size : Nat) (off : Nat) (n : Nat),
    AtRest s →
    onNode s old = false →
    inTier s new = true →
    marked s s.mov.arriving new (0x4800 + node.toNat) = true →
    s.mov.arrWait = [] →
    offOf new ≤ off →
    off + n ≤ offOf new + size →
    ∃ t, exec (.mappingChange node (.page .giveUp old new size)) s = .next t ∧
      tierRead t (spaceOf new) off n = List.replicate n 0 ∧ t.mov.arriving = s.mov.arriving.filter (fun q => !(q.page == new % 2 ^ 48 && q.runner == 0x4800 + node.toNat)))

/-- The serialiser, the combining table, and the accesses of MEM and HOST. Rows: SERIALISER_ISSUE (R111),
COMBINING_ENTRY_ISSUE (R113), HOME_ACCESS_DONE (R85), HOST_DMA_COMPLETION (R404). A clause that follows a reading of
the model's where the spec leaves a point open follows log entries 25, 26, 81, 116, 117 and 118. -/
def Obligations.HomePoints : Prop :=
  (∀ (s : State) (line : BitVec 48) (l : HotLine) (p : Part) (a : Access),
    AtRest s →
    s.home.hot = [l] →
    l.home = hpMem →
    l.line = line.toNat →
    l.locked = false →
    l.busy = [] →
    l.wait = [p] →
    lineOf p.off = l.line →
    accOf s p.access = some a →
    a.combine = none →
    canIssue s hpMem a p = true →
    s.home.queue = [] →
    ∃ t, exec (.serialiserIssue .mem line) s = .next t ∧
      t.home.hot = [{ l with busy := [p], wait := [], lastSrc := p.src }]) ∧
  (∀ (s : State) (k : Nat) (e : CombEntry) (p : Part) (a : Access),
    AtRest s →
    s.home.comb = [e] →
    e.num = k →
    e.issued = false →
    e.home = hpMem →
    s.home.queue = [(hpMem, p)] →
    s.home.hot = [] →
    p.access = e.access →
    accOf s e.access = some a →
    a.combine = some k →
    a.home = hpMem →
    canIssue s hpMem a p = true →
    0 < hotLimit s hpMem →
    noWait s = false →
    ∃ t, exec (.combiningEntryIssue k) s = .next t ∧
      t.home.queue = [] ∧ t.home.comb.all (fun x => x.issued) = true ∧ t.home.hot = [{ home := hpMem, line := lineOf p.off, lastSrc := p.src, busy := [p] }]) ∧
  (∀ (s : State) (line : BitVec 48) (ecc : Ecc) (l : HotLine) (p : Part) (a : Access) (sp : Nat) (a0 : Nat) (n0 : Nat),
    s.chip.running = true →
    s.home.hot = [l] →
    l.home = hpMem →
    l.line = line.toNat →
    l.busy = [p] →
    lineOf p.off = l.line →
    accOf s p.access = some a →
    a.cxl = true →
    a.op = .read →
    a.left = 1 →
    a.own = 0 →
    a.combine = none →
    a.status = .done →
    a.data = [] →
    a.frame.fpa = p.off →
    spanOf a.frame = p.len →
    0 < p.len →
    offsetOut s (p.off / 2 ^ 44) (p.off % 2 ^ 44) = false →
    keysGone s (p.off / 2 ^ 44) (p.off % 2 ^ 44) = false →
    poisoned s (p.off / 2 ^ 44) (p.off % 2 ^ 44) = false →
    ∃ t, exec (.homeAccessDone line ecc false) s = .next t ∧
      Puts s t (.cxlMem (if ecc = .uncorrectable then none else some (tierRead s (p.off / 2 ^ 44) (p.off % 2 ^ 44) p.len))) ∧ (pageReads s = false → tierRead t sp a0 n0 = tierRead s sp a0 n0)) ∧
  (∀ (s : State) (line : BitVec 48) (l : HotLine) (p : Part) (a : Access) (sp : Nat) (a0 : Nat) (n0 : Nat),
    AtRest s →
    s.home.hot = [l] →
    l.home = hpMem →
    l.line = line.toNat →
    l.busy = [p] →
    l.wait = [] →
    s.home.queue = [] →
    lineOf p.off = l.line →
    accOf s p.access = some a →
    a.cxl = true →
    a.op = .write →
    a.left = 1 →
    a.own = 0 →
    a.combine = none →
    a.status = .done →
    a.frame.fpa = p.off →
    a.frame.payload.length = p.len →
    p.off / 2 ^ 44 = 1 →
    a.frame.src.toNat < 0x4800 →
    offsetOut s 1 (p.off % 2 ^ 44) = false →
    keysGone s 1 (p.off % 2 ^ 44) = false →
    poisoned s 1 (p.off % 2 ^ 44) = false →
    ∃ t, exec (.homeAccessDone line .clean false) s = .next t ∧
      Puts s t .cxlMemDone ∧ memRead t.home.stk (p.off % 2 ^ 44) p.len = a.frame.payload ∧ t.home.hot = [] ∧
    (pageReads s = false → Apart 1 (p.off % 2 ^ 44) p.len sp a0 n0 → tierRead t sp a0 n0 = tierRead s sp a0 n0)) ∧
  (∀ (s : State) (data : Bytes) (x : HostAcc) (a : Access) (addr : Nat),
    AtRest s →
    s.home.host = [x] →
    x.isWrite = false →
    x.locked = true →
    accOf s x.part.access = some a →
    a.op = .atomic →
    dmaOn s = true →
    hostAddr s (x.part.off % 2 ^ 44) x.part.len = some addr →
    atomicNew a.frame.atop.toNat (slice data 0 x.part.len) a.frame.payload ≠ slice data 0 x.part.len →
    ∃ t, exec (.hostDmaCompletion (.ok data)) s = .next t ∧
      Puts s t (.hostWrite addr (atomicNew a.frame.atop.toNat (slice data 0 x.part.len) a.frame.payload)) ∧ t.home.host = [{ x with isWrite := true }])

/-- The control host's windows, its CXL.mem accesses, and patrol. Rows: MEM_WIN_SET (R257), CXL_MEM_READ (R101),
CXL_MEM_WRITE (R101), TIER_PATROL (R242). A clause that follows a reading of the model's where the spec leaves a
point open follows log entries 25, 68 and 104. -/
def Obligations.MemoryWindows : Prop :=
  (∀ (s : State) (c : Chan) (dma : Bytes) (inp : Bytes),
    AtRest s →
    MbxRuns s c 0x43 dma inp →
    beField inp 0 1 < 16 →
    beField inp 1 1 = 0 →
    beField inp 2 2 < 4096 →
    beField inp 6 4 + beField inp 14 4 ≤ 2 ^ 20 →
    ∃ t, exec (.memWinSet c dma) s = .next t ∧
      word t (winOff (beField inp 0 1)) = packBits [(4, beField inp 2 2), (16, beField inp 4 2)] ∧ word t (winOff (beField inp 0 1) + 4) = BitVec.ofNat 32 (beField inp 6 4) ∧
    word t (winOff (beField inp 0 1) + 8) = BitVec.ofNat 32 (beField inp 10 4) ∧ word t (winOff (beField inp 0 1) + 0xC) = BitVec.ofNat 32 (beField inp 14 4) ∧ MbxEnded t c .done) ∧
  (∀ (s : State) (dpa64 : BitVec 35) (ecc : Ecc) (w : Nat × Nat) (d : Region) (x : Nat) (f : Frame),
    AtRest s →
    s.hif.cxl.up = true →
    winAt s (dpa64.toNat * 64) = some w →
    regionAt s (memEp s) (fieldOf s (winOff w.1) 16 16) = some x →
    sysReadFails s x ecc = false →
    readRegion s (memEp s) (fieldOf s (winOff w.1) 16 16) = some d →
    d.admits (fieldOf s (winOff w.1) 4 12) d.keytag (if bitAt s (winOff w.1) 1 then 2 else 1) w.2 64 .r = true →
    w.2 + 64 ≤ spaceLimit (if bitAt s (winOff w.1) 1 then 2 else 1) →
    offsetOut s (if bitAt s (winOff w.1) 1 then 2 else 1) w.2 = false →
    f = { type := tReq, cls := 2, dst := BitVec.ofNat 16 (memEp s), src := BitVec.ofNat 16 (memEp s), plane := s.fab.plane, tenant := BitVec.ofNat 12 (fieldOf s (winOff w.1) 4 12), opc := 1, len := 64, mid := midOf ((if bitAt s (winOff w.1) 1 then 2 else 1) * 2 ^ 44 + w.2) (fieldOf s (winOff w.1) 16 16) d.keytag, payload := [] } →
    mayCut s (originRate s f) egMem f = false →
    ∃ t, exec (.cxlMemRead dpa64 ecc) s = .next t ∧
      t.hif.cxl.wait = s.hif.cxl.wait ++ [f] ∧
    (hasRoom s f.tenant.toNat f.cells = true → (tget [] (egOf t egMem).queues (queueFor s f.tenant.toNat).1).any (fun g => unmarked g == unmarked f) = true) ∧
    (homeQuiet s = true → t.home = s.home)) ∧
  (∀ (s : State) (dpa64 : BitVec 35) (ecc : Ecc),
    s.chip.running = true →
    s.hif.cxl.up = true →
    winAt s (dpa64.toNat * 64) = none →
    ∃ t, exec (.cxlMemRead dpa64 ecc) s = .next t ∧
      Puts s t (.cxlMem none)) ∧
  (∀ (s : State) (dpa64 : BitVec 35) (ecc : Ecc) (w : Nat × Nat) (d : Region) (x : Nat) (f : Frame),
    AtRest s →
    s.hif.cxl.up = true →
    winAt s (dpa64.toNat * 64) = some w →
    regionAt s (memEp s) (fieldOf s (winOff w.1) 16 16) = some x →
    sysReadFails s x ecc = false →
    readRegion s (memEp s) (fieldOf s (winOff w.1) 16 16) = some d →
    d.admits (fieldOf s (winOff w.1) 4 12) d.keytag (if bitAt s (winOff w.1) 1 then 2 else 1) w.2 64 .r = true →
    w.2 + 64 ≤ spaceLimit (if bitAt s (winOff w.1) 1 then 2 else 1) →
    offsetOut s (if bitAt s (winOff w.1) 1 then 2 else 1) w.2 = false →
    f = { type := tReq, cls := 2, dst := BitVec.ofNat 16 (memEp s), src := BitVec.ofNat 16 (memEp s), plane := s.fab.plane, tenant := BitVec.ofNat 12 (fieldOf s (winOff w.1) 4 12), opc := 1, len := 64, mid := midOf ((if bitAt s (winOff w.1) 1 then 2 else 1) * 2 ^ 44 + w.2) (fieldOf s (winOff w.1) 16 16) d.keytag, payload := [] } →
    mayCut s (originRate s f) egMem f = true →
    (egOf s egMem).control = [] →
    (egOf s egMem).lane = [] →
    (List.range 32).all (fun q => (tget [] (egOf s egMem).queues q).isEmpty) = true →
    s.sw.residue = [] →
    s.sw.mirOpen = [] →
    analysisPort s egMem = false →
    openWindow s egMem = none →
    (∀ n ∈ List.range 8, bitAt s (mirOff n) 0 = false) →
    s.ten.tdmOn = false →
    tdmAt s egMem = false →
    egressUp s egMem = true →
    hasRoom s f.tenant.toNat f.cells = true →
    nextWindow s egMem (Machine.now s) = none →
    homeReach s hpMem f = .done →
    s.hif.cxl.wait = [] →
    s.hif.cxl.arrived = [] →
    ∃ t, exec (.cxlMemRead dpa64 ecc) s = .next t ∧
      t.hif.cxl.wait = [] ∧ t.home.accesses.any (fun a => unmarked a.frame == unmarked f && a.cxl) = true) ∧
  (∀ (s : State) (dpa64 : BitVec 35) (ecc : Ecc) (w : Nat × Nat) (d : Region) (x : Nat) (f : Frame) (data : Bytes),
    AtRest s →
    s.hif.cxl.up = true →
    winAt s (dpa64.toNat * 64) = some w →
    regionAt s (memEp s) (fieldOf s (winOff w.1) 16 16) = some x →
    sysReadFails s x ecc = false →
    readRegion s (memEp s) (fieldOf s (winOff w.1) 16 16) = some d →
    d.admits (fieldOf s (winOff w.1) 4 12) d.keytag (if bitAt s (winOff w.1) 1 then 2 else 1) w.2 64 .w = true →
    w.2 + 64 ≤ spaceLimit (if bitAt s (winOff w.1) 1 then 2 else 1) →
    offsetOut s (if bitAt s (winOff w.1) 1 then 2 else 1) w.2 = false →
    d.meas = false →
    f = { type := tReq, cls := 2, dst := BitVec.ofNat 16 (memEp s), src := BitVec.ofNat 16 (memEp s), plane := s.fab.plane, tenant := BitVec.ofNat 12 (fieldOf s (winOff w.1) 4 12), opc := 2, len := 64, mid := midOf ((if bitAt s (winOff w.1) 1 then 2 else 1) * 2 ^ 44 + w.2) (fieldOf s (winOff w.1) 16 16) d.keytag, payload := slice data 0 64 } →
    mayCut s (originRate s f) egMem f = false →
    ∃ t, exec (.cxlMemWrite dpa64 data ecc) s = .next t ∧
      t.hif.cxl.wait = s.hif.cxl.wait ++ [f] ∧
    (hasRoom s f.tenant.toNat f.cells = true → (tget [] (egOf t egMem).queues (queueFor s f.tenant.toNat).1).any (fun g => unmarked g == unmarked f) = true) ∧
    (homeQuiet s = true → t.home = s.home)) ∧
  (∀ (s : State) (dpa64 : BitVec 35) (ecc : Ecc) (w : Nat × Nat) (d : Region) (x : Nat) (f : Frame) (data : Bytes),
    AtRest s →
    s.hif.cxl.up = true →
    winAt s (dpa64.toNat * 64) = some w →
    regionAt s (memEp s) (fieldOf s (winOff w.1) 16 16) = some x →
    sysReadFails s x ecc = false →
    readRegion s (memEp s) (fieldOf s (winOff w.1) 16 16) = some d →
    d.admits (fieldOf s (winOff w.1) 4 12) d.keytag (if bitAt s (winOff w.1) 1 then 2 else 1) w.2 64 .w = true →
    w.2 + 64 ≤ spaceLimit (if bitAt s (winOff w.1) 1 then 2 else 1) →
    offsetOut s (if bitAt s (winOff w.1) 1 then 2 else 1) w.2 = false →
    d.meas = false →
    f = { type := tReq, cls := 2, dst := BitVec.ofNat 16 (memEp s), src := BitVec.ofNat 16 (memEp s), plane := s.fab.plane, tenant := BitVec.ofNat 12 (fieldOf s (winOff w.1) 4 12), opc := 2, len := 64, mid := midOf ((if bitAt s (winOff w.1) 1 then 2 else 1) * 2 ^ 44 + w.2) (fieldOf s (winOff w.1) 16 16) d.keytag, payload := slice data 0 64 } →
    mayCut s (originRate s f) egMem f = true →
    (egOf s egMem).control = [] →
    (egOf s egMem).lane = [] →
    (List.range 32).all (fun q => (tget [] (egOf s egMem).queues q).isEmpty) = true →
    s.sw.residue = [] →
    s.sw.mirOpen = [] →
    analysisPort s egMem = false →
    openWindow s egMem = none →
    (∀ n ∈ List.range 8, bitAt s (mirOff n) 0 = false) →
    s.ten.tdmOn = false →
    tdmAt s egMem = false →
    egressUp s egMem = true →
    hasRoom s f.tenant.toNat f.cells = true →
    nextWindow s egMem (Machine.now s) = none →
    homeReach s hpMem f = .done →
    s.hif.cxl.wait = [] →
    s.hif.cxl.arrived = [] →
    ∃ t, exec (.cxlMemWrite dpa64 data ecc) s = .next t ∧
      t.hif.cxl.wait = [] ∧ t.home.accesses.any (fun a => unmarked a.frame == unmarked f && a.cxl) = true) ∧
  (∀ (s : State) (dpa64 : BitVec 35) (ecc : Ecc) (data : Bytes),
    AtRest s →
    s.hif.cxl.up = true →
    winAt s (dpa64.toNat * 64) = none →
    ∃ t, exec (.cxlMemWrite dpa64 data ecc) s = .next t ∧
      Puts s t .cxlMemDone ∧ t.home.stk = s.home.stk ∧ t.home.anx = s.home.anx) ∧
  (∀ (s : State) (tier : Tier) (line : BitVec 37),
    AtRest s →
    patrolOn s tier = true →
    offsetOut s (match tier with | .stacks => 1 | .annex => 2) (line.toNat * 128) = false →
    ∃ t, exec (.tierPatrol tier line .uncorrectable) s = .next t ∧
      poisoned t (match tier with | .stacks => 1 | .annex => 2) (line.toNat * 128) = true) ∧
  (∀ (s : State) (tier : Tier) (line : BitVec 37),
    AtRest s →
    ∃ t, exec (.tierPatrol tier line .clean) s = .next t ∧
      t.home = s.home)

/-- The held forms of stores, atomics and COMMIT reach the page's new home. Rows: HOLD_WRITE (R254), HOLD_FLAG
(R254), HOLD_ATOMIC (R254), HOLD_COMMIT (R254). A clause that follows a reading of the model's where the spec leaves
a point open follows log entries 28, 116 and 118. -/
def Obligations.HeldForms : Prop :=
  (∀ (s : State) (f : Frame) (r : RecvCtx) (ecc : Ecc),
    AtRest s →
    Served s f →
    f.opc = 0x50 →
    f.ord = true →
    f.dst.toNat = memEp s →
    s.trn.recv = [r] →
    r.sid = fwdSid f →
    inSession r.ipsn f.psn = true →
    r.e = f.psn →
    r.held = [] →
    r.seen = [] →
    r.succ = false →
    r.refused = [] →
    r.bad = [] →
    homeReach s (homeOf f) f = .done →
    ∃ t, exec (.holdWrite ⟨f, ecc⟩) s = .next t ∧
      t.home.accesses.any (fun a => a.frame == f && a.home == homeOf f && a.op == opOf f.opc) = true ∧
    t.trn.recv.map (fun x => x.e) = [f.psn + 1]) ∧
  (∀ (s : State) (f : Frame) (r : RecvCtx) (ecc : Ecc),
    AtRest s →
    Served s f →
    f.opc = 0x51 →
    f.ord = true →
    f.dst.toNat = memEp s →
    s.trn.recv = [r] →
    r.sid = fwdSid f →
    inSession r.ipsn f.psn = true →
    r.e = f.psn →
    r.held = [] →
    r.seen = [] →
    r.succ = false →
    r.refused = [] →
    r.bad = [] →
    homeReach s (homeOf f) f = .done →
    ∃ t, exec (.holdFlag ⟨f, ecc⟩) s = .next t ∧
      t.home.accesses.any (fun a => a.frame == f && a.home == homeOf f && a.op == opOf f.opc) = true ∧
    t.trn.recv.map (fun x => x.e) = [f.psn + 1]) ∧
  (∀ (s : State) (f : Frame) (r : RecvCtx) (ecc : Ecc),
    AtRest s →
    Served s f →
    f.opc = 0x52 →
    f.ord = true →
    f.dst.toNat = memEp s →
    s.trn.recv = [r] →
    r.sid = fwdSid f →
    inSession r.ipsn f.psn = true →
    r.e = f.psn →
    r.held = [] →
    r.seen = [] →
    r.succ = false →
    r.refused = [] →
    r.bad = [] →
    homeReach s (homeOf f) f = .done →
    ∃ t, exec (.holdAtomic ⟨f, ecc⟩) s = .next t ∧
      t.home.accesses.any (fun a => a.frame == f && a.home == homeOf f && a.op == opOf f.opc) = true ∧
    t.trn.recv.map (fun x => x.e) = [f.psn + 1]) ∧
  (∀ (s : State) (f : Frame) (r : RecvCtx) (ecc : Ecc),
    AtRest s →
    Served s f →
    f.opc = 0x53 →
    f.ord = true →
    f.dst.toNat = memEp s →
    s.trn.recv = [r] →
    r.sid = fwdSid f →
    inSession r.ipsn f.psn = true →
    r.e = f.psn →
    r.held = [] →
    r.seen = [] →
    r.succ = false →
    r.refused = [] →
    r.bad = [] →
    homeReach s (homeOf f) f = .done →
    ∃ t, exec (.holdCommit ⟨f, ecc⟩) s = .next t ∧
      t.home.accesses.any (fun a => a.frame == f && a.home == homeOf f && a.op == opOf f.opc) = true ∧
    t.trn.recv.map (fun x => x.e) = [f.psn + 1])

/-- Request frames, skips and session frames at their target. Rows: REQ (R137), SKIP_FRAME (R138), OPEN (R142),
CLOSE (R139), ACK_DELAY_EXPIRE (R130). A clause that follows a reading of the model's where the spec leaves a point
open follows log entries 21, 29, 89, 90, 114, 115 and 119. -/
def Obligations.FramesAtTheTarget : Prop :=
  (∀ (s : State) (f : Frame) (r : RecvCtx) (ecc : Ecc),
    AtRest s →
    Served s f →
    f.opc = 2 ∨ f.opc = 1 ∨ f.opc = 3 ∨ f.opc = 4 ∨ f.opc = 5 →
    RecvCtx.knows f.psn r = false →
    s.trn.recv = [r] →
    r.sid = fwdSid f →
    inSession r.ipsn f.psn = true →
    r.refused = [] →
    rgnCached s f = false →
    ∃ t, exec (.req ⟨f, ecc⟩) s = .next t ∧
      t.trn.recv = [noteStarts f r] ∧ f ∈ tget [] t.xlat.rgnMiss (rgnHome f)) ∧
  (∀ (s : State) (f : Frame) (r : RecvCtx) (ecc : Ecc),
    AtRest s →
    Served s f →
    f.opc = 2 ∨ f.opc = 1 ∨ f.opc = 3 ∨ f.opc = 4 ∨ f.opc = 5 →
    f.ord = true →
    s.trn.recv = [r] →
    r.sid = fwdSid f →
    inSession r.ipsn f.psn = true →
    0 < psnDiff f.psn r.e →
    psnDiff f.psn r.e < 1024 →
    r.held = [] →
    r.seen = [] →
    r.refused = [] →
    rgnCached s f = true →
    keyCheck s f = .done →
    ∃ t, exec (.req ⟨f, ecc⟩) s = .next t ∧
      t.trn.recv = [{ noteStarts f r with seen := [(psnDiff f.psn r.e).toNat], held := [f], bad := if ecc = .uncorrectable then f.psn :: r.bad else r.bad }]) ∧
  (∀ (s : State) (f : Frame) (r : RecvCtx) (ecc : Ecc),
    AtRest s →
    Served s f →
    f.opc = 0 →
    f.ord = false →
    s.trn.recv = [r] →
    r.sid = fwdSid f →
    inSession r.ipsn f.psn = true →
    r.e = f.psn →
    r.seen = [] →
    r.ackDue = [] →
    ∃ t, exec (.skipFrame ⟨f, ecc⟩) s = .next t ∧
      t.trn.recv.map (fun x => (x.e, x.ackDue)) = [(f.psn + 1, [(f.psn, f.ce)])]) ∧
  (∀ (s : State) (f : Frame) (i : StreamId),
    AtRest s →
    Taken s tOpen f →
    quarantined s f.dst.toNat = false →
    epFenced s f.dst.toNat = false →
    beField f.payload 4 1 = 0x20 →
    s.trn.recv = [] →
    i = ⟨f.src, f.dst, (beField f.payload 6 2).testBit 15, BitVec.ofNat 12 (bitsOf (beField f.payload 6 2) 0 12)⟩ →
    0 < ctxLimit s (recvUnit s { sid := i, ipsn := 0, e := 0, host := f.space == 3 }) →
    f.payload.length = 16 →
    controlCells s < 8192 →
    ∃ t, exec (.openSession f) s = .next t ∧
      t.trn.recv.map (fun x => (x.sid, x.ipsn, x.e)) = [(i, BitVec.ofNat 32 (beField f.payload 0 4), BitVec.ofNat 32 (beField f.payload 0 4))] ∧
    (homeQuiet s = true → t.home = s.home)) ∧
  (∀ (s : State) (f : Frame) (r : RecvCtx),
    AtRest s →
    Taken s tClose f →
    s.trn.send = [] →
    s.trn.recv = [r] →
    r.sid = fwdSid f →
    inSession r.ipsn f.psn = true →
    controlCells s < 8192 →
    ∃ t, exec (.close f) s = .next t ∧
      t.trn.recv = []) ∧
  (∀ (s : State) (i : StreamId) (r : RecvCtx),
    AtRest s →
    s.trn.send = [] →
    s.trn.recv = [r] →
    r.sid = i →
    r.ackDue ≠ [] →
    inSession r.ipsn r.e = true →
    controlCells s < 8192 →
    ∃ t, exec (.ackDelayExpire i) s = .next t ∧
      t.trn.recv = [{ r with ackDue := [], ceSeen := r.ceSeen.filter (fun p => !(decide (psnDiff p r.cum < 0) || r.acked.contains p)) }] ∧
    (homeQuiet s = true → t.home = s.home)) ∧
  (∀ (s : State) (f : Frame) (r : RecvCtx) (ecc : Ecc),
    AtRest s →
    Served s f →
    f.opc = 2 ∨ f.opc = 1 ∨ f.opc = 3 ∨ f.opc = 4 ∨ f.opc = 5 →
    f.ord = false →
    s.trn.recv = [r] →
    r.sid = fwdSid f →
    inSession r.ipsn f.psn = true →
    r.e = f.psn →
    r.held = [] →
    r.seen = [] →
    r.refused = [] →
    rgnCached s f = true →
    keyCheck s f = .done →
    s.mov.arriving = [] →
    s.mov.holding = [] →
    s.mov.oldPages = [] →
    homeReach s (homeOf f) f = .done →
    ∃ t, exec (.req ⟨f, ecc⟩) s = .next t ∧
      t.home.accesses.any (fun a => a.frame == f && a.home == homeOf f && a.op == opOf f.opc) = true ∧ t.trn.recv.map (fun x => x.e) = [f.psn + 1]) ∧
  (∀ (s : State) (f : Frame) (r : RecvCtx) (ecc : Ecc),
    AtRest s →
    Served s f →
    f.opc = 2 ∨ f.opc = 1 ∨ f.opc = 3 ∨ f.opc = 4 ∨ f.opc = 5 →
    f.ord = false →
    s.trn.recv = [r] →
    r.sid = fwdSid f →
    inSession r.ipsn f.psn = true →
    r.e = f.psn →
    r.held = [] →
    r.seen = [] →
    r.refused = [] →
    rgnCached s f = true →
    keyCheck s f = .accessDenied →
    ∃ t, exec (.req ⟨f, ecc⟩) s = .next t ∧
      t.home.accesses = s.home.accesses ∧ t.trn.recv.map (fun x => (x.e, x.results.map (·.1))) = [(f.psn + 1, r.results.map (·.1) ++ [f.psn])]) ∧
  (∀ (s : State) (f : Frame) (ecc : Ecc),
    AtRest s →
    8 ≤ f.type.toNat →
    isLocalEp s f.dst.toNat = true →
    f.hcrcOk = true →
    f.crcOk = true →
    ∃ t, exec (.req ⟨f, ecc⟩) s = .next t ∧
      t.trn.formatCnt = s.trn.formatCnt + 1 ∧ t.home.accesses = s.home.accesses ∧ t.trn.recv = s.trn.recv)

/-- Answers and session frames at the source of a stream. Rows: RSP (R130), ACK (R130), NAK (R131), OPEN_ACK (R139),
RETRANSMIT_TIMEOUT (R133), REQUEST_LIFETIME_EXPIRE (R133). A clause that follows a reading of the model's where the
spec leaves a point open follows log entries 20, 30, 84, 85, 87, 88, 111, 112 and 113. -/
def Obligations.FramesAtTheSource : Prop :=
  (∀ (s : State) (f : Frame) (c : SendCtx) (x : Sent) (r : FabReq),
    AtRest s →
    Taken s tRsp f →
    s.trn.send = [c] →
    c.sid = revSid f →
    c.state = .opened →
    c.starved = false →
    c.waiting = [] →
    c.unacked = [x] →
    x.psn = f.psn →
    s.trn.reqs = [r] →
    r.id = x.req →
    r.origin = .record →
    r.ended = false →
    r.left = 1 →
    c.rspDue = [] →
    ∃ t, exec (.rsp f) s = .next t ∧
      t.trn.reqs = [] ∧ t.trn.send.map (fun d => (d.unacked, d.rspDue)) = [([], [f.psn])] ∧
    (homeQuiet s = true → t.home = s.home)) ∧
  (∀ (s : State) (f : Frame) (c : SendCtx) (x : Sent) (r : FabReq),
    AtRest s →
    Taken s tAck f →
    s.trn.send = [c] →
    c.sid = revSid f →
    c.state = .opened →
    c.starved = false →
    c.waiting = [] →
    c.unacked = [x] →
    x.psn = f.psn →
    s.trn.reqs = [r] →
    r.id = x.req →
    r.origin = .record →
    r.ended = false →
    r.left = 1 →
    inSession c.ipsn (f.psn + 1) = true →
    x.frame.opc = 2 →
    ∃ t, exec (.ack f) s = .next t ∧
      t.trn.reqs = [] ∧ t.trn.send.map (fun d => d.unacked) = [[]] ∧
    (homeQuiet s = true → t.home = s.home)) ∧
  (∀ (s : State) (f : Frame) (c : SendCtx) (x : Sent) (r : FabReq) (copy : Ecc),
    AtRest s →
    Taken s tNak f →
    s.trn.send = [c] →
    c.sid = revSid f →
    c.state = .opened →
    c.starved = false →
    c.waiting = [] →
    c.unacked = [x] →
    x.psn = f.psn →
    s.trn.reqs = [r] →
    r.id = x.req →
    r.origin = .record →
    r.ended = false →
    r.left = 1 →
    f.status = 0x0D →
    ∃ t, exec (.nak ⟨f, copy⟩) s = .next t ∧
      t.trn.reqs = [] ∧ t.trn.send = [] ∧
    (homeQuiet s = true → t.home = s.home)) ∧
  (∀ (s : State) (f : Frame) (c : SendCtx),
    AtRest s →
    Taken s tOpenAck f →
    s.trn.send = [c] →
    c.sid = revSid f →
    c.state = .opening →
    c.starved = false →
    c.waiting = [] →
    c.unacked = [] →
    f.status = 0 →
    ∃ t, exec (.openAck f) s = .next t ∧
      t.trn.send.map (fun d => (d.state, d.rev.toNat, d.feat.toNat)) = [(.opened, beField f.payload 4 1, beField f.payload 5 1)] ∧
    (homeQuiet s = true → t.home = s.home)) ∧
  (∀ (s : State) (id : Nat) (r : FabReq) (c : SendCtx) (x : Sent),
    AtRest s →
    s.trn.send = [c] →
    c.unacked = [x] →
    x.req = id →
    c.waiting = [] →
    reqOf s id = some r →
    sameAttempt s r none = false →
    r.attempt < 6 →
    hasRoom s x.frame.tenant.toNat x.frame.cells = true →
    x.frame.cls = 2 →
    ∃ t, exec (.retransmitTimeout id .clean) s = .next t ∧
      (reqOf t id).map (fun q => q.attempt) = some (r.attempt + 1) ∧ t.trn.send.map (fun d => d.cwnd) = [Nat.max 1 (c.cwnd / 2)] ∧
    (homeQuiet s = true → t.home = s.home)) ∧
  (∀ (s : State) (id : Nat) (r : FabReq),
    AtRest s →
    s.trn.send = [] →
    s.trn.reqs = [r] →
    r.id = id →
    r.ended = false →
    r.origin = .record →
    ∃ t, exec (.requestLifetimeExpire id) s = .next t ∧
      t.trn.reqs = [] ∧
    (homeQuiet s = true → t.home = s.home)) ∧
  (∀ (s : State) (f : Frame) (c : SendCtx) (x : Sent) (r : FabReq) (copy : Ecc),
    AtRest s →
    Taken s tNak f →
    s.trn.send = [c] →
    c.sid = revSid f →
    c.state = .opened →
    c.starved = false →
    c.waiting = [] →
    c.unacked = [x] →
    x.psn = f.psn →
    s.trn.reqs = [r] →
    r.id = x.req →
    r.origin = .record →
    r.ended = false →
    r.left = 1 →
    f.status = 0x05 →
    copy ≠ .uncorrectable →
    sameAttempt s r (some f.psn) = false →
    ∃ t, exec (.nak ⟨f, copy⟩) s = .next t ∧
      t.trn.reqs.map (fun q => (q.attempt, q.lastPsn)) = [(r.attempt + 1, some f.psn)] ∧ t.trn.send = s.trn.send ∧
    (homeQuiet s = true → t.home = s.home)) ∧
  (∀ (s : State) (f : Frame) (c : SendCtx) (x : Sent) (r : FabReq),
    AtRest s →
    Taken s tNak f →
    s.trn.send = [c] →
    c.sid = revSid f →
    c.state = .opened →
    c.starved = false →
    c.waiting = [] →
    c.unacked = [x] →
    x.psn = f.psn →
    s.trn.reqs = [r] →
    r.id = x.req →
    r.origin = .record →
    r.ended = false →
    r.left = 1 →
    f.status = 0x05 →
    ∃ t, exec (.nak ⟨f, .uncorrectable⟩) s = .next t ∧
      t.trn.reqs.map (fun q => (q.id, q.ended)) = [(r.id, true)] ∧ t.trn.send.map (fun d => d.unacked.map (·.frame.opc)) = [[0]] ∧
    (homeQuiet s = true → t.home = s.home))

/-- The timers of a session. Rows: OPEN_REPEAT (R139), CLOSE_REPEAT (R139), SESSION_IDLE_CLOSE (R139),
CLOSE_ECHO_TIMEOUT (R139). A clause that follows a reading of the model's where the spec leaves a point open follows
log entries 30 and 86. -/
def Obligations.SessionTimers : Prop :=
  (∀ (s : State) (i : StreamId) (c : SendCtx) (e : Nat),
    AtRest s →
    sendsIn s i .opening = [c] →
    (s.trn.openAt.filter (fun x => decide (now s < x + tickUs))).length < 16 →
    egressFor s (openFrame s c) = some e →
    controlCells s + (openFrame s c).cells ≤ 8192 →
    ∃ t, exec (.openRepeat i) s = .next t ∧
      (egOf t e).control = (egOf s e).control ++ [openFrame s c] ∧
    (homeQuiet s = true → t.home = s.home)) ∧
  (∀ (s : State) (i : StreamId) (c : SendCtx) (e : Nat),
    AtRest s →
    sendsIn s i .closing = [c] →
    egressFor s (closeFrame s c.sid c.next) = some e →
    controlCells s + (closeFrame s c.sid c.next).cells ≤ 8192 →
    ∃ t, exec (.closeRepeat i) s = .next t ∧
      (egOf t e).control = (egOf s e).control ++ [closeFrame s c.sid c.next] ∧
    (homeQuiet s = true → t.home = s.home)) ∧
  (∀ (s : State) (i : StreamId) (c : SendCtx),
    AtRest s →
    s.trn.send = [c] →
    c.sid = i →
    c.starved = false →
    SendCtx.idle c = true →
    controlCells s < 8192 →
    ∃ t, exec (.sessionIdleClose i) s = .next t ∧
      t.trn.send = [{ c with state := .closing }] ∧
    (homeQuiet s = true → t.home = s.home)) ∧
  (∀ (s : State) (i : StreamId) (c : SendCtx),
    AtRest s →
    s.trn.send = [c] →
    c.sid = i →
    c.starved = false →
    c.state = .closing →
    c.unacked = [] →
    c.waiting = [] →
    ∃ t, exec (.closeEchoTimeout i) s = .next t ∧
      t.trn.send = [] ∧
    (homeQuiet s = true → t.home = s.home))

/-- Quarantine and its removal, and routes after a lost link. Rows: QUARANTINE_NOTICE (R145), ROUTE_CHANGE_FLOOD
(R134), EP_QUARANTINE (R416), EP_UNQUARANTINE (R416). A clause that follows a reading of the model's where the spec
leaves a point open follows log entry 55. -/
def Obligations.Quarantine : Prop :=
  (∀ (s : State) (e : BitVec 16) (w : Option (BitVec 11)),
    AtRest s →
    e.toNat < 0x5000 →
    s.trn.send = [] →
    s.coll.ctxs = [] →
    ∃ t, exec (.quarantineNotice ⟨e, true, w⟩) s = .next t ∧
      e.toNat ∈ t.trn.quar ∧ (quarantined s e.toNat = false → ∀ r ∈ t.trn.recv, r.sid.src ≠ e ∧ r.sid.dst ≠ e) ∧
    (∀ n ∈ w.toList, Puts s t (.ctl n (.mapConfirm (BitVec.ofNat 11 (nodeId s)) .done))) ∧
    (homeQuiet s = true → t.home = s.home)) ∧
  (∀ (s : State) (e : BitVec 16) (w : Option (BitVec 11)),
    AtRest s →
    e.toNat < 0x5000 →
    ∃ t, exec (.quarantineNotice ⟨e, false, w⟩) s = .next t ∧
      e.toNat ∉ t.trn.quar ∧ (∀ n ∈ w.toList, Puts s t (.ctl n (.mapConfirm (BitVec.ofNat 11 (nodeId s)) .done))) ∧
    (homeQuiet s = true → t.home = s.home)) ∧
  (∀ (s : State) (node : BitVec 11) (p : BitVec 8),
    s.chip.running = true →
    ∃ t, exec (.routeChangeFlood node p) s = .next t ∧
      t.fab.deadLinks = s.fab.deadLinks ++ [(node, p.toNat)] ∧ t.fab.routes.map (·.1) = s.fab.routes.map (·.1)) ∧
  (∀ (s : State) (c : Chan) (dma : Bytes) (inp : Bytes),
    AtRest s →
    MbxRuns s c 0x23 dma inp →
    beField inp 0 2 < 0x5000 →
    s.trn.send = [] →
    s.coll.ctxs = [] →
    ∃ t, exec (.epQuarantine c dma) s = .next t ∧
      ((beField inp 2 1).testBit s.fab.plane.toNat = true → beField inp 0 2 ∈ t.trn.quar) ∧
    ((maskNodes s (beField inp 2 1)) = [] → MbxEnded t c .done) ∧ ((maskNodes s (beField inp 2 1)) ≠ [] → changeOf t c = some { id := c, nodes := (maskNodes s (beField inp 2 1)), kind := 2 }) ∧
    (∀ e ∈ ((maskNodes s (beField inp 2 1))).map (fun n => Emit.ctl (BitVec.ofNat 11 n) (Ctl.quarantineSet (BitVec.ofNat 16 (beField inp 0 2)) true)), Puts s t e) ∧
    (homeQuiet s = true → t.home = s.home)) ∧
  (∀ (s : State) (c : Chan) (dma : Bytes) (inp : Bytes),
    AtRest s →
    MbxRuns s c 0x24 dma inp →
    beField inp 0 2 < 0x5000 →
    ∃ t, exec (.epUnquarantine c dma) s = .next t ∧
      ((beField inp 2 1).testBit s.fab.plane.toNat = true → beField inp 0 2 ∉ t.trn.quar) ∧
    ((maskNodes s (beField inp 2 1)) = [] → MbxEnded t c .done) ∧ ((maskNodes s (beField inp 2 1)) ≠ [] → changeOf t c = some { id := c, nodes := (maskNodes s (beField inp 2 1)), kind := 2 }) ∧
    (∀ e ∈ ((maskNodes s (beField inp 2 1))).map (fun n => Emit.ctl (BitVec.ofNat 11 n) (Ctl.quarantineSet (BitVec.ofNat 16 (beField inp 0 2)) false)), Puts s t e) ∧
    (homeQuiet s = true → t.home = s.home))

/-- Frames through the switching core. Rows: FRAME_FORWARD (R266), FRAME_RESIDENCY_EXPIRE (R135), EGRESS_SELECT
(R268), TDM_SLOT (R269), SWC_MIRROR (R275). A clause that follows a reading of the model's where the spec leaves a
point open follows log entries 32, 33, 69, 94, 117, 126, 127, 128 and 130. -/
def Obligations.Switching : Prop :=
  (∀ (s : State) (p : Port) (f : Frame) (line : LineIn) (cells : Ecc),
    s.chip.running = true →
    (portSt s p).state = .up →
    isFabricPort s p = true →
    f.hcrcOk = true →
    (portSt s p).enc = false ∨ encOk (portSt s p) line = true →
    (portSt s p).late = true ∨ (portSt s p).delin = true ∨ line.idle = true ∨ regains f = true →
    s.ten.shared = true →
    f.red = true →
    f.dst.toNat = memEp s →
    ∃ t, exec (.frameForward p f line cells) s = .next t ∧
      Puts s t (.frame 88 (if (portSt s p).late then invertTrailer f else f)) ∧ (portSt t p).late = false) ∧
  (∀ (s : State) (p : Port) (f : Frame) (line : LineIn) (e : Nat),
    AtRest s →
    (portSt s p).state = .up →
    isFabricPort s p = true →
    f.hcrcOk = true →
    (portSt s p).enc = false ∨ encOk (portSt s p) line = true →
    (portSt s p).late = false →
    (portSt s p).delin = true ∨ line.idle = true ∨ regains f = true →
    s.ten.shared = true →
    f.red = false →
    f.cls = 0 →
    1 < f.ttl.toNat →
    epNode s f.dst.toNat ≠ some (nodeId s) →
    egressFor s (({ f with ttl := f.ttl - 1 } : Frame).reseal) = some e →
    controlCells s + f.cells ≤ 8192 →
    (∀ n ∈ List.range 8, bitAt s (mirOff n) 0 = false) →
    ∃ t, exec (.frameForward p f line .clean) s = .next t ∧
      (egOf t e).control = (egOf s e).control ++ [({ f with ttl := f.ttl - 1 } : Frame).reseal]) ∧
  (∀ (s : State) (e : Egress),
    AtRest s →
    ∃ t, exec (.frameResidencyExpire e 32) s = .next t ∧
      (egOf t e).control = (egOf s e).control.drop 1 ∧
    t.home = s.home) ∧
  (∀ (s : State) (e : Egress) (now : Tick) (cells : Ecc) (f : Frame) (rest : List Frame),
    AtRest s →
    egressUp s e = true →
    swcOn s = true →
    s.ten.tdmOn = false →
    (egOf s e).control = f :: rest →
    f.type ≠ tCtl →
    cells ≠ .uncorrectable →
    isCxlReq s f = false →
    (egOf s e).busyTo ≤ Machine.now (advance now s) →
    analysisPort s e = false →
    ∃ t, exec (.egressSelect e ⟨now, cells⟩) s = .next t ∧
      Puts s t (.frame e f) ∧ (egOf t e).control = rest) ∧
  (∀ (s : State) (p : Port) (now : Tick) (cells : Ecc) (f : Frame),
    s.chip.running = true →
    tdmAt s p = true →
    egressUp s p = true →
    swcOn s = true →
    s.time.started = true →
    s.time.count ≤ now →
    slotOwner s p now.toNat = 0x80 →
    (egOf s p).control.find? (fun g => g.type == tCtl) = some f →
    f.size * 400 ≤ (egOf s p).tokens →
    f.size * 400 ≤ 1638400 →
    now.toNat + sendTicks s p f ≤ slotRunEnd s p now.toNat →
    cells ≠ .uncorrectable →
    (egOf s p).busyTo ≤ now.toNat →
    analysisPort s p = false →
    ∃ t, exec (.tdmSlot p ⟨now, cells⟩) s = .next t ∧
      Puts s t (.frame (Fin.castLE (by decide) p) f)) ∧
  (∀ (s : State) (c : Chan) (dma : Bytes) (inp : Bytes),
    AtRest s →
    MbxRuns s c 0x50 dma inp →
    beField inp 0 1 < 8 →
    slice inp 1 3 = [0, 0, 0] →
    mirOk (beField inp 4 4) (beField inp 12 4) = true →
    (beField inp 4 4).testBit 0 = false →
    ∃ t, exec (.swcMirror c dma) s = .next t ∧
      word t (mirOff (beField inp 0 1)) = BitVec.ofNat 32 (beField inp 4 4) ∧ word t (mirOff (beField inp 0 1) + 4) = BitVec.ofNat 32 (beField inp 8 4) ∧
    word t (mirOff (beField inp 0 1) + 8) = BitVec.ofNat 32 (beField inp 12 4) ∧ MbxEnded t c .done ∧
    (homeQuiet s = true → t.home = s.home)) ∧
  (∀ (s : State) (e : Egress) (now : Tick) (f : Frame) (rest : List Frame),
    AtRest s →
    egressUp s e = true →
    swcOn s = true →
    s.ten.tdmOn = false →
    (egOf s e).control = f :: rest →
    f.type ≠ tCtl →
    (egOf s e).busyTo ≤ Machine.now (advance now s) →
    analysisPort s e = false →
    ∃ t, exec (.egressSelect e ⟨now, .uncorrectable⟩) s = .next t ∧
      (egOf t e).control = rest) ∧
  (∀ (s : State) (now : Tick) (cells : Ecc) (q : Nat) (d : Table Nat) (g : Frame) (f : Frame),
    AtRest s →
    swcOn s = true →
    s.ten.tdmOn = false →
    (egOf s egMem).control = [] →
    (egOf s egMem).lane = [] →
    openWindow s egMem = none →
    s.sw.residue = [] →
    drrPick s (egOf s egMem) (headOf s egMem) = some (q, d) →
    (tget [] (egOf s egMem).queues q).head? = some g →
    nextWindow s egMem (Machine.now (advance now s)) = none →
    cells ≠ .uncorrectable →
    s.hif.cxl.wait = [f] →
    unmarked f = unmarked g →
    homeReach s hpMem f = .done →
    (egOf s egMem).busyTo ≤ Machine.now (advance now s) →
    analysisPort s egMem = false →
    ∃ t, exec (.egressSelect 88 ⟨now, cells⟩) s = .next t ∧
      t.home.accesses.any (fun a => a.cxl && a.home == hpMem && a.frame == f) = true ∧ t.hif.cxl.wait = [])

/-- ALM_LOAD, ALM_UNLOAD and the start of an iteration. Rows: ALM_LOAD (R160), ALM_UNLOAD (R161), ITERATION_START
(R162). A clause that follows a reading of the model's where the spec leaves a point open follows log entry 35. -/
def Obligations.AlmanacLoading : Prop :=
  (∀ (s : State) (c : Chan) (dma : Bytes) (inp : Bytes),
    s.chip.running = true →
    MbxRuns s c 0x30 dma inp →
    beField inp 0 4 = 0x414C4D4E →
    (parseAlm inp).format = 1 ∨ (parseAlm inp).format = 2 →
    almDigestOk inp = true →
    almFields s inp (parseAlm inp) = true →
    almRights s (parseAlm inp) = true →
    almFits s (parseAlm inp) = true →
    almWindowsFree s (parseAlm inp) = true →
    almColls (parseAlm inp) = [] →
    now s + 400000 ≤ (parseAlm inp).start →
    mbxFits s c 4 = true →
    ∃ t, exec (.almLoad c dma) s = .next t ∧
      t.alm.map (fun a => (a.job, a.state, a.entries)) = s.alm.map (fun a => (a.job, a.state, a.entries)) ++ [((parseAlm inp).job, .loaded, (parseAlm inp).entries)]) ∧
  (∀ (s : State) (c : Chan) (dma : Bytes) (inp : Bytes),
    s.chip.running = true →
    MbxRuns s c 0x31 dma inp →
    (almOf s (BitVec.ofNat 32 (beField inp 0 4))).isSome = true →
    ∃ t, exec (.almUnload c dma) s = .next t ∧
      almOf t (BitVec.ofNat 32 (beField inp 0 4)) = none) ∧
  (∀ (s : State) (job : BitVec 32) (now : Tick) (a : Almanac),
    s.chip.running = true →
    almOf s job = some a →
    a.state = .loaded →
    s.time.started = true →
    s.time.count ≤ now →
    a.start + shiftAt a a.start ≤ now.toNat →
    ∃ t, exec (.iterationStart job now) s = .next t ∧
      (almOf t job).map (fun b => (b.state, b.iter, b.fired)) = some (.running, 0, [])) ∧
  (∀ (s : State) (job : BitVec 32) (now : Tick) (a : Almanac),
    s.chip.running = true →
    almOf s job = some a →
    a.state = .running →
    a.iters = 0 ∨ a.iter + 1 < a.iters →
    s.time.started = true →
    s.time.count ≤ now →
    a.start + (a.iter + 1) * a.period + shiftAt a (a.start + (a.iter + 1) * a.period) ≤ now.toNat →
    ∃ t, exec (.iterationStart job now) s = .next t ∧
      (almOf t job).map (fun b => (b.state, b.iter, b.fired)) = some (.running, a.iter + 1, [])) ∧
  (∀ (s : State) (job : BitVec 32) (now : Tick) (a : Almanac),
    s.chip.running = true →
    almOf s job = some a →
    a.state = .running →
    a.iters = a.iter + 1 →
    s.time.started = true →
    s.time.count ≤ now →
    a.start + (a.iter + 1) * a.period + shiftAt a (a.start + (a.iter + 1) * a.period) ≤ now.toNat →
    ∃ t, exec (.iterationStart job now) s = .next t ∧
      (almOf t job).map (fun b => b.state) = some .done)

/-- Entries that fall due fire once, with their operation. Rows: WINDOW (R163), WINDOW_CLOSE (R163), COLL_STEP
(R200), MULTICAST (R196), MOVE_ENTRY (R159), NOP (R159). A clause that follows a reading of the model's where the
spec leaves a point open follows log entries 35, 93, 94, 121 and 124. -/
def Obligations.AlmanacEntries : Prop :=
  (∀ (s : State) (job : BitVec 32) (idx : Nat) (now : Tick) (a : Almanac) (e : AlmEntry),
    AtRest s →
    almOf s job = some a →
    a.state = .running →
    a.entries[idx]? = some e →
    e.type = 1 →
    idx ∉ a.fired →
    s.time.started = true →
    s.time.count ≤ now →
    dueAt a a.iter e.offset ≤ now.toNat →
    turnOpen (advance now s) true (dueAt a a.iter e.offset) (a.first + idx) = true →
    e.guard = 0 →
    s.time.servo ≠ .unlocked ∨ isFabricPort s (e.bits 0 7) = false →
    ∃ t, exec (.window job idx now) s = .next t ∧
      (almOf t job).any (fun b => b.fired.contains idx) = true ∧
    t.sw.wins = s.sw.wins ++ [{ port := e.bits 0 7, tenant := a.tenant, job := a.job, close := dueAt a a.iter e.offset + e.bits 32 32, isOpen := !s.sw.wins.any (fun w => w.isOpen && winShares s (e.bits 0 7) a.tenant w) }]) ∧
  (∀ (s : State) (p : Port) (now : Tick),
    AtRest s →
    s.time.started = true →
    s.time.count ≤ now →
    commitDue (advance now s) = false →
    ∃ t, exec (.windowClose p now) s = .next t ∧
      t.sw.wins.all (fun w => !(w.port == p.val && decide (w.close ≤ now.toNat))) = true ∧
    t.home = s.home) ∧
  (∀ (s : State) (job : BitVec 32) (idx : Nat) (now : Tick) (a : Almanac) (e : AlmEntry) (up : CelReads) (k : Nat) (x : Ctx),
    AtRest s →
    almOf s job = some a →
    a.state = .running →
    a.entries[idx]? = some e →
    e.type = 2 →
    idx ∉ a.fired →
    s.time.started = true →
    s.time.count ≤ now →
    dueAt a a.iter e.offset ≤ now.toNat →
    turnOpen (advance now s) false (dueAt a a.iter e.offset) (a.first + idx) = true →
    e.guard = 0 →
    ctxsOf s a.tenant (beField (a.descs.getD (e.bits 0 12) []) 4 4) = [(k, x)] →
    ctxOf s k = x →
    x.alm = some a.job →
    x.slots = [] →
    x.waitData = [] →
    ∃ t, exec (.collStep job idx ⟨now, up⟩) s = .next t ∧
      (almOf t job).any (fun b => b.fired.contains idx) = true ∧ (ctxOf t k).steps = x.steps ++ [(a.iter % 2 ^ 32, e.bits 12 8)]) ∧
  (∀ (s : State) (job : BitVec 32) (idx : Nat) (now : Tick) (a : Almanac) (e : AlmEntry) (lines : List (Nat × Ecc)) (p : Nat) (bs : Bytes) (d : Bytes) (x : McastPort),
    AtRest s →
    almOf s job = some a →
    a.state = .running →
    a.entries[idx]? = some e →
    e.type = 3 →
    idx ∉ a.fired →
    s.time.started = true →
    s.time.count ≤ now →
    dueAt a a.iter e.offset ≤ now.toNat →
    turnOpen (advance now s) false (dueAt a a.iter e.offset) (a.first + idx) = true →
    e.guard = 0 →
    a.descs.getD (e.bits 0 12) [] = d →
    bitsSet 72 (beField d 4 9) = [p] →
    x = { tenant := a.tenant, job := a.job, iter := a.iter, idx := e.bits 0 12, desc := d, port := p } →
    x.bound s = true →
    mcastReady s x = true →
    ownsStacks s a.tenant.toNat (beField d 16 8) (beField d 24 8) = true →
    ownRead s (beField d 16 8) (beField d 24 8) lines = some bs →
    s.trn.send = [] →
    0 < ctxLimit s (unitOf s (BitVec.ofNat 16 (memEp s)) a.tenant) →
    controlCells s < 8192 →
    (deviceStore (.multicast x) a.tenant (slotEp s p) (fvaAt (slotEp s p) (beField d 32 8)) (beField d 40 2) (beField d 42 4) bs 1 false (bs.length / 2 ^ 21 + 2) s).isSome = true →
    ∃ t, exec (.multicast job idx now lines) s = .next t ∧
      (almOf t job).any (fun b => b.fired.contains idx) = true ∧ t.trn.reqs.any (fun r => r.origin == .multicast x && r.opc == 2) = true) ∧
  (∀ (s : State) (job : BitVec 32) (idx : Nat) (now : Tick) (a : Almanac) (e : AlmEntry),
    AtRest s →
    almOf s job = some a →
    a.state = .running →
    a.entries[idx]? = some e →
    e.type = 4 →
    idx ∉ a.fired →
    s.time.started = true →
    s.time.count ≤ now →
    dueAt a a.iter e.offset ≤ now.toNat →
    turnOpen (advance now s) false (dueAt a a.iter e.offset) (a.first + idx) = true →
    e.guard = 0 →
    (parseMove (a.descs.getD (e.bits 0 12) [])).plane = some s.fab.plane.toNat →
    ∃ t, exec (.moveEntry job idx now) s = .next t ∧
      (almOf t job).any (fun b => b.fired.contains idx) = true ∧ t.mov.moves.any (fun v => v.origin == .almanac a.job a.iter (e.bits 0 12) && v.desc == a.descs.getD (e.bits 0 12) [] && v.tenant == a.tenant) = true) ∧
  (∀ (s : State) (job : BitVec 32) (idx : Nat) (now : Tick) (a : Almanac) (e : AlmEntry),
    s.chip.running = true →
    almOf s job = some a →
    a.state = .running →
    a.entries[idx]? = some e →
    e.type = 0 →
    idx ∉ a.fired →
    s.time.started = true →
    s.time.count ≤ now →
    dueAt a a.iter e.offset ≤ now.toNat →
    turnOpen (advance now s) false (dueAt a a.iter e.offset) (a.first + idx) = true →
    e.guard = 0 →
    ∃ t, exec (.nop job idx now) s = .next t ∧
      (almOf t job).any (fun b => b.fired.contains idx) = true) ∧
  (∀ (s : State) (job : BitVec 32) (idx : Nat) (now : Tick) (a : Almanac) (e : AlmEntry) (lines : List (Nat × Ecc)) (d : Bytes),
    AtRest s →
    almOf s job = some a →
    a.state = .running →
    a.entries[idx]? = some e →
    e.type = 3 →
    idx ∉ a.fired →
    s.time.started = true →
    s.time.count ≤ now →
    dueAt a a.iter e.offset ≤ now.toNat →
    turnOpen (advance now s) false (dueAt a a.iter e.offset) (a.first + idx) = true →
    e.guard = 0 →
    a.descs.getD (e.bits 0 12) [] = d →
    ownsStacks s a.tenant.toNat (beField d 16 8) (beField d 24 8) = true →
    ownRead s (beField d 16 8) (beField d 24 8) lines = none →
    ∃ t, exec (.multicast job idx now lines) s = .next t ∧
      (almOf t job).any (fun b => b.fired.contains idx) = true ∧ Puts s t (.entryEnded a.job a.iter (e.bits 0 12) .tierFailed) ∧ t.trn.reqs = s.trn.reqs) ∧
  (∀ (s : State) (job : BitVec 32) (idx : Nat) (now : Tick) (a : Almanac) (e : AlmEntry) (lines : List (Nat × Ecc)) (p : Nat) (bs : Bytes) (d : Bytes) (x : McastPort),
    AtRest s →
    almOf s job = some a →
    a.state = .running →
    a.entries[idx]? = some e →
    e.type = 3 →
    idx ∉ a.fired →
    s.time.started = true →
    s.time.count ≤ now →
    dueAt a a.iter e.offset ≤ now.toNat →
    turnOpen (advance now s) false (dueAt a a.iter e.offset) (a.first + idx) = true →
    e.guard = 0 →
    a.descs.getD (e.bits 0 12) [] = d →
    bitsSet 72 (beField d 4 9) = [p] →
    x = { tenant := a.tenant, job := a.job, iter := a.iter, idx := e.bits 0 12, desc := d, port := p } →
    x.bound s = true →
    mcastReady s x = false →
    ownsStacks s a.tenant.toNat (beField d 16 8) (beField d 24 8) = true →
    ownRead s (beField d 16 8) (beField d 24 8) lines = some bs →
    ∃ t, exec (.multicast job idx now lines) s = .next t ∧
      (almOf t job).any (fun b => b.fired.contains idx) = true ∧ t.sw.lag = s.sw.lag ++ [x] ∧ t.trn.reqs = s.trn.reqs)

/-- Readiness checks, slips and held entries. Rows: CHECK_READY (R167), SLIP (R167), SLIP_EFFECTIVE (R167),
HELD_ENTRY_FIRE (R168). A clause that follows a reading of the model's where the spec leaves a point open follows
log entries 36, 96, 123, 124 and 125. -/
def Obligations.ReadinessAndSlips : Prop :=
  (∀ (s : State) (job : BitVec 32) (idx : Nat) (now : Tick) (a : Almanac) (e : AlmEntry) (ecc : Ecc),
    s.chip.running = true →
    almOf s job = some a →
    a.state = .running →
    a.entries[idx]? = some e →
    e.type = 5 →
    idx ∉ a.fired →
    s.time.started = true →
    s.time.count ≤ now →
    dueAt a a.iter e.offset ≤ now.toNat →
    turnOpen (advance now s) false (dueAt a a.iter e.offset) (a.first + idx) = true →
    a.attempts = [] →
    a.held = [] →
    evalCheck s a a.iter e ecc = .holds →
    ∃ t, exec (.checkReady job idx now ecc) s = .next t ∧
      (almOf t job).any (fun b => b.fired.contains idx) = true ∧ (almOf t job).map (fun b => guardOf b a.iter e.guard.toNat) = some .armed) ∧
  (∀ (s : State) (job : BitVec 32) (idx : Nat) (now : Tick) (a : Almanac) (e : AlmEntry) (ecc : Ecc),
    s.chip.running = true →
    almOf s job = some a →
    a.state = .running →
    a.entries[idx]? = some e →
    e.type = 5 →
    idx ∉ a.fired →
    s.time.started = true →
    s.time.count ≤ now →
    dueAt a a.iter e.offset ≤ now.toNat →
    turnOpen (advance now s) false (dueAt a a.iter e.offset) (a.first + idx) = true →
    a.attempts = [] →
    a.held = [] →
    evalCheck s a a.iter e ecc = .no →
    0 < slipLimitOf s a →
    a.slipKeys = [] →
    coreSt s coreSched = .running →
    a.quanta = [] →
    ∃ t, exec (.checkReady job idx now ecc) s = .next t ∧
      (almOf t job).map (fun b => (b.slipKeys, b.attempts)) = some ([(BitVec.toNat (BitVec.ofNat 32 a.iter), e.guard.toNat, 1)], [(a.iter, idx, 1, now.toNat + a.slipQ)]) ∧
    Puts s t (.chainSlip (slipBytes { job := a.job, iter := BitVec.ofNat 32 a.iter, guard := e.guard, attempt := 1, tEff := BitVec.ofNat 64 (now.toNat + a.slipLead), shiftAfter := BitVec.ofNat 64 (shiftAll a + a.slipQ) }))) ∧
  (∀ (s : State) (via : Via) (bs : Bytes) (m : SlipMsg) (a : Almanac),
    s.chip.running = true →
    parseSlip bs = some m →
    almOf s m.job = some a →
    (m.iter.toNat, m.guard.toNat, m.attempt.toNat) ∉ a.slipKeys →
    ∃ t, exec (.slip via bs) s = .next t ∧
      (almOf t m.job).map (fun b => (b.slipKeys, b.quanta)) = some (a.slipKeys ++ [(m.iter.toNat, m.guard.toNat, m.attempt.toNat)],
      putQuantum (m.tEff.toNat, Nat.max (shiftAll a + a.slipQ) m.shiftAfter.toNat - shiftAll a) a.quanta) ∧
    Puts s t (.chainSlip (slipBytes m))) ∧
  (∀ (s : State) (job : BitVec 32) (now : Tick) (a : Almanac) (q : Nat × Nat),
    s.chip.running = true →
    almOf s job = some a →
    a.quanta = [q] →
    q.1 ≤ now.toNat →
    s.time.started = true →
    s.time.count ≤ now →
    ∃ t, exec (.slipEffective job now) s = .next t ∧
      (almOf t job).map (fun b => (b.shift, b.quanta)) = some (a.shift + q.2, [])) ∧
  (∀ (s : State) (job : BitVec 32) (idx : Nat) (now : Tick) (a : Almanac) (e : AlmEntry) (found : HeldReads) (i : Nat) (c : AlmEntry),
    s.chip.running = true →
    almOf s job = some a →
    a.held = [(i, idx)] →
    a.entries[idx]? = some e →
    a.entries.find? (fun x => x.type == 5 && x.guard == e.guard) = some c →
    evalCheck s a i c found.word = .holds →
    ∃ t, exec (.heldEntryFire job idx now found) s = .next t ∧
      (almOf t job).map (fun b => b.held) = some []) ∧
  (∀ (s : State) (via : Via) (bs : Bytes) (m : SlipMsg),
    s.chip.running = true →
    parseSlip bs = some m →
    almOf s m.job = none →
    (m.job, m.iter.toNat, m.guard.toNat, m.attempt.toNat) ∉ s.time.slips →
    ∃ t, exec (.slip via bs) s = .next t ∧
      t.alm = s.alm ∧ Puts s t (.chainSlip (slipBytes m)) ∧ (via = .back ∨ chainBroken s = true → Puts s t (.chainBack (slipBytes m))) ∧
    t.time.slips = s.time.slips ++ [(m.job, m.iter.toNat, m.guard.toNat, m.attempt.toNat)])

/-- Descriptor chunks, data chunks, TREE_OPEN and TREE_CLOSE from an accelerator. Rows: DESCRIPTOR_CHUNK (R187),
DATA_CHUNK (R183), TREE_OPEN (R189), TREE_CLOSE (R187). A clause that follows a reading of the model's where the
spec leaves a point open follows log entries 37, 38 and 99. -/
def Obligations.CollectiveMessages : Prop :=
  (∀ (s : State) (p : APort) (m : AttMsg) (k : Nat) (x : Ctx) (mb : MemberSt) (mo : MemberSt),
    AtRest s →
    arrival s p m = .take →
    portBound s p = true →
    collFormat m = true →
    AttChunk m = 0xFFFFFFFF →
    bitOf (parseDesc m.payload).planes s.fab.plane.toNat = true →
    leafOf s (collTenant s p) (AttHandle m) = some (k, x) →
    ctxOf s k = x →
    x.memberAt p = some mb →
    x.state = .idle →
    x.digest = none →
    x.members = [mb, mo] →
    mb.desc = [] →
    mo.desc = [] →
    mo.index ≠ mb.index →
    descBad s x (parseDesc m.payload) = false →
    (parseDesc m.payload).shiftOk = true →
    progLoaded s x.tenant (parseDesc m.payload).program = true →
    x.waitKid = [] →
    x.waitDesc = [] →
    ∃ t, exec (.descriptorChunk p m) s = .next t ∧
      Puts s t (.attach p { opc := 0x3D, msn := m.msn }) ∧ (ctxOf t k).state = .active ∧ (ctxOf t k).seq.toNat = (parseDesc m.payload).seq ∧
    (ctxOf t k).digest = some (descDigest m.payload) ∧ (ctxOf t k).ref = m.payload.take 40 ∧
    (homeQuiet s = true → t.home = s.home)) ∧
  (∀ (s : State) (p : APort) (m : AttMsg) (k : Nat) (x : Ctx) (mb : MemberSt),
    AtRest s →
    arrival s p m = .take →
    portBound s p = true →
    collFormat m = true →
    leafOf s (collTenant s p) (AttHandle m) = some (k, x) →
    ctxOf s k = x →
    x.memberAt p = some mb →
    (sess s p).out = [] →
    x.state = .active →
    x.agreed = true →
    x.members = [mb] →
    mb.desc ≠ [] →
    mb.bad = false →
    x.waitDesc = [] →
    x.waitData = [] →
    x.seen = [] →
    x.slots = [] →
    s.arr.landing = [] →
    m.atop.toNat = (parseDesc mb.desc).op →
    AttChunk m < (parseDesc mb.desc).chunks →
    (parseDesc mb.desc).planeOf (AttChunk m) = s.fab.plane.toNat →
    chunkLenOk (parseDesc mb.desc) (AttChunk m) m.payload = true →
    (parseDesc mb.desc).op ≠ 3 →
    (refOf s x).reduces = true →
    (refOf s x).arrival = false →
    (refOf s x).onPlane (AttChunk m) < x.freed + (refOf s x).window →
    ∃ t, exec (.dataChunk p m) s = .next t ∧
      Puts s t (.attach p { opc := 0x3D, msn := m.msn }) ∧ (ctxOf t k).seen = [(mb.index, AttChunk m)] ∧
    (ctxOf t k).slots = [{ chunk := AttChunk m, landed := [(mb.index, m.payload)] }] ∧
    (homeQuiet s = true → t.home = s.home)) ∧
  (∀ (s : State) (p : APort) (m : AttMsg),
    AtRest s →
    arrival s p m = .take →
    portBound s p = true →
    collFormat m = true →
    m.atop = 0x10 →
    bitOf (parseDesc m.payload).planes s.fab.plane.toNat = true →
    fvaOk (parseDesc m.payload).fva = true →
    ((parseDesc m.payload).fva.testBit 63 && bitsOf (parseDesc m.payload).fva 60 3 != s.fab.plane.toNat) = false →
    (match listFrames s (collTenant s p) (parseDesc m.payload) 3 (parseDesc m.payload).fva (2 * (parseDesc m.payload).members) with | .ok [_] => true | _ => false) = true →
    s.trn.send = [] →
    0 < ctxLimit s (unitOf s (BitVec.ofNat 16 (memEp s)) (collTenant s p)) →
    controlCells s < 8192 →
    ∃ t, exec (.treeOpen p m) s = .next t ∧
      (openBy t p (nextOut s p)).isSome = true ∧
    t.trn.reqs.any (fun r => r.origin == .treeList p (nextOut s p) 0 && r.opc == 1) = true) ∧
  (∀ (s : State) (p : APort) (m : AttMsg) (k : Nat) (x : Ctx),
    AtRest s →
    arrival s p m = .take →
    portBound s p = true →
    collFormat m = true →
    m.atop = 0x11 →
    ctxsOf s (collTenant s p) (AttHandle m) = [(k, x)] →
    x.alm = none →
    x.state = .idle →
    ctxOf s k = x →
    x.waitDesc = [] →
    otherHosts s x.ids = [] →
    ∃ t, exec (.treeClose p m) s = .next t ∧
      ctxOf t k = {} ∧
    (homeQuiet s = true → t.home = s.home))

/-- Collective frames between the nodes of a tree. Rows: COLL_CHUNK (R214), COLL_RESULT (R193), COLL_CREDIT (R191),
COLL_DESC (R187), COLL_DONE (R187). A clause that follows a reading of the model's where the spec leaves a point
open follows log entries 37, 38, 98, 100, 101 and 121. -/
def Obligations.CollectiveFrames : Prop :=
  (∀ (s : State) (f : Frame) (r : RecvCtx) (k : Nat) (x : Ctx) (ecc : Ecc) (up : CelReads),
    AtRest s →
    f.opc = 0x40 →
    Served s f →
    f.ord = false →
    f.first = true →
    f.last = true →
    s.trn.recv = [r] →
    r.sid = fwdSid f →
    inSession r.ipsn f.psn = true →
    r.e = f.psn →
    r.held = [] →
    r.seen = [] →
    r.ackDue = [] →
    r.refused = [] →
    collFeatOk s f r.feat = true →
    ctxsOf s f.tenant f.handle = [(k, x)] →
    parentCtx s f = some (k, x) →
    ctxOf s k = x →
    x.isLeaf = false →
    x.slots = [] →
    takesPartial s x f.chunk = true →
    ∃ t, exec (.collChunk f ⟨ecc, up⟩) s = .next t ∧
      (ctxOf t k).slots = [{ chunk := f.chunk, part := some f.payload }]) ∧
  (∀ (s : State) (f : Frame) (r : RecvCtx) (k : Nat) (x : Ctx) (j : Kid),
    AtRest s →
    f.opc = 0x41 →
    Served s f →
    f.ord = false →
    f.first = true →
    f.last = true →
    s.trn.recv = [r] →
    r.sid = fwdSid f →
    inSession r.ipsn f.psn = true →
    r.e = f.psn →
    r.held = [] →
    r.seen = [] →
    r.ackDue = [] →
    r.refused = [] →
    collFeatOk s f r.feat = true →
    f.dst.toNat = memEp s →
    ctxsOf s f.tenant f.handle = [(k, x)] →
    coverCtx s f = some (k, x) →
    ctxOf s k = x →
    x.state = .active →
    x.members = [] →
    x.kids = [j] →
    j.node ≠ nodeId s →
    x.isRoot = false →
    x.doneDown = false →
    x.ref ≠ [] →
    s.trn.send = [] →
    0 < ctxLimit s (unitOf s (BitVec.ofNat 16 (memEp s)) f.tenant) →
    controlCells s < 8192 →
    ∃ t, exec (.collResult f) s = .next t ∧
      (ctxOf t k).outs = x.outs + 1 ∧ t.trn.reqs.any (fun q => q.origin == .coll k f.chunk && q.opc == 0x41 && q.sid.dst == BitVec.ofNat 16 (epOfNode j.node)) = true) ∧
  (∀ (s : State) (f : Frame) (r : RecvCtx) (k : Nat) (x : Ctx) (up : CelReads),
    AtRest s →
    f.opc = 0x42 →
    Served s f →
    f.ord = false →
    f.first = true →
    f.last = true →
    s.trn.recv = [r] →
    r.sid = fwdSid f →
    inSession r.ipsn f.psn = true →
    r.e = f.psn →
    r.held = [] →
    r.seen = [] →
    r.ackDue = [] →
    r.refused = [] →
    collFeatOk s f r.feat = true →
    leafOf s f.tenant f.handle = some (k, x) →
    ctxOf s k = x →
    (parseDesc x.descr).reduces = false →
    x.waitData = [] →
    x.state = .active →
    x.seq = BitVec.ofNat 32 f.chunk →
    ∃ t, exec (.collCredit ⟨f, up⟩) s = .next t ∧
      (ctxOf t k).grants = x.grants.filter (fun g => !(g.1 == f.loIdx)) ++ [(f.loIdx, beField f.payload 0 8)]) ∧
  (∀ (s : State) (f : Frame) (r : RecvCtx) (k : Nat) (x : Ctx),
    AtRest s →
    f.opc = 0x43 →
    Served s f →
    f.ord = false →
    f.first = true →
    f.last = true →
    s.trn.recv = [r] →
    r.sid = fwdSid f →
    inSession r.ipsn f.psn = true →
    r.e = f.psn →
    r.held = [] →
    r.seen = [] →
    r.ackDue = [] →
    r.refused = [] →
    collFeatOk s f r.feat = true →
    parentCtx s f = some (k, x) →
    ctxOf s k = x →
    x.state = .idle →
    x.waitKid = [] →
    x.waitDesc = [] →
    x.members.any (fun m => m.desc.isEmpty) = true →
    ∃ t, exec (.collDesc f) s = .next t ∧
      (ctxOf t k).state = .active ∧ (ctxOf t k).digest = some (BitVec.ofNat 64 (beField f.payload 0 8)) ∧ (ctxOf t k).seq = BitVec.ofNat 32 (beField f.payload 8 4)) ∧
  (∀ (s : State) (f : Frame) (r : RecvCtx) (k : Nat) (x : Ctx),
    AtRest s →
    f.opc = 0x44 →
    Served s f →
    f.ord = false →
    f.first = true →
    f.last = true →
    s.trn.recv = [r] →
    r.sid = fwdSid f →
    inSession r.ipsn f.psn = true →
    r.e = f.psn →
    r.held = [] →
    r.seen = [] →
    r.ackDue = [] →
    r.refused = [] →
    collFeatOk s f r.feat = true →
    coverCtx s f = some (k, x) →
    ctxOf s k = x →
    x.seq.toNat = beField f.payload 0 4 →
    x.state = .active →
    x.doneDown = false →
    x.kids = [] →
    x.isLeaf = true →
    x.ref ≠ [] →
    membersDone s x = false →
    ∃ t, exec (.collDone f) s = .next t ∧
      (ctxOf t k).doneDown = true ∧ (ctxOf t k).state = .active) ∧
  (∀ (s : State) (f : Frame) (r : RecvCtx) (k : Nat) (x : Ctx) (up : CelReads),
    AtRest s →
    f.opc = 0x42 →
    Served s f →
    f.ord = false →
    f.first = true →
    f.last = true →
    s.trn.recv = [r] →
    r.sid = fwdSid f →
    inSession r.ipsn f.psn = true →
    r.e = f.psn →
    r.held = [] →
    r.seen = [] →
    r.ackDue = [] →
    r.refused = [] →
    collFeatOk s f r.feat = true →
    leafOf s f.tenant f.handle = some (k, x) →
    ctxOf s k = x →
    (parseDesc x.descr).reduces = false →
    x.waitData = [] →
    x.ran = false ∨ 0 < psnDiff (BitVec.ofNat 32 f.chunk) x.seq →
    x.state ≠ .active ∨ x.seq ≠ BitVec.ofNat 32 f.chunk →
    ∃ t, exec (.collCredit ⟨f, up⟩) s = .next t ∧
      (ctxOf t k).early = x.early ++ [(f.loIdx, beField f.payload 0 8, BitVec.ofNat 32 f.chunk)] ∧ (ctxOf t k).grants = x.grants) ∧
  (∀ (s : State) (f : Frame) (r : RecvCtx) (k : Nat) (x : Ctx) (up : CelReads),
    AtRest s →
    f.opc = 0x42 →
    Served s f →
    f.ord = false →
    f.first = true →
    f.last = true →
    s.trn.recv = [r] →
    r.sid = fwdSid f →
    inSession r.ipsn f.psn = true →
    r.e = f.psn →
    r.held = [] →
    r.seen = [] →
    r.ackDue = [] →
    r.refused = [] →
    collFeatOk s f r.feat = true →
    ctxsOf s f.tenant f.handle = [(k, x)] →
    leafOf s f.tenant f.handle = some (k, x) →
    coverCtx s f = some (k, x) →
    ctxOf s k = x →
    (parseDesc x.descr).reduces = true →
    x.waitData = [] →
    x.slots = [] →
    x.state = .active →
    x.seq = BitVec.ofNat 32 f.chunk →
    ∃ t, exec (.collCredit ⟨f, up⟩) s = .next t ∧
      (ctxOf t k).limit = Nat.max x.limit (beField f.payload 0 8))

/-- Trees between devices, and aborts. Rows: TREE_OPEN_CTL (R189), TREE_REPLY (R189), TREE_RELEASE (R187),
TREE_OPEN_TIMEOUT (R189), COLL_ABORT (R199), COLL_IDLE_ABORT (R198), CONTEXT_CLEAR (R187). A clause that follows a
reading of the model's where the spec leaves a point open follows log entries 37, 39 and 97. -/
def Obligations.TreeMessages : Prop :=
  (∀ (s : State) (f : Frame) (ids : List (BitVec 16)) (n : TNode) (g : Nat),
    AtRest s →
    Taken s tCtl f →
    f.opc = 0x45 →
    listDigest ids = slice f.payload 40 8 →
    ctxsOf s f.tenant f.handle = [] →
    (parseDesc f.payload).fieldsOk = true →
    (parseDesc f.payload).members = ids.length →
    ids.all (fun e => e.toNat / 72 != s.fab.rack.toNat || (portBound s (e.toNat % 72) && portTenant s (e.toNat % 72) == f.tenant.toNat)) = true →
    hosted s (parseDesc f.payload) ids = [n] →
    collCtlOk f = true →
    collOn s (parseDesc f.payload) = true →
    s.ten.shared = true →
    ctxUsed s none < 4096 →
    (ctxOf s 0).state = .free →
    (parseDesc f.payload).reduces = true →
    celSetFor s f.tenant.toNat = some g →
    (parseDesc f.payload).win64k ≤ celFree s g →
    controlCells s < 8192 →
    ∃ t, exec (.treeOpenCtl f ids) s = .next t ∧
      ctxOf t 0 = mkCtx s f.tenant none f.payload ids (some g) n ∧
    (homeQuiet s = true → t.home = s.home)) ∧
  (∀ (s : State) (f : Frame) (o : TreeOpenSt),
    AtRest s →
    Taken s tCtl f →
    f.opc = 0x46 →
    s.coll.opens = [o] →
    o.tenant = f.tenant →
    o.handle.toNat = f.handle →
    o.listed = true →
    o.wait = [f.src.toNat - 0x4800] →
    collCtlOk f = true →
    ∃ t, exec (.treeReply f) s = .next t ∧
      t.coll.opens = [] ∧
    (homeQuiet s = true → t.home = s.home)) ∧
  (∀ (s : State) (f : Frame) (k : Nat) (x : Ctx),
    AtRest s →
    Taken s tCtl f →
    f.opc = 0x47 →
    collCtlOk f = true →
    ctxsOf s f.tenant f.handle = [(k, x)] →
    x.alm = none →
    x.state = .idle →
    ctxOf s k = x →
    x.waitDesc = [] →
    ∃ t, exec (.treeRelease f) s = .next t ∧
      ctxOf t k = {} ∧
    (homeQuiet s = true → t.home = s.home)) ∧
  (∀ (s : State) (ten : BitVec 12) (h : BitVec 32) (o : TreeOpenSt),
    AtRest s →
    s.coll.opens = [o] →
    o.tenant = ten →
    o.handle = h →
    o.wait ≠ [] →
    o.listed = true →
    ∃ t, exec (.treeOpenTimeout ten h) s = .next t ∧
      t.coll.opens = [] ∧
    (homeQuiet s = true → t.home = s.home)) ∧
  (∀ (s : State) (f : Frame),
    s.chip.running = true →
    f.opc = 0x48 →
    collCtlOk f = true →
    ctxsOf s f.tenant f.handle = [] →
    ∃ t, exec (.collAbort .chain f) s = .next t ∧
      Puts s t (.chainAbort f)) ∧
  (∀ (s : State) (f : Frame) (k : Nat) (x : Ctx),
    AtRest s →
    Taken s tCtl f →
    f.opc = 0x48 →
    collCtlOk f = true →
    ctxsOf s f.tenant f.handle = [(k, x)] →
    ctxOf s k = x →
    x.state = .active →
    x.seq.toNat = beField f.payload 0 4 →
    x.members = [] →
    x.waitData = [] →
    (x.parent.toList ++ x.kids.map (·.node)).all (fun n => n == nodeId s) = true →
    ∃ t, exec (.collAbort .fport f) s = .next t ∧
      (ctxOf t k).state = (if f.status.toNat = Status.mismatch.code then .mismatch else .aborted) ∧ (ctxOf t k).slots = [] ∧
    (homeQuiet s = true → t.home = s.home)) ∧
  (∀ (s : State) (c : Fin 4096) (x : Ctx),
    AtRest s →
    ctxOf s c = x →
    ctxsOf s x.tenant x.handle.toNat = [(c.val, x)] →
    x.state = .active →
    x.members = [] →
    x.waitData = [] →
    (x.parent.toList ++ x.kids.map (·.node)).all (fun n => n == nodeId s) = true →
    ∃ t, exec (.collIdleAbort c) s = .next t ∧
      (ctxOf t c).state = .aborted ∧ (ctxOf t c).slots = [] ∧
    (homeQuiet s = true → t.home = s.home)) ∧
  (∀ (s : State) (c : Fin 4096),
    AtRest s →
    (ctxOf s c).state = .mismatch ∨ (ctxOf s c).state = .aborted →
    (ctxOf s c).waitDesc = [] →
    (ctxOf s c).waitKid = [] →
    ∃ t, exec (.contextClear c) s = .next t ∧
      ctxOf t c = { (ctxOf s c).fresh with state := .idle } ∧
    t.home = s.home)

/-- Chunk evaluation, landing stores, programs and the Cellar. Rows: CHUNK_EVALUATE (R213), LANDING_RESERVE (R206),
RDA_PROG_LOAD (R226), RDA_PROG_UNLOAD (R226), CELLAR_PATROL (R232). A clause that follows a reading of the model's
where the spec leaves a point open follows log entries 42, 43, 44 and 122. -/
def Obligations.ReductionArray : Prop :=
  (∀ (s : State) (c : Fin 4096) (k : BitVec 32) (land : Ecc) (cel : Ecc) (up : CelReads) (x : Ctx) (u : Slot),
    AtRest s →
    ctxOf s c = x →
    x.state = .active →
    x.isLeaf = true →
    (refOf s x).reduces = true →
    x.slots = [u] →
    u.chunk = k.toNat →
    u.out = none →
    ctxsOf s x.tenant x.handle.toNat = [(c.val, x)] →
    x.waitData = [] →
    (refOf s x).arrival = false →
    u.sum = none →
    u.landed.length = x.members.length →
    land ≠ .uncorrectable →
    up.mat ≠ .uncorrectable →
    x.agreed = false ∨ released x (refOf s x) k.toNat = false →
    ∃ t, exec (.chunkEvaluate c k ⟨land, cel, up⟩) s = .next t ∧
      (ctxOf t c).slots.map (fun v => (v.chunk, v.landed, v.out)) = [(k.toNat, [], some (if x.isRoot then packResult (ctxProg s (refOf s x)) (refOf s x) x.plane.toNat x.lo k.toNat (combineVec (refOf s x).comb ((u.landed.mergeSort (fun a b => decide (a.1 ≤ b.1))).map (fun v => contribution (ctxProg s (refOf s x))
      { refOf s x with weight := (parseDesc (((x.member v.1).map (·.desc)).getD [])).weight } ((refOf s x).elemsOf k.toNat) v.2)))
      else packPart (refOf s x) x.plane.toNat x.lo k.toNat (combineVec (refOf s x).comb ((u.landed.mergeSort (fun a b => decide (a.1 ≤ b.1))).map (fun v => contribution (ctxProg s (refOf s x))
      { refOf s x with weight := (parseDesc (((x.member v.1).map (·.desc)).getD [])).weight } ((refOf s x).elemsOf k.toNat) v.2)))).bytes)] ∧
    (homeQuiet s = true → t.home = s.home)) ∧
  (∀ (s : State) (c : Fin 4096) (k : BitVec 32) (land : Ecc) (cel : Ecc) (up : CelReads) (x : Ctx) (u : Slot),
    AtRest s →
    ctxOf s c = x →
    x.state = .active →
    x.isLeaf = true →
    (refOf s x).reduces = true →
    x.slots = [u] →
    u.chunk = k.toNat →
    u.out = none →
    ctxsOf s x.tenant x.handle.toNat = [(c.val, x)] →
    x.waitData = [] →
    (refOf s x).arrival = false →
    u.sum = none →
    u.landed.length = x.members.length →
    land ≠ .uncorrectable →
    up.mat ≠ .uncorrectable →
    x.isRoot = true →
    x.agreed = true →
    released x (refOf s x) k.toNat = true →
    x.outs + 1 < planeN s x →
    s.trn.send = [] →
    ∃ t, exec (.chunkEvaluate c k ⟨land, cel, up⟩) s = .next t ∧
      (ctxOf t c).slots = [] ∧ (ctxOf t c).outs = x.outs + 1 ∧ (ctxOf t c).freed = x.freed + 1 ∧ (ctxOf t c).state = .active ∧
    (homeQuiet s = true → t.home = s.home)) ∧
  (∀ (s : State) (c : Fin 4096) (k : BitVec 32) (land : Ecc) (cel : Ecc) (up : CelReads) (x : Ctx) (u : Slot) (n : Nat),
    AtRest s →
    ctxOf s c = x →
    x.state = .active →
    x.isLeaf = true →
    (refOf s x).reduces = true →
    x.slots = [u] →
    u.chunk = k.toNat →
    u.out = none →
    ctxsOf s x.tenant x.handle.toNat = [(c.val, x)] →
    x.waitData = [] →
    (refOf s x).arrival = false →
    u.sum = none →
    u.landed.length = x.members.length →
    land ≠ .uncorrectable →
    up.mat ≠ .uncorrectable →
    x.isRoot = false →
    x.parent = some n →
    n ≠ nodeId s →
    x.agreed = true →
    released x (refOf s x) k.toNat = true →
    (refOf s x).onPlane k.toNat < creditOf s c x →
    s.trn.send = [] →
    ∃ t, exec (.chunkEvaluate c k ⟨land, cel, up⟩) s = .next t ∧
      (ctxOf t c).slots = [] ∧ (ctxOf t c).freed = x.freed + 1 ∧
    t.trn.reqs.any (fun q => q.origin == .coll c k.toNat && q.opc == 0x40 && q.sid.dst == BitVec.ofNat 16 (epOfNode n)) = true ∧
    (homeQuiet s = true → t.home = s.home)) ∧
  (∀ (s : State) (c : Fin 4096) (k : BitVec 32) (land : Ecc) (cel : Ecc) (up : CelReads) (x : Ctx) (u : Slot) (n : Nat) (y : Ctx),
    AtRest s →
    ctxOf s c = x →
    x.state = .active →
    x.isLeaf = true →
    (refOf s x).reduces = true →
    x.slots = [u] →
    u.chunk = k.toNat →
    u.out = none →
    (refOf s x).arrival = false →
    u.sum = none →
    u.landed.length = x.members.length →
    land ≠ .uncorrectable →
    up.mat ≠ .uncorrectable →
    n ≠ c.val →
    ctxsOf s x.tenant x.handle.toNat = [(c.val, x), (n, y)] →
    ctxOf s n = y →
    y.isLeaf = false →
    y.state = .active →
    y.kids.any (fun j => j.lo == x.lo && j.hi == x.hi) = true →
    x.isRoot = false →
    x.parent = some (nodeId s) →
    x.waitData = [] →
    x.agreed = true →
    released x (refOf s x) k.toNat = true →
    (refOf s x).onPlane k.toNat < y.freed + (refOf s x).window →
    refBytes s x = x.ref →
    y.slots = [] →
    ∃ t, exec (.chunkEvaluate c k ⟨land, cel, up⟩) s = .next t ∧
      (ctxOf t c).slots = [] ∧ (ctxOf t n).slots = [{ chunk := k.toNat, part := some (if x.isRoot then packResult (ctxProg s (refOf s x)) (refOf s x) x.plane.toNat x.lo k.toNat (combineVec (refOf s x).comb ((u.landed.mergeSort (fun a b => decide (a.1 ≤ b.1))).map (fun v => contribution (ctxProg s (refOf s x))
      { refOf s x with weight := (parseDesc (((x.member v.1).map (·.desc)).getD [])).weight } ((refOf s x).elemsOf k.toNat) v.2)))
      else packPart (refOf s x) x.plane.toNat x.lo k.toNat (combineVec (refOf s x).comb ((u.landed.mergeSort (fun a b => decide (a.1 ≤ b.1))).map (fun v => contribution (ctxProg s (refOf s x))
      { refOf s x with weight := (parseDesc (((x.member v.1).map (·.desc)).getD [])).weight } ((refOf s x).elemsOf k.toNat) v.2)))).bytes }] ∧
    (homeQuiet s = true → t.home = s.home)) ∧
  (∀ (s : State) (c : Fin 4096) (k : BitVec 32) (land : Ecc) (cel : Ecc) (up : CelReads) (x : Ctx) (u : Slot) (n : Nat) (y : Ctx) (v : Slot) (bs : Bytes),
    AtRest s →
    ctxOf s c = x →
    x.state = .active →
    x.isLeaf = true →
    (refOf s x).reduces = true →
    x.slots = [u] →
    u.chunk = k.toNat →
    u.out = none →
    (refOf s x).arrival = false →
    u.sum = none →
    u.landed.length = x.members.length →
    land ≠ .uncorrectable →
    up.mat ≠ .uncorrectable →
    n ≠ c.val →
    ctxsOf s x.tenant x.handle.toNat = [(c.val, x), (n, y)] →
    ctxOf s n = y →
    y.isLeaf = false →
    y.state = .active →
    y.kids.any (fun j => j.lo == x.lo && j.hi == x.hi) = true →
    x.isRoot = false →
    x.parent = some (nodeId s) →
    x.waitData = [] →
    x.agreed = true →
    released x (refOf s x) k.toNat = true →
    (refOf s x).onPlane k.toNat < y.freed + (refOf s x).window →
    refBytes s x = x.ref →
    up.up = .uncorrectable →
    y.slots = [v] →
    v.chunk = k.toNat →
    v.out = none →
    v.part = some bs →
    (y.celSet.bind (fun g => bankOf s g ((refOf s x).onPlane k.toNat % Nat.max 1 (refOf s x).window))).isSome = true →
    ∃ t, exec (.chunkEvaluate c k ⟨land, cel, up⟩) s = .next t ∧
      (ctxOf t c).state = .aborted ∧ (ctxOf t c).status = .dataError ∧ (ctxOf t n).state = .aborted ∧
    (homeQuiet s = true → t.home = s.home)) ∧
  (∀ (s : State) (c : Fin 4096) (k : BitVec 32) (land : Ecc) (cel : Ecc) (up : CelReads) (x : Ctx) (u : Slot),
    AtRest s →
    ctxOf s c = x →
    x.state = .active →
    x.isLeaf = true →
    (refOf s x).reduces = true →
    x.slots = [u] →
    u.chunk = k.toNat →
    u.out = none →
    ctxsOf s x.tenant x.handle.toNat = [(c.val, x)] →
    x.waitData = [] →
    (refOf s x).arrival = true →
    u.landed ≠ [] →
    u.taken + (u.landed.take 32).length ≠ x.members.length →
    land ≠ .uncorrectable →
    up.mat ≠ .uncorrectable →
    u.sum = none ∨ cel ≠ .uncorrectable →
    ∃ t, exec (.chunkEvaluate c k ⟨land, cel, up⟩) s = .next t ∧
      (ctxOf t c).slots.map (fun v => (v.landed, v.taken, v.out)) = [(u.landed.drop 32, u.taken + (u.landed.take 32).length, none)] ∧
    (ctxOf t c).slots.map (fun v => v.sum) = [some ((u.sum.map (fun o => List.zipWith (refOf s x).comb o (combineVec (refOf s x).comb ((u.landed.take 32).map (fun v => contribution (ctxProg s (refOf s x))
      { refOf s x with weight := (parseDesc (((x.member v.1).map (·.desc)).getD [])).weight } ((refOf s x).elemsOf k.toNat) v.2))))).getD
        (combineVec (refOf s x).comb ((u.landed.take 32).map (fun v => contribution (ctxProg s (refOf s x))
      { refOf s x with weight := (parseDesc (((x.member v.1).map (·.desc)).getD [])).weight } ((refOf s x).elemsOf k.toNat) v.2))))] ∧
    (homeQuiet s = true → t.home = s.home)) ∧
  (∀ (s : State) (c : Fin 4096) (k : BitVec 32) (land : Ecc) (cel : Ecc) (up : CelReads) (x : Ctx) (u : Slot),
    AtRest s →
    ctxOf s c = x →
    x.state = .active →
    x.isLeaf = true →
    (refOf s x).reduces = true →
    x.slots = [u] →
    u.chunk = k.toNat →
    u.out = none →
    ctxsOf s x.tenant x.handle.toNat = [(c.val, x)] →
    x.waitData = [] →
    (refOf s x).arrival = true →
    u.landed ≠ [] →
    u.taken + (u.landed.take 32).length = x.members.length →
    land ≠ .uncorrectable →
    up.mat ≠ .uncorrectable →
    u.sum = none ∨ cel ≠ .uncorrectable →
    x.agreed = false ∨ released x (refOf s x) k.toNat = false →
    ∃ t, exec (.chunkEvaluate c k ⟨land, cel, up⟩) s = .next t ∧
      (ctxOf t c).slots.map (fun v => (v.landed, v.taken, v.sum, v.out.isSome)) = [(u.landed.drop 32, x.members.length, none, true)] ∧
    (homeQuiet s = true → t.home = s.home)) ∧
  (∀ (s : State) (c : Fin 4096) (k : BitVec 32) (cel : Ecc) (up : CelReads) (x : Ctx) (u : Slot),
    AtRest s →
    ctxOf s c = x →
    x.state = .active →
    x.isLeaf = true →
    (refOf s x).reduces = true →
    x.slots = [u] →
    u.chunk = k.toNat →
    u.out = none →
    (if (refOf s x).arrival then u.landed ≠ [] else u.landed.length = x.members.length) →
    ∃ t, exec (.chunkEvaluate c k ⟨.uncorrectable, cel, up⟩) s = .next t ∧
      (ctxOf t c).state = .aborted ∧ (ctxOf t c).status = .dataError ∧ (ctxOf t c).slots = [] ∧
    (homeQuiet s = true → t.home = s.home)) ∧
  (∀ (s : State) (c : Fin 4096) (k : BitVec 32) (land : Ecc) (up : CelReads) (x : Ctx) (u : Slot),
    AtRest s →
    ctxOf s c = x →
    x.state = .active →
    x.isLeaf = true →
    (refOf s x).reduces = true →
    x.slots = [u] →
    u.chunk = k.toNat →
    u.out = none →
    land ≠ .uncorrectable →
    (refOf s x).arrival = true →
    u.landed ≠ [] →
    u.sum.isSome = true →
    (x.celSet.bind (fun g => bankOf s g ((refOf s x).onPlane k.toNat % Nat.max 1 (refOf s x).window))).isSome = true →
    ∃ t, exec (.chunkEvaluate c k ⟨land, .uncorrectable, up⟩) s = .next t ∧
      (ctxOf t c).state = .aborted ∧ (ctxOf t c).status = .dataError ∧ (ctxOf t c).slots = [] ∧
    (homeQuiet s = true → t.home = s.home)) ∧
  (∀ (s : State) (c : Fin 4096) (k : BitVec 32) (land : Ecc) (cel : Ecc) (up : CelReads) (x : Ctx),
    AtRest s →
    ctxOf s c = x →
    x.state ≠ .active ∨ x.isLeaf = false ∨ (x.slot k.toNat).out.isSome = true ∨ (x.slot k.toNat).landed = [] →
    x.members ≠ [] →
    ∃ t, exec (.chunkEvaluate c k ⟨land, cel, up⟩) s = .next t ∧
      t.coll = s.coll ∧ t.arr = s.arr ∧
    (homeQuiet s = true → t.home = s.home)) ∧
  (∀ (s : State) (g : Fin 32) (w : Landing) (pre : List Landing) (post : List Landing),
    AtRest s →
    s.arr.landing = pre ++ w :: post →
    w.group = g.val →
    w.granted = false →
    pre.all (fun v => v.group != g.val || v.granted) = true →
    post.all (fun v => v.group != g.val || v.granted) = true →
    landUsed s g + w.bytes ≤ 524288 →
    s.coll.ctxs.all (fun x => (ctxOf s x.1).waitData.isEmpty) = true →
    ∃ t, exec (.landingReserve g) s = .next t ∧
      t.arr.landing = pre ++ { w with granted := true } :: post ∧
    (homeQuiet s = true → t.home = s.home)) ∧
  (∀ (s : State) (g : Fin 32) (w : Landing) (pre : List Landing) (post : List Landing),
    AtRest s →
    s.arr.landing = pre ++ w :: post →
    w.group = g.val →
    w.granted = false →
    pre.all (fun v => v.group != g.val || v.granted) = true →
    524288 < landUsed s g + w.bytes →
    s.coll.ctxs.all (fun x => (ctxOf s x.1).waitData.isEmpty) = true →
    ∃ t, exec (.landingReserve g) s = .next t ∧
      t.arr.landing = s.arr.landing ∧
    (homeQuiet s = true → t.home = s.home)) ∧
  (∀ (s : State) (g : Fin 32) (w : Landing) (c : Fin 4096) (x : Ctx) (mb : MemberSt) (id : Nat) (k : Nat) (b : Bool) (o : OutReq),
    AtRest s →
    s.arr.landing = [w] →
    w.group = g.val →
    w.granted = false →
    w.ctx = c.val →
    w.chunk = k →
    w.bytes = 512 →
    s.coll.ctxs = [(c.val, x)] →
    x.state = .active →
    x.isLeaf = true →
    x.agreed = true →
    x.members = [mb] →
    x.waitData = [(mb.index, id, k, b)] →
    outOf s mb.port id = some o →
    (refOf s x).reduces = true →
    (refOf s x).arrival = false ∨ b = true →
    (refOf s x).onPlane k < x.freed + (refOf s x).window →
    (x.slot k).landed = [] →
    x.slots = [] →
    ∃ t, exec (.landingReserve g) s = .next t ∧
      t.arr.landing = [{ w with granted := true }] ∧ (ctxOf t c).waitData = [] ∧ (ctxOf t c).seen = x.seen ++ [(mb.index, k)] ∧
    (ctxOf t c).slots = [{ chunk := k, landed := [(mb.index, o.msg.payload)] }] ∧
    (homeQuiet s = true → t.home = s.home)) ∧
  (∀ (s : State) (c : Chan) (dma : Bytes) (inp : Bytes),
    AtRest s →
    MbxRuns s c 0x32 dma inp →
    beField inp 0 1 ≠ 0 →
    slice inp 1 3 = [0, 0, 0] →
    progFormat (inp.drop 4) = true →
    (slotOfTenant s (bitsOf (beField (inp.drop 4) 8 2) 0 12)).isSome = true →
    progOf s (beField inp 0 1) = none →
    s.ten.shared = true ∨ progsOf s (bitsOf (beField (inp.drop 4) 8 2) 0 12) < 255 / Nat.max 1 (admittedN s) →
    beField (inp.drop 4) 6 1 = 0 ∨ (match celSetFor s (bitsOf (beField (inp.drop 4) 8 2) 0 12) with | some g => decide (0 < celFree s g) | none => false) = true →
    ∃ t, exec (.rdaProgLoad c dma) s = .next t ∧
      progOf t (beField inp 0 1) = some (parseProg (inp.drop 4) (if 0 < beField (inp.drop 4) 6 1 then celSetFor s (bitsOf (beField (inp.drop 4) 8 2) 0 12) else none)) ∧ MbxEnded t c .done ∧
    t.home = s.home) ∧
  (∀ (s : State) (c : Chan) (dma : Bytes) (inp : Bytes),
    AtRest s →
    MbxRuns s c 0x32 dma inp →
    beField inp 0 1 = 0 ∨ allZero ((inp.drop 1).take 3) = false ∨ progFormat (inp.drop 4) = false →
    ∃ t, exec (.rdaProgLoad c dma) s = .next t ∧
      t.arr = s.arr ∧ MbxEnded t c .malformed ∧
    t.home = s.home) ∧
  (∀ (s : State) (c : Chan) (dma : Bytes) (inp : Bytes),
    AtRest s →
    MbxRuns s c 0x32 dma inp →
    beField inp 0 1 ≠ 0 →
    slice inp 1 3 = [0, 0, 0] →
    progFormat (inp.drop 4) = true →
    slotOfTenant s (bitsOf (beField (inp.drop 4) 8 2) 0 12) = none →
    ∃ t, exec (.rdaProgLoad c dma) s = .next t ∧
      t.arr = s.arr ∧ MbxEnded t c .accessDenied ∧
    t.home = s.home) ∧
  (∀ (s : State) (c : Chan) (dma : Bytes) (inp : Bytes),
    AtRest s →
    MbxRuns s c 0x32 dma inp →
    beField inp 0 1 ≠ 0 →
    slice inp 1 3 = [0, 0, 0] →
    progFormat (inp.drop 4) = true →
    (slotOfTenant s (bitsOf (beField (inp.drop 4) 8 2) 0 12)).isSome = true →
    (progOf s (beField inp 0 1)).isSome = true →
    ∃ t, exec (.rdaProgLoad c dma) s = .next t ∧
      t.arr = s.arr ∧ MbxEnded t c .busy ∧
    t.home = s.home) ∧
  (∀ (s : State) (c : Chan) (dma : Bytes) (inp : Bytes),
    AtRest s →
    MbxRuns s c 0x33 dma inp →
    beField inp 0 1 ≠ 0 →
    progRefs s (beField inp 0 1) = 0 →
    ∃ t, exec (.rdaProgUnload c dma) s = .next t ∧
      progOf t (beField inp 0 1) = none ∧ MbxEnded t c .done ∧
    t.home = s.home) ∧
  (∀ (s : State) (c : Chan) (dma : Bytes) (inp : Bytes),
    AtRest s →
    MbxRuns s c 0x33 dma inp →
    beField inp 0 1 = 0 ∨ 0 < progRefs s (beField inp 0 1) →
    ∃ t, exec (.rdaProgUnload c dma) s = .next t ∧
      t.arr = s.arr ∧ MbxEnded t c (if beField inp 0 1 = 0 then .malformed else .busy) ∧
    t.home = s.home) ∧
  (∀ (s : State) (b : Fin 64),
    AtRest s →
    bitAt s celBase 1 = true →
    b.val ∉ s.arr.bankOut →
    tget 0 s.arr.bankUe b < 15 →
    ∃ t, exec (.cellarPatrol b .uncorrectable) s = .next t ∧
      tget 0 t.arr.bankUe b = tget 0 s.arr.bankUe b + 1 ∧ t.arr.bankOut = s.arr.bankOut ∧ t.coll = s.coll ∧
    fieldOf t (cntCelUeCnt b).off (cntCelUeCnt b).lo (cntCelUeCnt b).w = Nat.min (2 ^ (cntCelUeCnt b).w - 1) (fieldOf s (cntCelUeCnt b).off (cntCelUeCnt b).lo (cntCelUeCnt b).w + 1) ∧
    (homeQuiet s = true → t.home = s.home)) ∧
  (∀ (s : State) (b : Fin 64),
    AtRest s →
    bitAt s celBase 1 = true →
    b.val ∉ s.arr.bankOut →
    15 ≤ tget 0 s.arr.bankUe b →
    ∃ t, exec (.cellarPatrol b .uncorrectable) s = .next t ∧
      b.val ∈ t.arr.bankOut ∧ tget 0 t.arr.bankUe b = tget 0 s.arr.bankUe b + 1 ∧
    (homeQuiet s = true → t.home = s.home)) ∧
  (∀ (s : State) (b : Fin 64) (c : Fin 4096) (x : Ctx),
    AtRest s →
    bitAt s celBase 1 = true →
    b.val ∉ s.arr.bankOut →
    15 ≤ tget 0 s.arr.bankUe b →
    ctxOf s c = x →
    x.state = .active →
    x.celSet = some (b.val / 4) →
    ∃ t, exec (.cellarPatrol b .uncorrectable) s = .next t ∧
      (ctxOf t c).state = .aborted ∧ (ctxOf t c).status = .dataError ∧
    (homeQuiet s = true → t.home = s.home)) ∧
  (∀ (s : State) (b : Fin 64),
    AtRest s →
    bitAt s celBase 1 = true →
    b.val ∉ s.arr.bankOut →
    ∃ t, exec (.cellarPatrol b .corrected) s = .next t ∧
      fieldOf t (cntCelCeCnt b).off (cntCelCeCnt b).lo (cntCelCeCnt b).w = Nat.min (2 ^ (cntCelCeCnt b).w - 1) (fieldOf s (cntCelCeCnt b).off (cntCelCeCnt b).lo (cntCelCeCnt b).w + 1) ∧ t.arr = s.arr ∧ t.coll = s.coll ∧
    (homeQuiet s = true → t.home = s.home)) ∧
  (∀ (s : State) (b : Fin 64) (ecc : Ecc),
    AtRest s →
    ecc = .clean ∨ bitAt s celBase 1 = false ∨ b.val ∈ s.arr.bankOut →
    ∃ t, exec (.cellarPatrol b ecc) s = .next t ∧
      t.arr = s.arr ∧ t.coll = s.coll ∧
    (homeQuiet s = true → t.home = s.home))

/-- A MOVE starts, a COPY copies its bytes, and a RELOCATE changes and releases its page. Rows: MOVE_START (R247),
MOVE_PAGE (R248), PAGE_COPY_DONE (R250), HOLD_RELEASE (R250), RELOCATE_UNDO (R252), OLD_PAGE_RELEASE (R252). A
clause that follows a reading of the model's where the spec leaves a point open follows log entries 27, 28 and 120. -/
def Obligations.MovesRun : Prop :=
  (∀ (s : State) (e : Fin 16) (m : Move),
    AtRest s →
    engineMove s e = none →
    bitAt s movBase 0 = true →
    nextMove s e = some m →
    moveOf s m.id = some m →
    moveStartCheck s m = .done →
    ∃ t, exec (.moveStart e) s = .next t ∧
      moveOf t m.id = some { m with engine := some e } ∧
    (homeQuiet s = true → t.home = s.home)) ∧
  (∀ (s : State) (e : Fin 16) (m : Move) (c : Chan),
    AtRest s →
    engineMove s e = none →
    bitAt s movBase 0 = true →
    nextMove s e = some m →
    m.origin = .chan c →
    (chan s c).busy = true →
    (chan s c).lost = false →
    moveStartCheck s m ≠ .done →
    ∃ t, exec (.moveStart e) s = .next t ∧
      moveOf t m.id = none ∧ MbxEnded t c (moveStartCheck s m) ∧
    (homeQuiet s = true → t.home = s.home)) ∧
  (∀ (s : State) (e : Fin 16),
    AtRest s →
    (engineMove s e).isSome = true ∨ bitAt s movBase 0 = false ∨ nextMove s e = none →
    ∃ t, exec (.moveStart e) s = .next t ∧
      t.mov = s.mov ∧
    (homeQuiet s = true → t.home = s.home)) ∧
  (∀ (s : State) (e : Fin 16) (m : Move) (tables : Ecc × Ecc) (corr : List Nat) (j : BitVec 32) (it : Nat) (di : Nat) (wa : BitVec 64 × BitVec 64) (wb : BitVec 64 × BitVec 64) (x : Nat) (y : Nat) (n : Nat) (sp : Nat) (a0 : Nat) (n0 : Nat),
    AtRest s →
    s.mov.moves = [m] →
    m.engine = some e.val →
    m.phase = .start →
    moveFenced s m = false →
    (parseMove m.desc).op = 0x21 →
    (match moveSlot s (pageKeyOf m.tenant.toNat ((parseMove m.desc).src + m.pos)) tables.1 with | .ok w => w == wa | .error _ => false) = true →
    (match moveSlot s (pageKeyOf m.tenant.toNat ((parseMove m.desc).dst + m.pos)) tables.2 with | .ok w => w == wb | .error _ => false) = true →
    n = Nat.min ((parseMove m.desc).len - m.pos) (Nat.min (2 ^ 21 - ((parseMove m.desc).src + m.pos) % 2 ^ 21) (2 ^ 21 - ((parseMove m.desc).dst + m.pos) % 2 ^ 21)) →
    x = slotFpa wa ((parseMove m.desc).src + m.pos) →
    y = slotFpa wb ((parseMove m.desc).dst + m.pos) →
    pageCheck s m (some wa) (some wb) x y n = .done →
    mustWait s (parseMove m.desc) x y n = false →
    underMove s s.mov.holding y n = false →
    0 < n →
    n % 128 = 0 →
    inTier s x = true →
    inTier s y = true →
    measuredAt s (parseMove m.desc).dkey = none →
    (List.range (n / 128)).all (fun i => !offsetOut s (spaceOf x) (offOf x + 128 * i) && !poisoned s (spaceOf x) (offOf x + 128 * i)) = true →
    (List.range (n / 128)).all (fun i => !offsetOut s (spaceOf y) (offOf y + 128 * i)) = true →
    m.origin = .almanac j it di →
    (parseMove m.desc).len ≤ m.pos + n →
    ∃ t, exec (.movePage e ⟨tables, corr, none⟩) s = .next t ∧
      t.mov.moves = [] ∧ t.mov.doneDesc = s.mov.doneDesc ++ [(j, it, di, if m.late then .late else .done)] ∧
    tierRead t (spaceOf y) (offOf y) n = tierRead s (spaceOf x) (offOf x) n ∧
    (Apart (spaceOf y) (offOf y) n sp a0 n0 → tierRead t sp a0 n0 = tierRead s sp a0 n0)) ∧
  (∀ (s : State) (e : Fin 16) (m : Move) (tables : Ecc × Ecc) (corr : List Nat) (wa : BitVec 64 × BitVec 64) (wb : BitVec 64 × BitVec 64) (x : Nat) (y : Nat) (n : Nat) (sp : Nat) (a0 : Nat) (n0 : Nat),
    AtRest s →
    s.mov.moves = [m] →
    m.engine = some e.val →
    m.phase = .start →
    moveFenced s m = false →
    (parseMove m.desc).op = 0x21 →
    (match moveSlot s (pageKeyOf m.tenant.toNat ((parseMove m.desc).src + m.pos)) tables.1 with | .ok w => w == wa | .error _ => false) = true →
    (match moveSlot s (pageKeyOf m.tenant.toNat ((parseMove m.desc).dst + m.pos)) tables.2 with | .ok w => w == wb | .error _ => false) = true →
    n = Nat.min ((parseMove m.desc).len - m.pos) (Nat.min (2 ^ 21 - ((parseMove m.desc).src + m.pos) % 2 ^ 21) (2 ^ 21 - ((parseMove m.desc).dst + m.pos) % 2 ^ 21)) →
    x = slotFpa wa ((parseMove m.desc).src + m.pos) →
    y = slotFpa wb ((parseMove m.desc).dst + m.pos) →
    pageCheck s m (some wa) (some wb) x y n = .done →
    mustWait s (parseMove m.desc) x y n = false →
    underMove s s.mov.holding y n = false →
    0 < n →
    n % 128 = 0 →
    inTier s x = true →
    inTier s y = true →
    measuredAt s (parseMove m.desc).dkey = none →
    (List.range (n / 128)).all (fun i => !offsetOut s (spaceOf x) (offOf x + 128 * i) && !poisoned s (spaceOf x) (offOf x + 128 * i)) = true →
    (List.range (n / 128)).all (fun i => !offsetOut s (spaceOf y) (offOf y + 128 * i)) = true →
    m.pos + n < (parseMove m.desc).len →
    ∃ t, exec (.movePage e ⟨tables, corr, none⟩) s = .next t ∧
      t.mov.moves.map (fun r => (r.id, r.phase, r.pos, r.status)) = [(m.id, .start, m.pos + n, .done)] ∧ t.mov.doneDesc = s.mov.doneDesc ∧
    tierRead t (spaceOf y) (offOf y) n = tierRead s (spaceOf x) (offOf x) n ∧
    (Apart (spaceOf y) (offOf y) n sp a0 n0 → tierRead t sp a0 n0 = tierRead s sp a0 n0)) ∧
  (∀ (s : State) (e : Fin 16) (m : Move) (tables : Ecc × Ecc) (corr : List Nat) (wa : BitVec 64 × BitVec 64) (wb : BitVec 64 × BitVec 64) (x : Nat) (y : Nat) (n : Nat) (c : Chan),
    AtRest s →
    s.mov.moves = [m] →
    m.engine = some e.val →
    m.phase = .start →
    moveFenced s m = false →
    (parseMove m.desc).op = 0x21 →
    (match moveSlot s (pageKeyOf m.tenant.toNat ((parseMove m.desc).src + m.pos)) tables.1 with | .ok w => w == wa | .error _ => false) = true →
    (match moveSlot s (pageKeyOf m.tenant.toNat ((parseMove m.desc).dst + m.pos)) tables.2 with | .ok w => w == wb | .error _ => false) = true →
    n = Nat.min ((parseMove m.desc).len - m.pos) (Nat.min (2 ^ 21 - ((parseMove m.desc).src + m.pos) % 2 ^ 21) (2 ^ 21 - ((parseMove m.desc).dst + m.pos) % 2 ^ 21)) →
    x = slotFpa wa ((parseMove m.desc).src + m.pos) →
    y = slotFpa wb ((parseMove m.desc).dst + m.pos) →
    pageCheck s m (some wa) (some wb) x y n = .done →
    mustWait s (parseMove m.desc) x y n = false →
    underMove s s.mov.holding y n = false →
    0 < n →
    n % 128 = 0 →
    inTier s x = true →
    inTier s y = true →
    measuredAt s (parseMove m.desc).dkey = none →
    (List.range (n / 128)).all (fun i => !offsetOut s (spaceOf x) (offOf x + 128 * i) && !poisoned s (spaceOf x) (offOf x + 128 * i)) = true →
    (List.range (n / 128)).all (fun i => !offsetOut s (spaceOf y) (offOf y + 128 * i)) = true →
    m.origin = .chan c →
    (chan s c).busy = true →
    (chan s c).lost = false →
    (parseMove m.desc).len ≤ m.pos + n →
    ∃ t, exec (.movePage e ⟨tables, corr, none⟩) s = .next t ∧
      t.mov.moves = [] ∧ MbxEnded t c .done) ∧
  (∀ (s : State) (e : Fin 16) (m : Move) (tables : Ecc × Ecc) (corr : List Nat) (j : BitVec 32) (it : Nat) (di : Nat) (wa : BitVec 64 × BitVec 64) (wb : BitVec 64 × BitVec 64) (x : Nat) (y : Nat) (n : Nat) (sp : Nat) (a0 : Nat) (n0 : Nat) (i : Nat),
    AtRest s →
    s.mov.moves = [m] →
    m.engine = some e.val →
    m.phase = .start →
    moveFenced s m = false →
    (parseMove m.desc).op = 0x21 →
    (match moveSlot s (pageKeyOf m.tenant.toNat ((parseMove m.desc).src + m.pos)) tables.1 with | .ok w => w == wa | .error _ => false) = true →
    (match moveSlot s (pageKeyOf m.tenant.toNat ((parseMove m.desc).dst + m.pos)) tables.2 with | .ok w => w == wb | .error _ => false) = true →
    n = Nat.min ((parseMove m.desc).len - m.pos) (Nat.min (2 ^ 21 - ((parseMove m.desc).src + m.pos) % 2 ^ 21) (2 ^ 21 - ((parseMove m.desc).dst + m.pos) % 2 ^ 21)) →
    x = slotFpa wa ((parseMove m.desc).src + m.pos) →
    y = slotFpa wb ((parseMove m.desc).dst + m.pos) →
    pageCheck s m (some wa) (some wb) x y n = .done →
    mustWait s (parseMove m.desc) x y n = false →
    underMove s s.mov.holding y n = false →
    0 < n →
    n % 128 = 0 →
    inTier s x = true →
    inTier s y = true →
    measuredAt s (parseMove m.desc).dkey = none →
    (List.range (n / 128)).all (fun i => !offsetOut s (spaceOf x) (offOf x + 128 * i) && !poisoned s (spaceOf x) (offOf x + 128 * i)) = true →
    (List.range (n / 128)).all (fun i => !offsetOut s (spaceOf y) (offOf y + 128 * i)) = true →
    m.origin = .almanac j it di →
    i < n / 128 →
    ∃ t, exec (.movePage e ⟨tables, corr, some i⟩) s = .next t ∧
      t.mov.moves = [] ∧ t.mov.doneDesc = s.mov.doneDesc ++ [(j, it, di, .tierFailed)] ∧ poisoned t (spaceOf x) (offOf x + 128 * i) = true ∧
    tierRead t (spaceOf y) (offOf y) (128 * i) = tierRead s (spaceOf x) (offOf x) (128 * i) ∧
    (Apart (spaceOf y) (offOf y) n sp a0 n0 → tierRead t sp a0 n0 = tierRead s sp a0 n0)) ∧
  (∀ (s : State) (e : Fin 16) (m : Move) (tables : Ecc × Ecc) (corr : List Nat) (bad : Option Nat) (wa : BitVec 64 × BitVec 64) (wb : BitVec 64 × BitVec 64) (x : Nat) (y : Nat) (n : Nat),
    AtRest s →
    s.mov.moves = [m] →
    m.engine = some e.val →
    m.phase = .start →
    moveFenced s m = false →
    (parseMove m.desc).op = 0x21 →
    (match moveSlot s (pageKeyOf m.tenant.toNat ((parseMove m.desc).src + m.pos)) tables.1 with | .ok w => w == wa | .error _ => false) = true →
    (match moveSlot s (pageKeyOf m.tenant.toNat ((parseMove m.desc).dst + m.pos)) tables.2 with | .ok w => w == wb | .error _ => false) = true →
    n = Nat.min ((parseMove m.desc).len - m.pos) (Nat.min (2 ^ 21 - ((parseMove m.desc).src + m.pos) % 2 ^ 21) (2 ^ 21 - ((parseMove m.desc).dst + m.pos) % 2 ^ 21)) →
    x = slotFpa wa ((parseMove m.desc).src + m.pos) →
    y = slotFpa wb ((parseMove m.desc).dst + m.pos) →
    pageCheck s m (some wa) (some wb) x y n = .done →
    mustWait s (parseMove m.desc) x y n = false →
    epOf x ≠ memEp s →
    s.trn.send = [] →
    ∃ t, exec (.movePage e ⟨tables, corr, bad⟩) s = .next t ∧
      t.mov.moves.map (fun r => (r.phase, r.src, r.dst, r.n)) = [(.reading, x, y, n)] ∧
    t.trn.reqs.any (fun q => q.origin == .engine e 0 && q.opc == 1 && q.sid.dst == BitVec.ofNat 16 (epOf x)) = true) ∧
  (∀ (s : State) (e : Fin 16) (m : Move) (tables : Ecc × Ecc) (corr : List Nat) (bad : Option Nat),
    AtRest s →
    s.mov.moves = [m] →
    m.engine = some e.val →
    m.phase = .start →
    moveFenced s m = false →
    (match moveSlot s (pageKeyOf m.tenant.toNat ((parseMove m.desc).src + m.pos)) tables.1 with | .ok _ => false | .error x => x == .unmapped) = true →
    s.mov.faults = [] →
    ∃ t, exec (.movePage e ⟨tables, corr, bad⟩) s = .next t ∧
      t.mov.moves = [{ m with phase := .parked 0 }] ∧ t.mov.faults = [{ num := 0, key := (pageKeyOf m.tenant.toNat ((parseMove m.desc).src + m.pos)), since := Machine.now t }]) ∧
  (∀ (s : State) (e : Fin 16) (m : Move) (tables : Ecc × Ecc) (corr : List Nat) (bad : Option Nat) (j : BitVec 32) (it : Nat) (di : Nat) (wa : BitVec 64 × BitVec 64) (wb : BitVec 64 × BitVec 64) (x : Nat) (y : Nat) (n : Nat),
    AtRest s →
    s.mov.moves = [m] →
    m.engine = some e.val →
    m.phase = .start →
    moveFenced s m = false →
    (parseMove m.desc).op = 0x21 →
    (match moveSlot s (pageKeyOf m.tenant.toNat ((parseMove m.desc).src + m.pos)) tables.1 with | .ok w => w == wa | .error _ => false) = true →
    (match moveSlot s (pageKeyOf m.tenant.toNat ((parseMove m.desc).dst + m.pos)) tables.2 with | .ok w => w == wb | .error _ => false) = true →
    n = Nat.min ((parseMove m.desc).len - m.pos) (Nat.min (2 ^ 21 - ((parseMove m.desc).src + m.pos) % 2 ^ 21) (2 ^ 21 - ((parseMove m.desc).dst + m.pos) % 2 ^ 21)) →
    x = slotFpa wa ((parseMove m.desc).src + m.pos) →
    y = slotFpa wb ((parseMove m.desc).dst + m.pos) →
    m.origin = .almanac j it di →
    pageCheck s m (some wa) (some wb) x y n ≠ .done →
    ∃ t, exec (.movePage e ⟨tables, corr, bad⟩) s = .next t ∧
      t.mov.moves = [] ∧ t.mov.doneDesc = s.mov.doneDesc ++ [(j, it, di, pageCheck s m (some wa) (some wb) x y n)]) ∧
  (∀ (s : State) (e : Fin 16) (m : Move) (tables : Ecc × Ecc) (corr : List Nat) (bad : Option Nat) (j : BitVec 32) (it : Nat) (di : Nat),
    AtRest s →
    s.mov.moves = [m] →
    m.engine = some e.val →
    m.phase = .start →
    moveFenced s m = true →
    m.origin = .almanac j it di →
    ∃ t, exec (.movePage e ⟨tables, corr, bad⟩) s = .next t ∧
      t.mov.moves = [] ∧ t.mov.doneDesc = s.mov.doneDesc ++ [(j, it, di, .fenced)]) ∧
  (∀ (s : State) (e : Fin 16) (m : Move) (tables : Ecc × Ecc) (corr : List Nat) (bad : Option Nat) (wa : BitVec 64 × BitVec 64) (wb : BitVec 64 × BitVec 64) (x : Nat) (y : Nat) (n : Nat),
    AtRest s →
    s.mov.moves = [m] →
    m.engine = some e.val →
    m.phase = .start →
    moveFenced s m = false →
    (parseMove m.desc).op = 0x21 →
    (match moveSlot s (pageKeyOf m.tenant.toNat ((parseMove m.desc).src + m.pos)) tables.1 with | .ok w => w == wa | .error _ => false) = true →
    (match moveSlot s (pageKeyOf m.tenant.toNat ((parseMove m.desc).dst + m.pos)) tables.2 with | .ok w => w == wb | .error _ => false) = true →
    n = Nat.min ((parseMove m.desc).len - m.pos) (Nat.min (2 ^ 21 - ((parseMove m.desc).src + m.pos) % 2 ^ 21) (2 ^ 21 - ((parseMove m.desc).dst + m.pos) % 2 ^ 21)) →
    x = slotFpa wa ((parseMove m.desc).src + m.pos) →
    y = slotFpa wb ((parseMove m.desc).dst + m.pos) →
    pageCheck s m (some wa) (some wb) x y n = .done →
    mustWait s (parseMove m.desc) x y n = true →
    ∃ t, exec (.movePage e ⟨tables, corr, bad⟩) s = .next t ∧
      t.mov = s.mov) ∧
  (∀ (s : State) (e : Fin 16) (m : Move) (tables : Ecc × Ecc) (corr : List Nat) (wa : BitVec 64 × BitVec 64) (wb : BitVec 64 × BitVec 64) (x : Nat) (y : Nat) (n : Nat),
    AtRest s →
    s.mov.moves = [m] →
    m.engine = some e.val →
    m.phase = .start →
    moveFenced s m = false →
    (parseMove m.desc).op = 0x21 →
    (match moveSlot s (pageKeyOf m.tenant.toNat ((parseMove m.desc).src + m.pos)) tables.1 with | .ok w => w == wa | .error _ => false) = true →
    (match moveSlot s (pageKeyOf m.tenant.toNat ((parseMove m.desc).dst + m.pos)) tables.2 with | .ok w => w == wb | .error _ => false) = true →
    n = Nat.min ((parseMove m.desc).len - m.pos) (Nat.min (2 ^ 21 - ((parseMove m.desc).src + m.pos) % 2 ^ 21) (2 ^ 21 - ((parseMove m.desc).dst + m.pos) % 2 ^ 21)) →
    x = slotFpa wa ((parseMove m.desc).src + m.pos) →
    y = slotFpa wb ((parseMove m.desc).dst + m.pos) →
    pageCheck s m (some wa) (some wb) x y n = .done →
    mustWait s (parseMove m.desc) x y n = false →
    underMove s s.mov.holding y n = true →
    0 < n →
    n % 128 = 0 →
    inTier s x = true →
    (List.range (n / 128)).all (fun i => !offsetOut s (spaceOf x) (offOf x + 128 * i) && !poisoned s (spaceOf x) (offOf x + 128 * i)) = true →
    ∃ t, exec (.movePage e ⟨tables, corr, none⟩) s = .next t ∧
      t.mov.moves.map (·.phase) = [.writing] ∧ (t.mov.held.drop s.mov.held.length).map (fun h => (h.own, h.frame.opc)) =
      (cutFrames (n / 512 + 2) (offOf y) n).map (fun _ => (9 + e.val, 2))) ∧
  (∀ (s : State) (e : Fin 16) (m : Move) (tables : Ecc × Ecc) (corr : List Nat) (wa : BitVec 64 × BitVec 64) (x : Nat) (y : Nat) (n : Nat) (i : Nat) (k : Nat) (sp : Nat) (a0 : Nat) (n0 : Nat),
    AtRest s →
    s.mov.moves = [m] →
    m.engine = some e.val →
    m.phase = .start →
    moveFenced s m = false →
    (parseMove m.desc).op = 0x20 →
    (match moveSlot s (pageKeyOf m.tenant.toNat ((parseMove m.desc).src + m.pos)) tables.1 with | .ok w => w == wa | .error _ => false) = true →
    n = (if (slotW wa).big then 2 ^ 30 else 2 ^ 21) →
    x = slotFpa wa ((parseMove m.desc).src + m.pos) →
    y = ((parseMove m.desc).dst + m.pos) →
    pageCheck s m (some wa) none x y n = .done →
    mustWait s (parseMove m.desc) x y n = false →
    s.home.pcOut = [] →
    s.home.poison = [] →
    bitAt s stkBase 0 = true →
    bitAt s anxBase 0 = true →
    inTier s x = true →
    inTier s y = true →
    storesUnder s (oldMark x y n 0) = false →
    i + k ≤ n →
    ∃ t, exec (.movePage e ⟨tables, corr, none⟩) s = .next t ∧
      t.mov.moves.map (fun r => (r.phase, r.src, r.dst, r.n, r.slot)) = [(.copied, x, y, n, wa)] ∧ t.mov.holding = s.mov.holding ++ [oldMark x y n (memEp s)] ∧ t.mov.arriving = s.mov.arriving ++ [newMark y n (memEp s)] ∧
    tierRead t (spaceOf y) (offOf y + i) k = tierRead s (spaceOf x) (offOf x + i) k ∧
    (Apart (spaceOf y) (offOf y) n sp a0 n0 → tierRead t sp a0 n0 = tierRead s sp a0 n0)) ∧
  (∀ (s : State) (e : Fin 16) (m : Move) (tables : Ecc × Ecc) (corr : List Nat) (bad : Option Nat) (far : List Nat) (wa : BitVec 64 × BitVec 64) (x : Nat) (y : Nat) (n : Nat),
    AtRest s →
    s.mov.moves = [m] →
    m.engine = some e.val →
    m.phase = .start →
    moveFenced s m = false →
    (parseMove m.desc).op = 0x20 →
    (match moveSlot s (pageKeyOf m.tenant.toNat ((parseMove m.desc).src + m.pos)) tables.1 with | .ok w => w == wa | .error _ => false) = true →
    n = (if (slotW wa).big then 2 ^ 30 else 2 ^ 21) →
    x = slotFpa wa ((parseMove m.desc).src + m.pos) →
    y = ((parseMove m.desc).dst + m.pos) →
    pageCheck s m (some wa) none x y n = .done →
    mustWait s (parseMove m.desc) x y n = false →
    far = (([x, y].filter (fun g => !onNode s g)).map (fun g => epOf g - 0x4800)).eraseDups →
    far ≠ [] ∨ (onNode s x = true ∧ storesUnder s (oldMark x y n 0) = true) →
    ∃ t, exec (.movePage e ⟨tables, corr, bad⟩) s = .next t ∧
      t.mov.moves.map (fun r => (r.phase, r.src, r.dst, r.n, r.slot)) = [(.draining, x, y, n, wa)] ∧
    t.mov.holding = s.mov.holding ++ (if onNode s x then [oldMark x y n (memEp s)] else []) ∧
    (∀ g ∈ (far).map (fun q => Emit.ctl (BitVec.ofNat 11 q) (.mapChange (.page (.start_ m.tenant (BitVec.ofNat 16 (parseMove m.desc).skey) (BitVec.ofNat 32 (parseMove m.desc).stag)
      (BitVec.ofNat 16 (parseMove m.desc).dkey) (BitVec.ofNat 32 (parseMove m.desc).dtag)) x y n))), Puts s t g) ∧
    (far ≠ [] → changeOf t (4 + e.val) = some { id := 4 + e.val, nodes := far, kind := 3 })) ∧
  (∀ (s : State) (e : Fin 16) (m : Move) (tables : Ecc × Ecc) (corr : List Nat) (i : Nat) (k : Nat) (sp : Nat) (a0 : Nat) (n0 : Nat),
    AtRest s →
    s.mov.moves = [m] →
    m.engine = some e.val →
    m.phase = .draining →
    drained s e m = true →
    (parseMove m.desc).op = 0x20 →
    s.home.pcOut = [] →
    s.home.poison = [] →
    bitAt s stkBase 0 = true →
    bitAt s anxBase 0 = true →
    inTier s m.src = true →
    inTier s m.dst = true →
    m.n % 128 = 0 →
    0 < m.n →
    i + k ≤ m.n →
    ∃ t, exec (.movePage e ⟨tables, corr, none⟩) s = .next t ∧
      t.mov.moves.map (·.phase) = [.copied] ∧ tierRead t (spaceOf m.dst) (offOf m.dst + i) k = tierRead s (spaceOf m.src) (offOf m.src + i) k ∧
    (Apart (spaceOf m.dst) (offOf m.dst) m.n sp a0 n0 → tierRead t sp a0 n0 = tierRead s sp a0 n0)) ∧
  (∀ (s : State) (e : Fin 16) (m : Move) (tables : Ecc × Ecc) (corr : List Nat) (bad : Option Nat),
    AtRest s →
    s.mov.moves = [m] →
    m.engine = some e.val →
    m.phase = .draining →
    drained s e m = false →
    ∃ t, exec (.movePage e ⟨tables, corr, bad⟩) s = .next t ∧
      t.mov = s.mov ∧ t.xlat = s.xlat) ∧
  (∀ (s : State) (e : Fin 16) (m : Move) (sp : Nat) (a0 : Nat) (n0 : Nat),
    AtRest s →
    s.mov.moves = [m] →
    m.engine = some e.val →
    m.phase = .copied →
    ∃ t, exec (.pageCopyDone e) s = .next t ∧
      changeOf t (4 + e.val) = some { id := 4 + e.val, nodes := tableNodes s, kind := 0 } ∧ t.mov.moves.map (·.phase) = [.flipping] ∧ (∀ k ∈ List.range 9, tget false t.xlat.epoch k = !tget false s.xlat.epoch k) ∧
    (∀ g ∈ (tableNodes s).map (fun q => Emit.ctl (BitVec.ofNat 11 q) (.mapChange (.buckets m.tenant (rewriteSlot m.slot (m.slot.1, flippedW1 m.slot.2 m.dst) (flipEpoch s)).2))), Puts s t g) ∧
    ((∀ r ∈ bucketRanges s (slotW m.slot).tenant (rewriteSlot m.slot (m.slot.1, flippedW1 m.slot.2 m.dst) (flipEpoch s)).2, Apart 1 r.1 r.2 sp a0 n0) → tierRead t sp a0 n0 = tierRead s sp a0 n0)) ∧
  (∀ (s : State) (e : Fin 16) (m : Move) (j : BitVec 32) (it : Nat) (di : Nat),
    AtRest s →
    s.mov.moves = [m] →
    m.engine = some e.val →
    m.origin = .almanac j it di →
    m.phase = .flipping →
    (match changeOf s (4 + e.val) with | some x => x.nodes.isEmpty | none => true) = true →
    onNode s m.src = true →
    heldFor s (movePageOf m) = [] →
    s.mov.arrWait = [] →
    (parseMove m.desc).len ≤ m.pos + m.n →
    ∃ t, exec (.holdRelease e) s = .next t ∧
      changeOf t (4 + e.val) = none ∧ t.mov.moves = [] ∧ t.mov.doneDesc = s.mov.doneDesc ++ [(j, it, di, if m.late then .late else .done)] ∧
    t.mov.oldPages = s.mov.oldPages ++ [movePageOf m] ∧ t.mov.holding = s.mov.holding.filter (fun p => !(p.page == m.src % 2 ^ 48 && p.runner == memEp s)) ∧
    (onNode s m.dst = false → Puts s t (.ctl (BitVec.ofNat 11 (epOf m.dst - 0x4800)) (.mapChange (.page .settle m.src m.dst m.n))))) ∧
  (∀ (s : State) (e : Fin 16) (m : Move),
    AtRest s →
    s.mov.moves = [m] →
    m.engine = some e.val →
    m.phase = .flipping →
    (match changeOf s (4 + e.val) with | some x => x.nodes.isEmpty | none => true) = true →
    onNode s m.src = true →
    heldFor s (movePageOf m) = [] →
    s.mov.arrWait = [] →
    m.pos + m.n < (parseMove m.desc).len →
    ∃ t, exec (.holdRelease e) s = .next t ∧
      changeOf t (4 + e.val) = none ∧ t.mov.moves.map (fun r => (r.id, r.phase, r.pos)) = [(m.id, .start, m.pos + m.n)] ∧
    t.mov.oldPages = s.mov.oldPages ++ [movePageOf m]) ∧
  (∀ (s : State) (e : Fin 16) (m : Move) (h : HeldStore) (g : Frame),
    AtRest s →
    s.mov.moves = [m] →
    m.engine = some e.val →
    m.phase = .flipping →
    (match changeOf s (4 + e.val) with | some x => x.nodes.isEmpty | none => true) = true →
    onNode s m.src = true →
    onNode s m.dst = true →
    s.mov.held = [h] →
    heldFor s (movePageOf m) = [h] →
    h.sent = false →
    g = { h.frame with mid := midOf ((m.dst + (h.frame.fpa - m.src % 2 ^ 48)) % 2 ^ 48) 0 0 } →
    homeReach s (homeOf g) g = .done →
    ∃ t, exec (.holdRelease e) s = .next t ∧
      t.mov.moves.map (·.phase) = [.releasing] ∧ t.mov.held = [{ h with sent := true }] ∧
    t.home.accesses.any (fun a => a.frame == g && a.reply == some h.frame && a.home == homeOf g) = true) ∧
  (∀ (s : State) (e : Fin 16) (m : Move),
    AtRest s →
    s.mov.moves = [m] →
    m.engine = some e.val →
    m.phase = .flipping →
    (match changeOf s (4 + e.val) with | some x => x.nodes.isEmpty | none => true) = true →
    onNode s m.src = false →
    ∃ t, exec (.holdRelease e) s = .next t ∧
      changeOf t (4 + e.val) = some { id := 4 + e.val, nodes := [epOf m.src - 0x4800], kind := 4 } ∧ t.mov.moves.map (·.phase) = [.releasing] ∧
    Puts s t (.ctl (BitVec.ofNat 11 (epOf m.src - 0x4800)) (.mapChange (.page .release m.src m.dst m.n)))) ∧
  (∀ (s : State) (e : Fin 16) (m : Move) (x : PendChange),
    AtRest s →
    s.mov.moves = [m] →
    m.engine = some e.val →
    changeOf s (4 + e.val) = some x →
    x.nodes ≠ [] →
    ∃ t, exec (.holdRelease e) s = .next t ∧
      t.mov = s.mov ∧ t.xlat = s.xlat) ∧
  (∀ (s : State) (e : Fin 16) (m : Move) (j : BitVec 32) (it : Nat) (di : Nat) (x : PendChange) (i : Nat) (k : Nat) (sp : Nat) (a0 : Nat) (n0 : Nat),
    AtRest s →
    s.mov.moves = [m] →
    m.engine = some e.val →
    m.origin = .almanac j it di →
    m.phase = .flipping →
    changeOf s (4 + e.val) = some x →
    x.nodes ≠ [] →
    onNode s m.src = false ∨ heldFor s (movePageOf m) = [] →
    s.mov.arrWait = [] →
    i + k ≤ m.n →
    ∃ t, exec (.relocateUndo e) s = .next t ∧
      changeOf t (4 + e.val) = none ∧ t.mov.moves = [] ∧ t.mov.doneDesc = s.mov.doneDesc ++ [(j, it, di, .targetUnreachable)] ∧
    (∀ g ∈ (tableNodes s).map (fun q => Emit.ctl (BitVec.ofNat 11 q) (.mapChange (.buckets m.tenant (rewriteSlot (m.slot.1, flippedW1 m.slot.2 m.dst) m.slot s).2))), Puts s t g) ∧
    (∀ g ∈ (farNodes s m).map (fun q => Emit.ctl (BitVec.ofNat 11 q) (.mapChange (.page .giveUp m.src m.dst m.n))), Puts s t g) ∧
    (inTier s m.dst = true → marked s s.mov.arriving m.dst (memEp s) = true → tierRead t (spaceOf m.dst) (offOf m.dst + i) k = List.replicate k 0) ∧
    ((∀ r ∈ bucketRanges s (slotW (m.slot.1, flippedW1 m.slot.2 m.dst)).tenant (rewriteSlot (m.slot.1, flippedW1 m.slot.2 m.dst) m.slot s).2, Apart 1 r.1 r.2 sp a0 n0) →
      (inTier s m.dst = true → Apart (spaceOf m.dst) (offOf m.dst) m.n sp a0 n0) → tierRead t sp a0 n0 = tierRead s sp a0 n0)) ∧
  (∀ (s : State) (e : Fin 16) (m : Move) (j : BitVec 32) (it : Nat) (di : Nat) (x : PendChange),
    AtRest s →
    s.mov.moves = [m] →
    m.engine = some e.val →
    m.origin = .almanac j it di →
    m.phase = .draining →
    changeOf s (4 + e.val) = some x →
    x.nodes ≠ [] →
    onNode s m.src = false ∨ heldFor s (movePageOf m) = [] →
    s.mov.arrWait = [] →
    ∃ t, exec (.relocateUndo e) s = .next t ∧
      changeOf t (4 + e.val) = none ∧ t.mov.moves = [] ∧ t.mov.doneDesc = s.mov.doneDesc ++ [(j, it, di, .targetUnreachable)] ∧ t.mov.holding = s.mov.holding.filter (fun p => !(onNode s m.src && p.page == m.src % 2 ^ 48 && p.runner == memEp s)) ∧
    (∀ g ∈ (farNodes s m).map (fun q => Emit.ctl (BitVec.ofNat 11 q) (.mapChange (.page .giveUp m.src m.dst m.n))), Puts s t g)) ∧
  (∀ (s : State) (e : Fin 16) (m : Move),
    AtRest s →
    s.mov.moves = [m] →
    m.engine = some e.val →
    (match changeOf s (4 + e.val) with | some x => x.nodes.isEmpty | none => true) = true →
    ∃ t, exec (.relocateUndo e) s = .next t ∧
      t.mov = s.mov ∧ t.xlat = s.xlat) ∧
  (∀ (s : State) (p : PageMove) (rest : List PageMove) (off : Nat) (n : Nat) (sp : Nat) (a0 : Nat) (n0 : Nat),
    AtRest s →
    s.mov.oldPages = p :: rest →
    oldInUse s p = false →
    heldFor s p = [] →
    p.page / 2 ^ 44 = 1 ∨ p.page / 2 ^ 44 = 2 →
    p.page % 2 ^ 44 ≤ off →
    off + n ≤ p.page % 2 ^ 44 + p.size →
    ∃ t, exec (.oldPageRelease) s = .next t ∧
      t.mov.oldPages = rest ∧ tierRead t (p.page / 2 ^ 44) off n = List.replicate n 0 ∧
    (pageReads s = false → Apart (p.page / 2 ^ 44) (p.page % 2 ^ 44) p.size sp a0 n0 → tierRead t sp a0 n0 = tierRead s sp a0 n0)) ∧
  (∀ (s : State) (p : PageMove) (rest : List PageMove) (a : Nat),
    AtRest s →
    s.mov.oldPages = p :: rest →
    oldInUse s p = false →
    heldFor s p = [] →
    p.page / 2 ^ 44 = 3 →
    dmaOn s = true →
    hostAddr s (p.page % 2 ^ 44) p.size = some a →
    ∃ t, exec (.oldPageRelease) s = .next t ∧
      t.mov.oldPages = rest ∧ Puts s t (.hostWrite a (List.replicate p.size 0))) ∧
  (∀ (s : State),
    AtRest s →
    s.mov.oldPages.all (fun p => oldInUse s p || !(heldFor s p).isEmpty) = true →
    ∃ t, exec (.oldPageRelease) s = .next t ∧
      t.mov = s.mov ∧ t.home = s.home)

/-- MOVEs from the mailbox, and fault records. Rows: MOV_SUBMIT (R246), MOV_RESUME (R255), MOV_FAIL (R255),
FAULT_RECORD_EXPIRE (R255). A clause that follows a reading of the model's where the spec leaves a point open
follows log entries 27, 83 and 120. -/
def Obligations.MovesSubmitted : Prop :=
  (∀ (s : State) (c : Chan) (dma : Bytes) (inp : Bytes),
    AtRest s →
    MbxRuns s c 0x40 dma inp →
    beField inp 0 2 < 4096 →
    beField inp 2 2 = 0 →
    moveFormat (slice inp 4 64) = true →
    moveFvas (parseMove (slice inp 4 64)) = true →
    (parseMove (slice inp 4 64)).plane = some s.fab.plane.toNat →
    (planeMask s 0).testBit s.fab.plane.toNat = false →
    ∃ t, exec (.movSubmit c (.mailbox dma)) s = .next t ∧
      t.mov.moves = s.mov.moves ++ [{ id := s.mov.nextMove, origin := .chan c, tenant := BitVec.ofNat 12 (beField inp 0 2), desc := slice inp 4 64 }] ∧
    (chan t c).busy = true ∧ (chan t c).started = true ∧
    t.home = s.home) ∧
  (∀ (s : State) (c : Chan) (dma : Bytes) (inp : Bytes) (pl : Nat),
    AtRest s →
    MbxRuns s c 0x40 dma inp →
    beField inp 0 2 < 4096 →
    beField inp 2 2 = 0 →
    moveFormat (slice inp 4 64) = true →
    moveFvas (parseMove (slice inp 4 64)) = true →
    (parseMove (slice inp 4 64)).plane = some pl →
    pl ≠ s.fab.plane.toNat →
    (planeMask s 0).testBit pl = false →
    ∃ t, exec (.movSubmit c (.mailbox dma)) s = .next t ∧
      Puts s t (.ctl (BitVec.ofNat 11 (s.fab.rack.toNat * 8 + pl)) (.moveSubmit c (BitVec.ofNat 12 (beField inp 0 2)) (slice inp 4 64))) ∧
    (chan t c).busy = true ∧ (chan t c).started = true ∧ t.mov.moves = s.mov.moves ∧
    t.home = s.home) ∧
  (∀ (s : State) (c : Chan) (dma : Bytes) (inp : Bytes) (pl : Nat),
    AtRest s →
    MbxRuns s c 0x40 dma inp →
    beField inp 0 2 < 4096 →
    beField inp 2 2 = 0 →
    moveFormat (slice inp 4 64) = true →
    moveFvas (parseMove (slice inp 4 64)) = true →
    (parseMove (slice inp 4 64)).plane = some pl →
    (planeMask s 0).testBit pl = true →
    ∃ t, exec (.movSubmit c (.mailbox dma)) s = .next t ∧
      t.mov = s.mov ∧ MbxEnded t c .targetUnreachable ∧
    t.home = s.home) ∧
  (∀ (s : State) (c : Chan) (dma : Bytes) (inp : Bytes),
    AtRest s →
    MbxRuns s c 0x40 dma inp →
    4096 ≤ beField inp 0 2 ∨ beField inp 2 2 ≠ 0 ∨ moveFormat (slice inp 4 64) = false ∨ moveFvas (parseMove (slice inp 4 64)) = false →
    ∃ t, exec (.movSubmit c (.mailbox dma)) s = .next t ∧
      t.mov = s.mov ∧ MbxEnded t c .malformed ∧
    t.home = s.home) ∧
  (∀ (s : State) (node : BitVec 11) (c : Chan) (ten : BitVec 12) (d : Bytes),
    AtRest s →
    ∃ t, exec (.movSubmit c (.relayed node ten d)) s = .next t ∧
      t.mov.moves = s.mov.moves ++ [{ id := s.mov.nextMove, origin := .peer node c, tenant := ten, desc := slice d 0 64 }] ∧
    t.home = s.home) ∧
  (∀ (s : State) (c : Chan) (st : Status),
    AtRest s →
    relayedOut s c = true →
    (chan s c).lost = false →
    ∃ t, exec (.movSubmit c (.relayEnd st)) s = .next t ∧
      MbxEnded t c st ∧ t.mov = s.mov ∧
    t.home = s.home) ∧
  (∀ (s : State) (c : Chan) (dma : Bytes) (inp : Bytes),
    AtRest s →
    MbxRuns s c 0x41 dma inp →
    recOpen s (beField inp 0 1) = true →
    ∃ t, exec (.movResume c dma) s = .next t ∧
      recOpen t (beField inp 0 1) = false ∧ (parkedOn s (beField inp 0 1)).all (fun m => (moveOf t m.id).map (·.phase) == some .start) = true ∧ MbxEnded t c .done ∧
    t.home = s.home) ∧
  (∀ (s : State) (c : Chan) (dma : Bytes) (inp : Bytes) (m : Move) (j : BitVec 32) (it : Nat) (di : Nat),
    AtRest s →
    MbxRuns s c 0x42 dma inp →
    recOpen s (beField inp 0 1) = true →
    parkedOn s (beField inp 0 1) = [m] →
    m.origin = .almanac j it di →
    ∃ t, exec (.movFail c dma) s = .next t ∧
      recOpen t (beField inp 0 1) = false ∧ moveOf t m.id = none ∧ t.mov.doneDesc = s.mov.doneDesc ++ [(j, it, di, .unmapped)] ∧ MbxEnded t c .done ∧
    (homeQuiet s = true → t.home = s.home)) ∧
  (∀ (s : State) (c : Chan) (dma : Bytes) (inp : Bytes),
    AtRest s →
    MbxRuns s c 0x42 dma inp →
    recOpen s (beField inp 0 1) = true →
    ∃ t, exec (.movFail c dma) s = .next t ∧
      recOpen t (beField inp 0 1) = false ∧ (parkedOn s (beField inp 0 1)).all (fun m => (moveOf t m.id).isNone) = true ∧
    (homeQuiet s = true → t.home = s.home)) ∧
  (∀ (s : State) (c : Chan) (dma : Bytes) (inp : Bytes),
    AtRest s →
    MbxRuns s c 0x41 dma inp →
    recOpen s (beField inp 0 1) = false →
    ∃ t, exec (.movResume c dma) s = .next t ∧
      t.mov = s.mov ∧ MbxEnded t c .malformed ∧
    t.home = s.home) ∧
  (∀ (s : State) (c : Chan) (dma : Bytes) (inp : Bytes),
    AtRest s →
    MbxRuns s c 0x42 dma inp →
    recOpen s (beField inp 0 1) = false →
    ∃ t, exec (.movFail c dma) s = .next t ∧
      t.mov = s.mov ∧ MbxEnded t c .malformed ∧
    (homeQuiet s = true → t.home = s.home)) ∧
  (∀ (s : State) (r : Fin 64) (m : Move) (j : BitVec 32) (it : Nat) (di : Nat),
    AtRest s →
    recOpen s r = true →
    parkedOn s r = [m] →
    m.origin = .almanac j it di →
    ∃ t, exec (.faultRecordExpire r) s = .next t ∧
      recOpen t r = false ∧ moveOf t m.id = none ∧ t.mov.doneDesc = s.mov.doneDesc ++ [(j, it, di, .unmapped)] ∧
    (homeQuiet s = true → t.home = s.home)) ∧
  (∀ (s : State) (r : Fin 64),
    AtRest s →
    recOpen s r = true →
    ∃ t, exec (.faultRecordExpire r) s = .next t ∧
      recOpen t r = false ∧ (parkedOn s r).all (fun m => (moveOf t m.id).isNone) = true ∧
    (homeQuiet s = true → t.home = s.home)) ∧
  (∀ (s : State) (r : Fin 64),
    AtRest s →
    recOpen s r = false →
    ∃ t, exec (.faultRecordExpire r) s = .next t ∧
      t.mov = s.mov ∧
    (homeQuiet s = true → t.home = s.home))

/-- Tenants are bound, admitted, released, drained and scrubbed. Rows: TEN_ADMIT (R314), TEN_RELEASE (R321),
TENANT_DRAIN_DONE (R321), UNIT_SCRUB_DONE (R315), EP_BIND (R316), EP_UNBIND (R316). A clause that follows a reading
of the model's where the spec leaves a point open follows log entries 45, 46, 103, 129 and 131. -/
def Obligations.TenantRows : Prop :=
  (∀ (s : State) (c : Chan) (dma : Bytes) (inp : Bytes),
    AtRest s →
    MbxRuns s c 0x10 dma inp →
    s.ten.debug = false →
    admitCheck s (beField inp 0 2) (beField inp 2 1) (beField inp 3 1) (beField inp 4 2) (beField inp 6 2) (beField inp 8 4) (beField inp 12 9) (allZero (slice inp 21 3)) = .done →
    ∃ t, exec (.tenAdmit c dma) s = .next t ∧
      tenSlot t (beField inp 2 1) = admitted s (beField inp 0 2) (beField inp 2 1) (beField inp 3 1) (beField inp 4 2) (beField inp 6 2) (beField inp 8 4) (beField inp 12 9) ∧ MbxEnded t c .done ∧
    t.home = s.home) ∧
  (∀ (s : State) (c : Chan) (dma : Bytes) (inp : Bytes),
    AtRest s →
    MbxRuns s c 0x10 dma inp →
    s.ten.debug = true ∨ admitCheck s (beField inp 0 2) (beField inp 2 1) (beField inp 3 1) (beField inp 4 2) (beField inp 6 2) (beField inp 8 4) (beField inp 12 9) (allZero (slice inp 21 3)) ≠ .done →
    ∃ t, exec (.tenAdmit c dma) s = .next t ∧
      t.ten = s.ten ∧ MbxEnded t c (if s.ten.debug then .accessDenied else admitCheck s (beField inp 0 2) (beField inp 2 1) (beField inp 3 1) (beField inp 4 2) (beField inp 6 2) (beField inp 8 4) (beField inp 12 9) (allZero (slice inp 21 3))) ∧
    t.home = s.home) ∧
  (∀ (s : State) (c : Chan) (dma : Bytes) (inp : Bytes) (n : Nat),
    s.chip.running = true →
    MbxRuns s c 0x11 dma inp →
    tenantOk (beField inp 0 2) = true →
    slotOfTenant s (beField inp 0 2) = some n →
    (tenSlot s n).state = .active →
    ∃ t, exec (.tenRelease c dma) s = .next t ∧
      tenSlot t n = { tenSlot s n with state := .fenced, relChan := some c } ∧ t.alm.all (fun a => a.tenant != (tenSlot s n).tenant) = true) ∧
  (∀ (s : State) (c : Chan) (dma : Bytes) (inp : Bytes) (n : Nat),
    AtRest s →
    MbxRuns s c 0x11 dma inp →
    tenantOk (beField inp 0 2) = true →
    slotOfTenant s (beField inp 0 2) = some n →
    (tenSlot s n).state = .active →
    ∃ t, exec (.tenRelease c dma) s = .next t ∧
      t.mov.faults.all (fun r => r.key.tenant != (tenSlot s n).tenant) = true ∧
    t.coll.ctxs.all (fun x => x.2.state == .free || x.2.tenant != (tenSlot s n).tenant) = true) ∧
  (∀ (s : State) (c : Chan) (dma : Bytes) (inp : Bytes),
    AtRest s →
    MbxRuns s c 0x11 dma inp →
    tenantOk (beField inp 0 2) = false ∨ (match slotOfTenant s (beField inp 0 2) with | none => true | some n => (tenSlot s n).state != .active) = true →
    ∃ t, exec (.tenRelease c dma) s = .next t ∧
      t.ten = s.ten ∧ MbxEnded t c (if tenantOk (beField inp 0 2) && (slotOfTenant s (beField inp 0 2)).isSome then .busy else .malformed)) ∧
  (∀ (s : State) (n : Fin 64),
    s.chip.running = true →
    (tenSlot s n).state = .fenced →
    tenantBusy s (tenSlot s n) = false →
    ∃ t, exec (.tenantDrainDone n) s = .next t ∧
      (tenSlot t n).state = .scrubbing ∧ ScrubUnit.tables n ∈ (tenSlot t n).dirty ∧ (∀ u ∈ (namedUnits (tenSlot s n).stk.toNat (tenSlot s n).anx.toNat ((tenSlot s n).cel.map BitVec.toNat)), u ∈ (tenSlot t n).dirty)) ∧
  (∀ (s : State) (n : Fin 64),
    AtRest s →
    (tenSlot s n).state ≠ .fenced ∨ tenantBusy s (tenSlot s n) = true →
    ∃ t, exec (.tenantDrainDone n) s = .next t ∧
      t.ten = s.ten ∧ t.trn = s.trn ∧ t.xlat = s.xlat ∧
    (homeQuiet s = true → t.home = s.home)) ∧
  (∀ (s : State) (u : ScrubUnit) (failed : Bool) (n : Nat) (x : TenSlot) (sp : Nat) (a0 : Nat) (n0 : Nat),
    s.chip.running = true →
    s.ten.ten = [(n, x)] →
    x.state = .scrubbing →
    x.dirty = [u] →
    ∃ t, exec (.unitScrubDone u failed) s = .next t ∧
      (tenSlot t n).state = .free ∧ ((tget none t.ten.released n).map (·.tenant)) = some x.tenant ∧ (failed = true ∨ unitOut s u = true → u ∈ t.home.failed) ∧
    (pageReads s = false → (∀ r ∈ scrubRanges s x u, Apart r.1 r.2.1 r.2.2 sp a0 n0) → tierRead t sp a0 n0 = tierRead s sp a0 n0)) ∧
  (∀ (s : State) (u : ScrubUnit) (failed : Bool) (n : Nat) (x : TenSlot) (c : Chan),
    s.chip.running = true →
    s.ten.ten = [(n, x)] →
    x.state = .scrubbing →
    x.dirty = [u] →
    x.relChan = some c.val →
    (chan s c).busy = true →
    (chan s c).lost = false →
    ∃ t, exec (.unitScrubDone u failed) s = .next t ∧
      (tenSlot t n).state = .free ∧ MbxEnded t c .done) ∧
  (∀ (s : State) (u : ScrubUnit) (failed : Bool) (n : Nat) (x : TenSlot),
    s.chip.running = true →
    s.ten.ten = [(n, x)] →
    x.state = .scrubbing →
    u ∈ x.dirty →
    x.dirty.erase u ≠ [] →
    ∃ t, exec (.unitScrubDone u failed) s = .next t ∧
      (tenSlot t n).state = .scrubbing ∧ (tenSlot t n).dirty = x.dirty.erase u ∧ (failed = true ∨ unitOut s u = true → u ∈ t.home.failed)) ∧
  (∀ (s : State) (g : Fin 16) (n : Nat) (x : TenSlot) (off : Nat) (k : Nat),
    s.chip.running = true →
    s.ten.ten = [(n, x)] →
    x.state = .scrubbing →
    .stacksGroup g ∈ x.dirty →
    unitOut s (.stacksGroup g) = false →
    g.val * (9088 * 2 ^ 20) ≤ off →
    off + k ≤ (g.val + 1) * (9088 * 2 ^ 20) →
    ∃ t, exec (.unitScrubDone (.stacksGroup g) false) s = .next t ∧
      (pageReads s = false → tierRead t 1 off k = List.replicate k 0)) ∧
  (∀ (s : State) (g : Fin 16) (n : Nat) (x : TenSlot) (off : Nat) (k : Nat),
    s.chip.running = true →
    s.ten.ten = [(n, x)] →
    x.state = .scrubbing →
    .annexPackage g ∈ x.dirty →
    unitOut s (.annexPackage g) = false →
    g.val * (96 * 2 ^ 30) ≤ off →
    off + k ≤ (g.val + 1) * (96 * 2 ^ 30) →
    ∃ t, exec (.unitScrubDone (.annexPackage g) false) s = .next t ∧
      (pageReads s = false → tierRead t 2 off k = List.replicate k 0)) ∧
  (∀ (s : State) (u : ScrubUnit) (failed : Bool),
    s.chip.running = true →
    s.ten.ten.all (fun x => !(x.2.state == .scrubbing && x.2.dirty.contains u)) = true →
    u ∈ bootDirty s →
    ∃ t, exec (.unitScrubDone u failed) s = .next t ∧
      (if failed || unitOut s u then u ∈ t.home.failed else u ∈ t.ten.clean)) ∧
  (∀ (s : State) (u : ScrubUnit) (failed : Bool),
    AtRest s →
    s.ten.ten.all (fun x => !(x.2.state == .scrubbing && x.2.dirty.contains u)) = true →
    u ∉ bootDirty s →
    ∃ t, exec (.unitScrubDone u failed) s = .next t ∧
      t.ten = s.ten ∧ t.home = s.home) ∧
  (∀ (s : State) (c : Chan) (dma : Bytes) (inp : Bytes),
    AtRest s →
    MbxRuns s c 0x12 dma inp →
    tenantOk (beField inp 0 2) = true →
    beField inp 2 2 = 0 →
    (bitsSet 72 (beField inp 4 9)).all (fun p => !slotEmpty s p && !isFabricPort s p) = true →
    (bitsSet 72 (beField inp 4 9)).all (fun p => match bindOf s p with | some u => u.toNat == beField inp 0 2 || (slotOfTenant s u.toNat).isNone | none => true) = true →
    ∃ t, exec (.epBind c dma) s = .next t ∧
      (∀ p ∈ bitsSet 72 (beField inp 4 9), bindOf t p = some (BitVec.ofNat 12 (beField inp 0 2))) ∧ MbxEnded t c .done) ∧
  (∀ (s : State) (c : Chan) (dma : Bytes) (inp : Bytes),
    AtRest s →
    MbxRuns s c 0x12 dma inp →
    tenantOk (beField inp 0 2) = false ∨ beField inp 2 2 ≠ 0 ∨ (bitsSet 72 (beField inp 4 9)).all (fun p => !slotEmpty s p && !isFabricPort s p) = false →
    ∃ t, exec (.epBind c dma) s = .next t ∧
      t.ten = s.ten ∧ MbxEnded t c .malformed) ∧
  (∀ (s : State) (c : Chan) (dma : Bytes) (inp : Bytes),
    AtRest s →
    MbxRuns s c 0x12 dma inp →
    tenantOk (beField inp 0 2) = true →
    beField inp 2 2 = 0 →
    (bitsSet 72 (beField inp 4 9)).all (fun p => !slotEmpty s p && !isFabricPort s p) = true →
    (bitsSet 72 (beField inp 4 9)).all (fun p => match bindOf s p with | some u => u.toNat == beField inp 0 2 || (slotOfTenant s u.toNat).isNone | none => true) = false →
    ∃ t, exec (.epBind c dma) s = .next t ∧
      t.ten = s.ten ∧ MbxEnded t c .busy) ∧
  (∀ (s : State) (c : Chan) (dma : Bytes) (inp : Bytes),
    AtRest s →
    MbxRuns s c 0x13 dma inp →
    tenantOk (beField inp 0 2) = true →
    beField inp 2 2 = 0 →
    (match slotOfTenant s (beField inp 0 2) with | some n => (tenSlot s n).ports.toNat &&& beField inp 4 9 == 0 | none => true) = true →
    ∃ t, exec (.epUnbind c dma) s = .next t ∧
      (∀ p ∈ bitsSet 72 (beField inp 4 9), bindOf t p ≠ some (BitVec.ofNat 12 (beField inp 0 2))) ∧ MbxEnded t c .done) ∧
  (∀ (s : State) (c : Chan) (dma : Bytes) (inp : Bytes),
    AtRest s →
    MbxRuns s c 0x13 dma inp →
    tenantOk (beField inp 0 2) = false ∨ beField inp 2 2 ≠ 0 ∨ (match slotOfTenant s (beField inp 0 2) with | some n => (tenSlot s n).ports.toNat &&& beField inp 4 9 != 0 | none => false) = true →
    ∃ t, exec (.epUnbind c dma) s = .next t ∧
      t.ten = s.ten ∧ MbxEnded t c (if tenantOk (beField inp 0 2) && beField inp 2 2 == 0 then .busy else .malformed))

/-- Evidence, the debug challenge and the debug unlock. Rows: EVIDENCE_GET (R328), DBG_CHALLENGE (R332),
DEBUG_UNLOCK (R332). A clause that follows a reading of the model's where the spec leaves a point open follows log
entries 47, 48 and 132. -/
def Obligations.EvidenceAndDebug : Prop :=
  (∀ (s : State) (c : Chan) (dma : Bytes) (inp : Bytes),
    AtRest s →
    MbxRuns s c 0x07 dma inp →
    beField inp 32 1 ≤ 1 →
    beField inp 33 1 = 0 →
    beField inp 32 1 = 0 ∨ beField inp 34 2 < 4096 →
    s.ten.debug = false →
    s.ten.idReady = true →
    beField inp 32 1 = 0 ∨ evKnown s (beField inp 34 2) = true →
    ∃ t, exec (.evidenceGet c (.mailbox dma)) s = .next t ∧
      MbxEnded t c (if mbxFits s c (evRecord s (slice inp 0 32) (beField inp 32 1) (beField inp 34 2)).length then .done else .malformed)) ∧
  (∀ (s : State) (c : Chan) (dma : Bytes) (inp : Bytes),
    AtRest s →
    MbxRuns s c 0x07 dma inp →
    beField inp 32 1 ≤ 1 →
    beField inp 33 1 = 0 →
    beField inp 32 1 = 0 ∨ beField inp 34 2 < 4096 →
    s.ten.debug = true ∨ s.ten.idReady = false ∨ (beField inp 32 1 = 1 ∧ evKnown s (beField inp 34 2) = false) →
    ∃ t, exec (.evidenceGet c (.mailbox dma)) s = .next t ∧
      MbxEnded t c .accessDenied ∧ t.fresh = s.fresh) ∧
  (∀ (s : State) (c : Chan) (dma : Bytes) (inp : Bytes),
    AtRest s →
    MbxRuns s c 0x07 dma inp →
    1 < beField inp 32 1 ∨ beField inp 33 1 ≠ 0 ∨ (beField inp 32 1 = 1 ∧ 4096 ≤ beField inp 34 2) →
    ∃ t, exec (.evidenceGet c (.mailbox dma)) s = .next t ∧
      MbxEnded t c .malformed ∧ t.fresh = s.fresh) ∧
  (∀ (s : State) (c : Chan) (inp : Bytes),
    s.chip.running = true →
    mgmtUp s = true →
    ∃ t, exec (.evidenceGet c (.port inp)) s = .next t ∧
      (if evStatus s inp = .done then Puts s t (.evidence .done (evAnswer s inp)) ∧ t.fresh = s.fresh + 1 else Puts s t (.evidence (evStatus s inp) []) ∧ t.fresh = s.fresh)) ∧
  (∀ (s : State) (c : Chan) (dma : Bytes) (inp : Bytes),
    AtRest s →
    MbxRuns s c 0x08 dma inp →
    mbxFits s c 32 = true →
    ∃ t, exec (.dbgChallenge c dma) s = .next t ∧
      t.ten.challenge = some (beBytes 32 (Config.trng s.fresh).toNat) ∧ MbxEnded t c .done) ∧
  (∀ (s : State) (c : Chan) (dma : Bytes) (inp : Bytes),
    AtRest s →
    MbxRuns s c 0x08 dma inp →
    mbxFits s c 32 = false →
    ∃ t, exec (.dbgChallenge c dma) s = .next t ∧
      t.ten.challenge = s.ten.challenge ∧ MbxEnded t c .malformed) ∧
  (∀ (s : State) (serial : BitVec 64) (ch : Bytes) (scopes : BitVec 32) (sig : Bytes),
    s.chip.running = true →
    allFree s = true →
    (tget {} s.chip.bridges 3).down = false →
    ∃ t, exec (.debugUnlock serial ch scopes sig true) s = .next t ∧
      t.ten.challenge = none ∧ t.fuses.unlocks = (if ((debugKeys s).any (fun k => Config.verifies k (beBytes 8 serial.toNat ++ ch ++ beBytes 4 scopes.toNat) sig) && serial == s.fuses.serial && s.ten.challenge == some ch) then Nat.min 64 (s.fuses.unlocks + 1) else s.fuses.unlocks) ∧
    t.ten.debug = (((debugKeys s).any (fun k => Config.verifies k (beBytes 8 serial.toNat ++ ch ++ beBytes 4 scopes.toNat) sig) && serial == s.fuses.serial && s.ten.challenge == some ch) || s.ten.debug)) ∧
  (∀ (s : State) (serial : BitVec 64) (ch : Bytes) (scopes : BitVec 32) (sig : Bytes) (power : Bool),
    s.chip.running = true →
    allFree s = false ∨ power = false ∨ (tget {} s.chip.bridges 3).down = true →
    ∃ t, exec (.debugUnlock serial ch scopes sig power) s = .next t ∧
      t.ten.challenge = none ∧ t.fuses = s.fuses ∧ t.ten.debug = s.ten.debug ∧
    (power = true → (tget {} s.chip.bridges 3).down = false → Puts s t (.jtag .busy)))

end
end

