-- ==== Sys2Proof/Laws/Table.lean ====
section
/-!
SUPPORT. Tables and memories: what is read after a write, and that every write keeps the canonical form. No law of
reading needs the form.
-/

namespace Sys2Proof.Machine
open Sys2Proof

@[simp] theorem tget_nil {α : Type} (d : α) (k : Nat) : tget d [] k = d := rfl

theorem tget_cons {α : Type} (d : α) (j : Nat) (w : α) (t : Table α) (k : Nat) :
    tget d ((j, w) :: t) k = if k = j then w else tget d t k := rfl

/-- An entry that is not listed reads as the default. -/
theorem tget_filter_same {α : Type} (d : α) (k : Nat) :
    ∀ t : Table α, tget d (t.filter (fun x => x.1 != k)) k = d
  | [] => rfl
  | (j, w) :: t => by
    by_cases h : j = k
    · simp [h, tget_filter_same d k t]
    · simp [h, tget_cons, Ne.symm h, tget_filter_same d k t]

theorem tget_filter_ne {α : Type} (d : α) {k j : Nat} (h : j ≠ k) :
    ∀ t : Table α, tget d (t.filter (fun x => x.1 != k)) j = tget d t j
  | [] => rfl
  | (i, w) :: t => by
    by_cases hi : i = k
    · subst hi; simp [tget_cons, h, tget_filter_ne d h t]
    · simp [hi, tget_cons, tget_filter_ne d h t]

theorem tget_tins_same {α : Type} (d : α) (k : Nat) (v : α) :
    ∀ t : Table α, (∀ x ∈ t, x.1 ≠ k) → tget d (tins k v t) k = v
  | [], _ => by simp [tins, tget_cons]
  | (j, w) :: t, h => by
    have hj : j ≠ k := h (j, w) (by simp)
    unfold tins
    split
    · simp [tget_cons]
    · simp [tget_cons, Ne.symm hj, tget_tins_same d k v t (fun x hx => h x (by simp [hx]))]

theorem tget_tins_ne {α : Type} (d : α) {k j : Nat} (v : α) (h : j ≠ k) :
    ∀ t : Table α, tget d (tins k v t) j = tget d t j
  | [] => by simp [tins, tget_cons, h]
  | (i, w) :: t => by
    unfold tins
    split
    · simp [tget_cons, h]
    · simp [tget_cons, tget_tins_ne d v h t]

/-- What is written is read back. -/
@[simp] theorem tget_tput_same {α : Type} [DecidableEq α] (d : α) (t : Table α) (k : Nat) (v : α) :
    tget d (tput d t k v) k = v := by
  unfold tput
  split
  · rename_i h; rw [h]; exact tget_filter_same d k t
  · exact tget_tins_same d k v _ (by simp)

/-- A write leaves every other key alone. -/
theorem tget_tput_ne {α : Type} [DecidableEq α] (d e : α) (t : Table α) {k j : Nat} (v : α) (h : j ≠ k) :
    tget e (tput d t k v) j = tget e t j := by
  unfold tput
  split
  · exact tget_filter_ne e h t
  · rw [tget_tins_ne e v h, tget_filter_ne e h]

/-- Rising keys and no default value, as a property of the list. -/
theorem table_wf_iff {α : Type} [DecidableEq α] (d : α) :
    ∀ t : Table α, Table.wf d t = true ↔ t.Pairwise (fun x y => x.1 < y.1) ∧ ∀ x ∈ t, x.2 ≠ d
  | [] => by simp [Table.wf]
  | [(_, v)] => by simp [Table.wf]
  | (j, v) :: (k, w) :: t => by
    have ih := table_wf_iff d ((k, w) :: t)
    simp only [Table.wf, Bool.and_eq_true, decide_eq_true_eq, ih]
    constructor
    · rintro ⟨⟨hj, hv⟩, hp, hd⟩
      refine ⟨List.pairwise_cons.2 ⟨?_, hp⟩, ?_⟩
      · intro x hx
        rcases List.mem_cons.1 hx with rfl | hx
        · exact hj
        · exact Nat.lt_trans hj ((List.pairwise_cons.1 hp).1 x hx)
      · intro x hx
        rcases List.mem_cons.1 hx with rfl | hx
        · exact hv
        · exact hd x hx
    · rintro ⟨hp, hd⟩
      have hp' := List.pairwise_cons.1 hp
      exact ⟨⟨hp'.1 (k, w) (by simp), hd (j, v) (by simp)⟩, hp'.2, fun x hx => hd x (by simp [hx])⟩

theorem mem_tins {α : Type} {k : Nat} {v : α} {x : Nat × α} :
    ∀ {t : Table α}, x ∈ tins k v t → x = (k, v) ∨ x ∈ t
  | [], h => by simpa [tins] using h
  | (j, w) :: t, h => by
    unfold tins at h
    split at h
    · simpa using h
    · rcases List.mem_cons.1 h with h | h
      · simp [h]
      · rcases mem_tins h with h | h <;> simp [h]

theorem tins_rising {α : Type} {k : Nat} {v : α} :
    ∀ {t : Table α}, (∀ x ∈ t, x.1 ≠ k) → t.Pairwise (fun x y => x.1 < y.1) → (tins k v t).Pairwise (fun x y => x.1 < y.1)
  | [], _, _ => by simp [tins]
  | (j, w) :: t, h, hp => by
    have hj : j ≠ k := h (j, w) (by simp)
    have hp' := List.pairwise_cons.1 hp
    unfold tins
    split
    · rename_i hk
      refine List.pairwise_cons.2 ⟨?_, hp⟩
      intro x hx
      rcases List.mem_cons.1 hx with rfl | hx
      · exact hk
      · exact Nat.lt_trans hk (hp'.1 x hx)
    · rename_i hk
      refine List.pairwise_cons.2 ⟨?_, tins_rising (fun x hx => h x (by simp [hx])) hp'.2⟩
      intro x hx
      rcases mem_tins hx with rfl | hx
      · exact Nat.lt_of_le_of_ne (Nat.le_of_not_lt hk) hj
      · exact hp'.1 x hx

/-- A write keeps the canonical form. -/
theorem tput_wf {α : Type} [DecidableEq α] (d : α) {t : Table α} (k : Nat) (v : α) (h : Table.wf d t = true) :
    Table.wf d (tput d t k v) = true := by
  rw [table_wf_iff] at h ⊢
  have hf : (t.filter (fun x => x.1 != k)).Pairwise (fun x y => x.1 < y.1) := h.1.filter _
  have hd : ∀ x ∈ t.filter (fun x => x.1 != k), x.2 ≠ d := fun x hx => h.2 x (List.mem_filter.1 hx).1
  unfold tput
  split
  · exact ⟨hf, hd⟩
  · rename_i hv
    refine ⟨tins_rising (by simp) hf, fun x hx => ?_⟩
    rcases mem_tins hx with rfl | hx
    · exact hv
    · exact hd x hx

/-- Dropping entries keeps the canonical form. -/
theorem filter_wf {α : Type} [DecidableEq α] (d : α) {t : Table α} (p : Nat × α → Bool) (h : Table.wf d t = true) :
    Table.wf d (t.filter p) = true := by
  rw [table_wf_iff] at h ⊢
  exact ⟨h.1.filter _, fun x hx => h.2 x (List.mem_filter.1 hx).1⟩

/-! ### Memories -/

@[simp] theorem memWrite_nil (m : Table Byte) (a : Nat) : memWrite m a [] = m := rfl

/-- A write leaves every byte before it alone. -/
theorem tget_memWrite_before {m : Table Byte} {a i : Nat} {bs : Bytes} (h : i < a) :
    tget 0 (memWrite m a bs) i = tget 0 m i := by
  induction bs generalizing m a with
  | nil => rfl
  | cons b bs ih => rw [memWrite, ih (by omega), tget_tput_ne _ _ _ _ (by omega)]

/-- A write leaves every byte after it alone. -/
theorem tget_memWrite_after {m : Table Byte} {a i : Nat} {bs : Bytes} (h : a + bs.length ≤ i) :
    tget 0 (memWrite m a bs) i = tget 0 m i := by
  induction bs generalizing m a with
  | nil => rfl
  | cons b bs ih =>
    simp only [List.length_cons] at h
    rw [memWrite, ih (by omega), tget_tput_ne _ _ _ _ (by omega)]

/-- The bytes written are the bytes read. -/
theorem tget_memWrite {m : Table Byte} {a i : Nat} {bs : Bytes} (h : i < bs.length) :
    tget 0 (memWrite m a bs) (a + i) = bs[i] := by
  induction bs generalizing m a i with
  | nil => simp at h
  | cons b bs ih =>
    cases i with
    | zero => rw [memWrite, tget_memWrite_before (by omega)]; simp
    | succ n =>
      have hn : n < bs.length := by simpa using h
      rw [memWrite, show a + (n + 1) = a + 1 + n by omega, ih hn]; simp

/-- A read of what was just written gives it back. -/
theorem memRead_memWrite_same (m : Table Byte) (a : Nat) (bs : Bytes) :
    memRead (memWrite m a bs) a bs.length = bs := by
  apply List.ext_getElem
  · simp [memRead]
  · intro i h1 h2
    simp only [memRead, List.getElem_map, List.getElem_range]
    exact tget_memWrite h2

/-- A read outside what was written is unchanged. -/
theorem memRead_memWrite_outside {m : Table Byte} {a x n : Nat} {bs : Bytes} (h : x + n ≤ a ∨ a + bs.length ≤ x) :
    memRead (memWrite m a bs) x n = memRead m x n := by
  simp only [memRead]
  apply List.map_congr_left
  intro i hi
  have hi' := List.mem_range.1 hi
  rcases h with h | h
  · exact tget_memWrite_before (by omega)
  · exact tget_memWrite_after (by omega)

/-- A write keeps a memory's canonical form. -/
theorem memWrite_wf {m : Table Byte} {a : Nat} {bs : Bytes} (h : Memory.wf m = true) : Memory.wf (memWrite m a bs) = true := by
  induction bs generalizing m a with
  | nil => exact h
  | cons b bs ih => exact ih (tput_wf 0 a b h)

theorem memory_filter_wf {m : Table Byte} (p : Nat × Byte → Bool) (h : Memory.wf m = true) : Memory.wf (m.filter p) = true :=
  filter_wf 0 p h

end Sys2Proof.Machine
end

