-- ==== Sys2Proof/Laws/State.lean ====
section
/-!
SUPPORT. What each update of the state leaves as it was (one lemma per update, `<update>_frame`, an equation per field),
and what is read after a write of one part.
-/

namespace Sys2Proof.Machine
open Sys2Proof

/-! ### Frames of the updates -/

@[simp] theorem emit_frame (e : Emit) (s : State) :
    (emit e s).pending = s.pending ∧ (emit e s).fresh = s.fresh ∧ (emit e s).regs = s.regs ∧
    (emit e s).fuses = s.fuses ∧ (emit e s).chip = s.chip ∧ (emit e s).time = s.time ∧ (emit e s).ports = s.ports ∧
    (emit e s).lasers = s.lasers ∧ (emit e s).att = s.att ∧ (emit e s).xlat = s.xlat ∧ (emit e s).trn = s.trn ∧
    (emit e s).home = s.home ∧ (emit e s).mov = s.mov ∧ (emit e s).sw = s.sw ∧ (emit e s).alm = s.alm ∧
    (emit e s).coll = s.coll ∧ (emit e s).arr = s.arr ∧ (emit e s).ten = s.ten ∧ (emit e s).fw = s.fw ∧
    (emit e s).pwr = s.pwr ∧ (emit e s).fab = s.fab ∧ (emit e s).hif = s.hif ∧ (emit e s).hlth = s.hlth :=
  ⟨rfl, rfl, rfl, rfl, rfl, rfl, rfl, rfl, rfl, rfl, rfl, rfl, rfl, rfl, rfl, rfl, rfl, rfl, rfl, rfl, rfl, rfl, rfl⟩

@[simp] theorem emits_frame (es : List Emit) (s : State) :
    (emits es s).pending = s.pending ∧ (emits es s).fresh = s.fresh ∧ (emits es s).regs = s.regs ∧
    (emits es s).fuses = s.fuses ∧ (emits es s).chip = s.chip ∧ (emits es s).time = s.time ∧
    (emits es s).ports = s.ports ∧ (emits es s).lasers = s.lasers ∧ (emits es s).att = s.att ∧
    (emits es s).xlat = s.xlat ∧ (emits es s).trn = s.trn ∧ (emits es s).home = s.home ∧ (emits es s).mov = s.mov ∧
    (emits es s).sw = s.sw ∧ (emits es s).alm = s.alm ∧ (emits es s).coll = s.coll ∧ (emits es s).arr = s.arr ∧
    (emits es s).ten = s.ten ∧ (emits es s).fw = s.fw ∧ (emits es s).pwr = s.pwr ∧ (emits es s).fab = s.fab ∧
    (emits es s).hif = s.hif ∧ (emits es s).hlth = s.hlth :=
  ⟨rfl, rfl, rfl, rfl, rfl, rfl, rfl, rfl, rfl, rfl, rfl, rfl, rfl, rfl, rfl, rfl, rfl, rfl, rfl, rfl, rfl, rfl, rfl⟩

@[simp] theorem draw_frame (s : State) :
    (draw s).pending = s.pending ∧ (draw s).out = s.out ∧ (draw s).regs = s.regs ∧ (draw s).fuses = s.fuses ∧
    (draw s).chip = s.chip ∧ (draw s).time = s.time ∧ (draw s).ports = s.ports ∧ (draw s).lasers = s.lasers ∧
    (draw s).att = s.att ∧ (draw s).xlat = s.xlat ∧ (draw s).trn = s.trn ∧ (draw s).home = s.home ∧
    (draw s).mov = s.mov ∧ (draw s).sw = s.sw ∧ (draw s).alm = s.alm ∧ (draw s).coll = s.coll ∧
    (draw s).arr = s.arr ∧ (draw s).ten = s.ten ∧ (draw s).fw = s.fw ∧ (draw s).pwr = s.pwr ∧ (draw s).fab = s.fab ∧
    (draw s).hif = s.hif ∧ (draw s).hlth = s.hlth :=
  ⟨rfl, rfl, rfl, rfl, rfl, rfl, rfl, rfl, rfl, rfl, rfl, rfl, rfl, rfl, rfl, rfl, rfl, rfl, rfl, rfl, rfl, rfl, rfl⟩

@[simp] theorem setWord_frame (off : Nat) (v : Word) (s : State) :
    (setWord off v s).pending = s.pending ∧ (setWord off v s).out = s.out ∧ (setWord off v s).fresh = s.fresh ∧
    (setWord off v s).fuses = s.fuses ∧ (setWord off v s).chip = s.chip ∧ (setWord off v s).time = s.time ∧
    (setWord off v s).ports = s.ports ∧ (setWord off v s).lasers = s.lasers ∧ (setWord off v s).att = s.att ∧
    (setWord off v s).xlat = s.xlat ∧ (setWord off v s).trn = s.trn ∧ (setWord off v s).home = s.home ∧
    (setWord off v s).mov = s.mov ∧ (setWord off v s).sw = s.sw ∧ (setWord off v s).alm = s.alm ∧
    (setWord off v s).coll = s.coll ∧ (setWord off v s).arr = s.arr ∧ (setWord off v s).ten = s.ten ∧
    (setWord off v s).fw = s.fw ∧ (setWord off v s).pwr = s.pwr ∧ (setWord off v s).fab = s.fab ∧
    (setWord off v s).hif = s.hif ∧ (setWord off v s).hlth = s.hlth :=
  ⟨rfl, rfl, rfl, rfl, rfl, rfl, rfl, rfl, rfl, rfl, rfl, rfl, rfl, rfl, rfl, rfl, rfl, rfl, rfl, rfl, rfl, rfl, rfl⟩

@[simp] theorem setField_frame (off lo w x : Nat) (s : State) :
    (setField off lo w x s).pending = s.pending ∧ (setField off lo w x s).out = s.out ∧
    (setField off lo w x s).fresh = s.fresh ∧ (setField off lo w x s).fuses = s.fuses ∧
    (setField off lo w x s).chip = s.chip ∧ (setField off lo w x s).time = s.time ∧
    (setField off lo w x s).ports = s.ports ∧ (setField off lo w x s).lasers = s.lasers ∧
    (setField off lo w x s).att = s.att ∧ (setField off lo w x s).xlat = s.xlat ∧
    (setField off lo w x s).trn = s.trn ∧ (setField off lo w x s).home = s.home ∧
    (setField off lo w x s).mov = s.mov ∧ (setField off lo w x s).sw = s.sw ∧ (setField off lo w x s).alm = s.alm ∧
    (setField off lo w x s).coll = s.coll ∧ (setField off lo w x s).arr = s.arr ∧
    (setField off lo w x s).ten = s.ten ∧ (setField off lo w x s).fw = s.fw ∧ (setField off lo w x s).pwr = s.pwr ∧
    (setField off lo w x s).fab = s.fab ∧ (setField off lo w x s).hif = s.hif ∧ (setField off lo w x s).hlth = s.hlth :=
  ⟨rfl, rfl, rfl, rfl, rfl, rfl, rfl, rfl, rfl, rfl, rfl, rfl, rfl, rfl, rfl, rfl, rfl, rfl, rfl, rfl, rfl, rfl, rfl⟩

@[simp] theorem hlth_frame (entity weight : Nat) (s : State) :
    (hlth entity weight s).pending = s.pending ∧ (hlth entity weight s).out = s.out ∧
    (hlth entity weight s).fresh = s.fresh ∧ (hlth entity weight s).regs = s.regs ∧
    (hlth entity weight s).fuses = s.fuses ∧ (hlth entity weight s).chip = s.chip ∧
    (hlth entity weight s).time = s.time ∧ (hlth entity weight s).ports = s.ports ∧
    (hlth entity weight s).lasers = s.lasers ∧ (hlth entity weight s).att = s.att ∧
    (hlth entity weight s).xlat = s.xlat ∧ (hlth entity weight s).trn = s.trn ∧
    (hlth entity weight s).home = s.home ∧ (hlth entity weight s).mov = s.mov ∧ (hlth entity weight s).sw = s.sw ∧
    (hlth entity weight s).alm = s.alm ∧ (hlth entity weight s).coll = s.coll ∧ (hlth entity weight s).arr = s.arr ∧
    (hlth entity weight s).ten = s.ten ∧ (hlth entity weight s).fw = s.fw ∧ (hlth entity weight s).pwr = s.pwr ∧
    (hlth entity weight s).fab = s.fab ∧ (hlth entity weight s).hif = s.hif ∧
    (hlth entity weight s).hlth.score = s.hlth.score ∧ (hlth entity weight s).hlth.level = s.hlth.level ∧
    (hlth entity weight s).hlth.tjPeak = s.hlth.tjPeak :=
  ⟨rfl, rfl, rfl, rfl, rfl, rfl, rfl, rfl, rfl, rfl, rfl, rfl, rfl, rfl, rfl, rfl, rfl, rfl, rfl, rfl, rfl, rfl, rfl,
    rfl, rfl, rfl⟩

@[simp] theorem setSess_frame (p : Nat) (x : Session) (s : State) :
    (setSess p x s).pending = s.pending ∧ (setSess p x s).out = s.out ∧ (setSess p x s).fresh = s.fresh ∧
    (setSess p x s).regs = s.regs ∧ (setSess p x s).fuses = s.fuses ∧ (setSess p x s).chip = s.chip ∧
    (setSess p x s).time = s.time ∧ (setSess p x s).ports = s.ports ∧ (setSess p x s).lasers = s.lasers ∧
    (setSess p x s).xlat = s.xlat ∧ (setSess p x s).trn = s.trn ∧ (setSess p x s).home = s.home ∧
    (setSess p x s).mov = s.mov ∧ (setSess p x s).sw = s.sw ∧ (setSess p x s).alm = s.alm ∧
    (setSess p x s).coll = s.coll ∧ (setSess p x s).arr = s.arr ∧ (setSess p x s).ten = s.ten ∧
    (setSess p x s).fw = s.fw ∧ (setSess p x s).pwr = s.pwr ∧ (setSess p x s).fab = s.fab ∧
    (setSess p x s).hif = s.hif ∧ (setSess p x s).hlth = s.hlth :=
  ⟨rfl, rfl, rfl, rfl, rfl, rfl, rfl, rfl, rfl, rfl, rfl, rfl, rfl, rfl, rfl, rfl, rfl, rfl, rfl, rfl, rfl, rfl, rfl⟩

@[simp] theorem modSess_frame (p : Nat) (f : Session → Session) (s : State) :
    (modSess p f s).pending = s.pending ∧ (modSess p f s).out = s.out ∧ (modSess p f s).fresh = s.fresh ∧
    (modSess p f s).regs = s.regs ∧ (modSess p f s).fuses = s.fuses ∧ (modSess p f s).chip = s.chip ∧
    (modSess p f s).time = s.time ∧ (modSess p f s).ports = s.ports ∧ (modSess p f s).lasers = s.lasers ∧
    (modSess p f s).xlat = s.xlat ∧ (modSess p f s).trn = s.trn ∧ (modSess p f s).home = s.home ∧
    (modSess p f s).mov = s.mov ∧ (modSess p f s).sw = s.sw ∧ (modSess p f s).alm = s.alm ∧
    (modSess p f s).coll = s.coll ∧ (modSess p f s).arr = s.arr ∧ (modSess p f s).ten = s.ten ∧
    (modSess p f s).fw = s.fw ∧ (modSess p f s).pwr = s.pwr ∧ (modSess p f s).fab = s.fab ∧
    (modSess p f s).hif = s.hif ∧ (modSess p f s).hlth = s.hlth :=
  ⟨rfl, rfl, rfl, rfl, rfl, rfl, rfl, rfl, rfl, rfl, rfl, rfl, rfl, rfl, rfl, rfl, rfl, rfl, rfl, rfl, rfl, rfl, rfl⟩

@[simp] theorem setPort_frame (p : Nat) (x : PortSt) (s : State) :
    (setPort p x s).pending = s.pending ∧ (setPort p x s).out = s.out ∧ (setPort p x s).fresh = s.fresh ∧
    (setPort p x s).regs = s.regs ∧ (setPort p x s).fuses = s.fuses ∧ (setPort p x s).chip = s.chip ∧
    (setPort p x s).time = s.time ∧ (setPort p x s).lasers = s.lasers ∧ (setPort p x s).att = s.att ∧
    (setPort p x s).xlat = s.xlat ∧ (setPort p x s).trn = s.trn ∧ (setPort p x s).home = s.home ∧
    (setPort p x s).mov = s.mov ∧ (setPort p x s).sw = s.sw ∧ (setPort p x s).alm = s.alm ∧
    (setPort p x s).coll = s.coll ∧ (setPort p x s).arr = s.arr ∧ (setPort p x s).ten = s.ten ∧
    (setPort p x s).fw = s.fw ∧ (setPort p x s).pwr = s.pwr ∧ (setPort p x s).fab = s.fab ∧
    (setPort p x s).hif = s.hif ∧ (setPort p x s).hlth = s.hlth :=
  ⟨rfl, rfl, rfl, rfl, rfl, rfl, rfl, rfl, rfl, rfl, rfl, rfl, rfl, rfl, rfl, rfl, rfl, rfl, rfl, rfl, rfl, rfl, rfl⟩

@[simp] theorem modPort_frame (p : Nat) (f : PortSt → PortSt) (s : State) :
    (modPort p f s).pending = s.pending ∧ (modPort p f s).out = s.out ∧ (modPort p f s).fresh = s.fresh ∧
    (modPort p f s).regs = s.regs ∧ (modPort p f s).fuses = s.fuses ∧ (modPort p f s).chip = s.chip ∧
    (modPort p f s).time = s.time ∧ (modPort p f s).lasers = s.lasers ∧ (modPort p f s).att = s.att ∧
    (modPort p f s).xlat = s.xlat ∧ (modPort p f s).trn = s.trn ∧ (modPort p f s).home = s.home ∧
    (modPort p f s).mov = s.mov ∧ (modPort p f s).sw = s.sw ∧ (modPort p f s).alm = s.alm ∧
    (modPort p f s).coll = s.coll ∧ (modPort p f s).arr = s.arr ∧ (modPort p f s).ten = s.ten ∧
    (modPort p f s).fw = s.fw ∧ (modPort p f s).pwr = s.pwr ∧ (modPort p f s).fab = s.fab ∧
    (modPort p f s).hif = s.hif ∧ (modPort p f s).hlth = s.hlth :=
  ⟨rfl, rfl, rfl, rfl, rfl, rfl, rfl, rfl, rfl, rfl, rfl, rfl, rfl, rfl, rfl, rfl, rfl, rfl, rfl, rfl, rfl, rfl, rfl⟩

@[simp] theorem setChan_frame (c : Nat) (x : Chanl) (s : State) :
    (setChan c x s).pending = s.pending ∧ (setChan c x s).out = s.out ∧ (setChan c x s).fresh = s.fresh ∧
    (setChan c x s).regs = s.regs ∧ (setChan c x s).fuses = s.fuses ∧ (setChan c x s).chip = s.chip ∧
    (setChan c x s).time = s.time ∧ (setChan c x s).ports = s.ports ∧ (setChan c x s).lasers = s.lasers ∧
    (setChan c x s).att = s.att ∧ (setChan c x s).xlat = s.xlat ∧ (setChan c x s).trn = s.trn ∧
    (setChan c x s).home = s.home ∧ (setChan c x s).mov = s.mov ∧ (setChan c x s).sw = s.sw ∧
    (setChan c x s).alm = s.alm ∧ (setChan c x s).coll = s.coll ∧ (setChan c x s).arr = s.arr ∧
    (setChan c x s).ten = s.ten ∧ (setChan c x s).fw = s.fw ∧ (setChan c x s).pwr = s.pwr ∧
    (setChan c x s).fab = s.fab ∧ (setChan c x s).hlth = s.hlth ∧ (setChan c x s).hif.staging = s.hif.staging ∧
    (setChan c x s).hif.slots = s.hif.slots ∧ (setChan c x s).hif.handed = s.hif.handed ∧
    (setChan c x s).hif.orders = s.hif.orders ∧ (setChan c x s).hif.lastSlot = s.hif.lastSlot ∧
    (setChan c x s).hif.lastStat = s.hif.lastStat ∧ (setChan c x s).hif.vecs = s.hif.vecs ∧
    (setChan c x s).hif.rcAt = s.hif.rcAt ∧ (setChan c x s).hif.latches = s.hif.latches ∧
    (setChan c x s).hif.cxl = s.hif.cxl ∧ (setChan c x s).hif.werrOff = s.hif.werrOff ∧
    (setChan c x s).hif.werrSt = s.hif.werrSt ∧ (setChan c x s).hif.notices = s.hif.notices ∧
    (setChan c x s).hif.noticeLog = s.hif.noticeLog :=
  ⟨rfl, rfl, rfl, rfl, rfl, rfl, rfl, rfl, rfl, rfl, rfl, rfl, rfl, rfl, rfl, rfl, rfl, rfl, rfl, rfl, rfl, rfl, rfl,
    rfl, rfl, rfl, rfl, rfl, rfl, rfl, rfl, rfl, rfl, rfl, rfl, rfl, rfl⟩

@[simp] theorem modChan_frame (c : Nat) (f : Chanl → Chanl) (s : State) :
    (modChan c f s).pending = s.pending ∧ (modChan c f s).out = s.out ∧ (modChan c f s).fresh = s.fresh ∧
    (modChan c f s).regs = s.regs ∧ (modChan c f s).fuses = s.fuses ∧ (modChan c f s).chip = s.chip ∧
    (modChan c f s).time = s.time ∧ (modChan c f s).ports = s.ports ∧ (modChan c f s).lasers = s.lasers ∧
    (modChan c f s).att = s.att ∧ (modChan c f s).xlat = s.xlat ∧ (modChan c f s).trn = s.trn ∧
    (modChan c f s).home = s.home ∧ (modChan c f s).mov = s.mov ∧ (modChan c f s).sw = s.sw ∧
    (modChan c f s).alm = s.alm ∧ (modChan c f s).coll = s.coll ∧ (modChan c f s).arr = s.arr ∧
    (modChan c f s).ten = s.ten ∧ (modChan c f s).fw = s.fw ∧ (modChan c f s).pwr = s.pwr ∧
    (modChan c f s).fab = s.fab ∧ (modChan c f s).hlth = s.hlth ∧ (modChan c f s).hif.staging = s.hif.staging ∧
    (modChan c f s).hif.slots = s.hif.slots ∧ (modChan c f s).hif.handed = s.hif.handed ∧
    (modChan c f s).hif.orders = s.hif.orders ∧ (modChan c f s).hif.lastSlot = s.hif.lastSlot ∧
    (modChan c f s).hif.lastStat = s.hif.lastStat ∧ (modChan c f s).hif.vecs = s.hif.vecs ∧
    (modChan c f s).hif.rcAt = s.hif.rcAt ∧ (modChan c f s).hif.latches = s.hif.latches ∧
    (modChan c f s).hif.cxl = s.hif.cxl ∧ (modChan c f s).hif.werrOff = s.hif.werrOff ∧
    (modChan c f s).hif.werrSt = s.hif.werrSt ∧ (modChan c f s).hif.notices = s.hif.notices ∧
    (modChan c f s).hif.noticeLog = s.hif.noticeLog :=
  ⟨rfl, rfl, rfl, rfl, rfl, rfl, rfl, rfl, rfl, rfl, rfl, rfl, rfl, rfl, rfl, rfl, rfl, rfl, rfl, rfl, rfl, rfl, rfl,
    rfl, rfl, rfl, rfl, rfl, rfl, rfl, rfl, rfl, rfl, rfl, rfl, rfl, rfl⟩

@[simp] theorem setVec_frame (v : Nat) (x : IrqVec) (s : State) :
    (setVec v x s).pending = s.pending ∧ (setVec v x s).out = s.out ∧ (setVec v x s).fresh = s.fresh ∧
    (setVec v x s).regs = s.regs ∧ (setVec v x s).fuses = s.fuses ∧ (setVec v x s).chip = s.chip ∧
    (setVec v x s).time = s.time ∧ (setVec v x s).ports = s.ports ∧ (setVec v x s).lasers = s.lasers ∧
    (setVec v x s).att = s.att ∧ (setVec v x s).xlat = s.xlat ∧ (setVec v x s).trn = s.trn ∧
    (setVec v x s).home = s.home ∧ (setVec v x s).mov = s.mov ∧ (setVec v x s).sw = s.sw ∧
    (setVec v x s).alm = s.alm ∧ (setVec v x s).coll = s.coll ∧ (setVec v x s).arr = s.arr ∧
    (setVec v x s).ten = s.ten ∧ (setVec v x s).fw = s.fw ∧ (setVec v x s).pwr = s.pwr ∧ (setVec v x s).fab = s.fab ∧
    (setVec v x s).hlth = s.hlth ∧ (setVec v x s).hif.staging = s.hif.staging ∧
    (setVec v x s).hif.slots = s.hif.slots ∧ (setVec v x s).hif.handed = s.hif.handed ∧
    (setVec v x s).hif.orders = s.hif.orders ∧ (setVec v x s).hif.lastSlot = s.hif.lastSlot ∧
    (setVec v x s).hif.lastStat = s.hif.lastStat ∧ (setVec v x s).hif.chans = s.hif.chans ∧
    (setVec v x s).hif.rcAt = s.hif.rcAt ∧ (setVec v x s).hif.latches = s.hif.latches ∧
    (setVec v x s).hif.cxl = s.hif.cxl ∧ (setVec v x s).hif.werrOff = s.hif.werrOff ∧
    (setVec v x s).hif.werrSt = s.hif.werrSt ∧ (setVec v x s).hif.notices = s.hif.notices ∧
    (setVec v x s).hif.noticeLog = s.hif.noticeLog :=
  ⟨rfl, rfl, rfl, rfl, rfl, rfl, rfl, rfl, rfl, rfl, rfl, rfl, rfl, rfl, rfl, rfl, rfl, rfl, rfl, rfl, rfl, rfl, rfl,
    rfl, rfl, rfl, rfl, rfl, rfl, rfl, rfl, rfl, rfl, rfl, rfl, rfl, rfl⟩

@[simp] theorem setCtx_frame (c : Nat) (x : Ctx) (s : State) :
    (setCtx c x s).pending = s.pending ∧ (setCtx c x s).out = s.out ∧ (setCtx c x s).fresh = s.fresh ∧
    (setCtx c x s).regs = s.regs ∧ (setCtx c x s).fuses = s.fuses ∧ (setCtx c x s).chip = s.chip ∧
    (setCtx c x s).time = s.time ∧ (setCtx c x s).ports = s.ports ∧ (setCtx c x s).lasers = s.lasers ∧
    (setCtx c x s).att = s.att ∧ (setCtx c x s).xlat = s.xlat ∧ (setCtx c x s).trn = s.trn ∧
    (setCtx c x s).home = s.home ∧ (setCtx c x s).mov = s.mov ∧ (setCtx c x s).sw = s.sw ∧
    (setCtx c x s).alm = s.alm ∧ (setCtx c x s).arr = s.arr ∧ (setCtx c x s).ten = s.ten ∧ (setCtx c x s).fw = s.fw ∧
    (setCtx c x s).pwr = s.pwr ∧ (setCtx c x s).fab = s.fab ∧ (setCtx c x s).hif = s.hif ∧
    (setCtx c x s).hlth = s.hlth ∧ (setCtx c x s).coll.opens = s.coll.opens ∧
    (setCtx c x s).coll.frames = s.coll.frames ∧ (setCtx c x s).coll.writes = s.coll.writes :=
  ⟨rfl, rfl, rfl, rfl, rfl, rfl, rfl, rfl, rfl, rfl, rfl, rfl, rfl, rfl, rfl, rfl, rfl, rfl, rfl, rfl, rfl, rfl, rfl,
    rfl, rfl, rfl⟩

@[simp] theorem modCtx_frame (c : Nat) (f : Ctx → Ctx) (s : State) :
    (modCtx c f s).pending = s.pending ∧ (modCtx c f s).out = s.out ∧ (modCtx c f s).fresh = s.fresh ∧
    (modCtx c f s).regs = s.regs ∧ (modCtx c f s).fuses = s.fuses ∧ (modCtx c f s).chip = s.chip ∧
    (modCtx c f s).time = s.time ∧ (modCtx c f s).ports = s.ports ∧ (modCtx c f s).lasers = s.lasers ∧
    (modCtx c f s).att = s.att ∧ (modCtx c f s).xlat = s.xlat ∧ (modCtx c f s).trn = s.trn ∧
    (modCtx c f s).home = s.home ∧ (modCtx c f s).mov = s.mov ∧ (modCtx c f s).sw = s.sw ∧
    (modCtx c f s).alm = s.alm ∧ (modCtx c f s).arr = s.arr ∧ (modCtx c f s).ten = s.ten ∧ (modCtx c f s).fw = s.fw ∧
    (modCtx c f s).pwr = s.pwr ∧ (modCtx c f s).fab = s.fab ∧ (modCtx c f s).hif = s.hif ∧
    (modCtx c f s).hlth = s.hlth ∧ (modCtx c f s).coll.opens = s.coll.opens ∧
    (modCtx c f s).coll.frames = s.coll.frames ∧ (modCtx c f s).coll.writes = s.coll.writes :=
  ⟨rfl, rfl, rfl, rfl, rfl, rfl, rfl, rfl, rfl, rfl, rfl, rfl, rfl, rfl, rfl, rfl, rfl, rfl, rfl, rfl, rfl, rfl, rfl,
    rfl, rfl, rfl⟩

@[simp] theorem setTen_frame (n : Nat) (x : TenSlot) (s : State) :
    (setTen n x s).pending = s.pending ∧ (setTen n x s).out = s.out ∧ (setTen n x s).fresh = s.fresh ∧
    (setTen n x s).regs = s.regs ∧ (setTen n x s).fuses = s.fuses ∧ (setTen n x s).chip = s.chip ∧
    (setTen n x s).time = s.time ∧ (setTen n x s).ports = s.ports ∧ (setTen n x s).lasers = s.lasers ∧
    (setTen n x s).att = s.att ∧ (setTen n x s).xlat = s.xlat ∧ (setTen n x s).trn = s.trn ∧
    (setTen n x s).home = s.home ∧ (setTen n x s).mov = s.mov ∧ (setTen n x s).sw = s.sw ∧
    (setTen n x s).alm = s.alm ∧ (setTen n x s).coll = s.coll ∧ (setTen n x s).arr = s.arr ∧
    (setTen n x s).fw = s.fw ∧ (setTen n x s).pwr = s.pwr ∧ (setTen n x s).fab = s.fab ∧ (setTen n x s).hif = s.hif ∧
    (setTen n x s).hlth = s.hlth ∧ (setTen n x s).ten.shared = s.ten.shared ∧
    (setTen n x s).ten.slots = s.ten.slots ∧ (setTen n x s).ten.bind = s.ten.bind ∧
    (setTen n x s).ten.clean = s.ten.clean ∧ (setTen n x s).ten.released = s.ten.released ∧
    (setTen n x s).ten.keyGen = s.ten.keyGen ∧ (setTen n x s).ten.sysKey = s.ten.sysKey ∧
    (setTen n x s).ten.idReady = s.ten.idReady ∧ (setTen n x s).ten.debug = s.ten.debug ∧
    (setTen n x s).ten.scopes = s.ten.scopes ∧ (setTen n x s).ten.challenge = s.ten.challenge ∧
    (setTen n x s).ten.secretOpen = s.ten.secretOpen ∧ (setTen n x s).ten.tdmOn = s.ten.tdmOn :=
  ⟨rfl, rfl, rfl, rfl, rfl, rfl, rfl, rfl, rfl, rfl, rfl, rfl, rfl, rfl, rfl, rfl, rfl, rfl, rfl, rfl, rfl, rfl, rfl,
    rfl, rfl, rfl, rfl, rfl, rfl, rfl, rfl, rfl, rfl, rfl, rfl, rfl⟩

@[simp] theorem modTen_frame (n : Nat) (f : TenSlot → TenSlot) (s : State) :
    (modTen n f s).pending = s.pending ∧ (modTen n f s).out = s.out ∧ (modTen n f s).fresh = s.fresh ∧
    (modTen n f s).regs = s.regs ∧ (modTen n f s).fuses = s.fuses ∧ (modTen n f s).chip = s.chip ∧
    (modTen n f s).time = s.time ∧ (modTen n f s).ports = s.ports ∧ (modTen n f s).lasers = s.lasers ∧
    (modTen n f s).att = s.att ∧ (modTen n f s).xlat = s.xlat ∧ (modTen n f s).trn = s.trn ∧
    (modTen n f s).home = s.home ∧ (modTen n f s).mov = s.mov ∧ (modTen n f s).sw = s.sw ∧
    (modTen n f s).alm = s.alm ∧ (modTen n f s).coll = s.coll ∧ (modTen n f s).arr = s.arr ∧
    (modTen n f s).fw = s.fw ∧ (modTen n f s).pwr = s.pwr ∧ (modTen n f s).fab = s.fab ∧ (modTen n f s).hif = s.hif ∧
    (modTen n f s).hlth = s.hlth ∧ (modTen n f s).ten.shared = s.ten.shared ∧
    (modTen n f s).ten.slots = s.ten.slots ∧ (modTen n f s).ten.bind = s.ten.bind ∧
    (modTen n f s).ten.clean = s.ten.clean ∧ (modTen n f s).ten.released = s.ten.released ∧
    (modTen n f s).ten.keyGen = s.ten.keyGen ∧ (modTen n f s).ten.sysKey = s.ten.sysKey ∧
    (modTen n f s).ten.idReady = s.ten.idReady ∧ (modTen n f s).ten.debug = s.ten.debug ∧
    (modTen n f s).ten.scopes = s.ten.scopes ∧ (modTen n f s).ten.challenge = s.ten.challenge ∧
    (modTen n f s).ten.secretOpen = s.ten.secretOpen ∧ (modTen n f s).ten.tdmOn = s.ten.tdmOn :=
  ⟨rfl, rfl, rfl, rfl, rfl, rfl, rfl, rfl, rfl, rfl, rfl, rfl, rfl, rfl, rfl, rfl, rfl, rfl, rfl, rfl, rfl, rfl, rfl,
    rfl, rfl, rfl, rfl, rfl, rfl, rfl, rfl, rfl, rfl, rfl, rfl, rfl⟩

@[simp] theorem setEg_frame (e : Nat) (x : EgressQ) (s : State) :
    (setEg e x s).pending = s.pending ∧ (setEg e x s).out = s.out ∧ (setEg e x s).fresh = s.fresh ∧
    (setEg e x s).regs = s.regs ∧ (setEg e x s).fuses = s.fuses ∧ (setEg e x s).chip = s.chip ∧
    (setEg e x s).time = s.time ∧ (setEg e x s).ports = s.ports ∧ (setEg e x s).lasers = s.lasers ∧
    (setEg e x s).att = s.att ∧ (setEg e x s).xlat = s.xlat ∧ (setEg e x s).trn = s.trn ∧
    (setEg e x s).home = s.home ∧ (setEg e x s).mov = s.mov ∧ (setEg e x s).alm = s.alm ∧
    (setEg e x s).coll = s.coll ∧ (setEg e x s).arr = s.arr ∧ (setEg e x s).ten = s.ten ∧ (setEg e x s).fw = s.fw ∧
    (setEg e x s).pwr = s.pwr ∧ (setEg e x s).fab = s.fab ∧ (setEg e x s).hif = s.hif ∧ (setEg e x s).hlth = s.hlth ∧
    (setEg e x s).sw.wins = s.sw.wins ∧ (setEg e x s).sw.mirCnt = s.sw.mirCnt ∧
    (setEg e x s).sw.mirUse = s.sw.mirUse ∧ (setEg e x s).sw.mirRec = s.sw.mirRec ∧
    (setEg e x s).sw.mirNext = s.sw.mirNext ∧ (setEg e x s).sw.mirVis = s.sw.mirVis ∧
    (setEg e x s).sw.mirOpen = s.sw.mirOpen ∧ (setEg e x s).sw.mirWait = s.sw.mirWait ∧
    (setEg e x s).sw.residue = s.sw.residue ∧ (setEg e x s).sw.parked = s.sw.parked ∧ (setEg e x s).sw.lag = s.sw.lag :=
  ⟨rfl, rfl, rfl, rfl, rfl, rfl, rfl, rfl, rfl, rfl, rfl, rfl, rfl, rfl, rfl, rfl, rfl, rfl, rfl, rfl, rfl, rfl, rfl,
    rfl, rfl, rfl, rfl, rfl, rfl, rfl, rfl, rfl, rfl, rfl⟩

@[simp] theorem modEg_frame (e : Nat) (f : EgressQ → EgressQ) (s : State) :
    (modEg e f s).pending = s.pending ∧ (modEg e f s).out = s.out ∧ (modEg e f s).fresh = s.fresh ∧
    (modEg e f s).regs = s.regs ∧ (modEg e f s).fuses = s.fuses ∧ (modEg e f s).chip = s.chip ∧
    (modEg e f s).time = s.time ∧ (modEg e f s).ports = s.ports ∧ (modEg e f s).lasers = s.lasers ∧
    (modEg e f s).att = s.att ∧ (modEg e f s).xlat = s.xlat ∧ (modEg e f s).trn = s.trn ∧
    (modEg e f s).home = s.home ∧ (modEg e f s).mov = s.mov ∧ (modEg e f s).alm = s.alm ∧
    (modEg e f s).coll = s.coll ∧ (modEg e f s).arr = s.arr ∧ (modEg e f s).ten = s.ten ∧ (modEg e f s).fw = s.fw ∧
    (modEg e f s).pwr = s.pwr ∧ (modEg e f s).fab = s.fab ∧ (modEg e f s).hif = s.hif ∧ (modEg e f s).hlth = s.hlth ∧
    (modEg e f s).sw.wins = s.sw.wins ∧ (modEg e f s).sw.mirCnt = s.sw.mirCnt ∧
    (modEg e f s).sw.mirUse = s.sw.mirUse ∧ (modEg e f s).sw.mirRec = s.sw.mirRec ∧
    (modEg e f s).sw.mirNext = s.sw.mirNext ∧ (modEg e f s).sw.mirVis = s.sw.mirVis ∧
    (modEg e f s).sw.mirOpen = s.sw.mirOpen ∧ (modEg e f s).sw.mirWait = s.sw.mirWait ∧
    (modEg e f s).sw.residue = s.sw.residue ∧ (modEg e f s).sw.parked = s.sw.parked ∧ (modEg e f s).sw.lag = s.sw.lag :=
  ⟨rfl, rfl, rfl, rfl, rfl, rfl, rfl, rfl, rfl, rfl, rfl, rfl, rfl, rfl, rfl, rfl, rfl, rfl, rfl, rfl, rfl, rfl, rfl,
    rfl, rfl, rfl, rfl, rfl, rfl, rfl, rfl, rfl, rfl, rfl⟩

@[simp] theorem setCore_frame (n : Nat) (x : CoreSt) (s : State) :
    (setCore n x s).pending = s.pending ∧ (setCore n x s).out = s.out ∧ (setCore n x s).fresh = s.fresh ∧
    (setCore n x s).regs = s.regs ∧ (setCore n x s).fuses = s.fuses ∧ (setCore n x s).chip = s.chip ∧
    (setCore n x s).time = s.time ∧ (setCore n x s).ports = s.ports ∧ (setCore n x s).lasers = s.lasers ∧
    (setCore n x s).att = s.att ∧ (setCore n x s).xlat = s.xlat ∧ (setCore n x s).trn = s.trn ∧
    (setCore n x s).home = s.home ∧ (setCore n x s).mov = s.mov ∧ (setCore n x s).sw = s.sw ∧
    (setCore n x s).alm = s.alm ∧ (setCore n x s).coll = s.coll ∧ (setCore n x s).arr = s.arr ∧
    (setCore n x s).ten = s.ten ∧ (setCore n x s).pwr = s.pwr ∧ (setCore n x s).fab = s.fab ∧
    (setCore n x s).hif = s.hif ∧ (setCore n x s).hlth = s.hlth ∧ (setCore n x s).fw.flash = s.fw.flash ∧
    (setCore n x s).fw.booted = s.fw.booted ∧ (setCore n x s).fw.slotB = s.fw.slotB ∧
    (setCore n x s).fw.secB = s.fw.secB ∧ (setCore n x s).fw.running = s.fw.running ∧
    (setCore n x s).fw.secRun = s.fw.secRun ∧ (setCore n x s).fw.recovery = s.fw.recovery ∧
    (setCore n x s).fw.reason = s.fw.reason ∧ (setCore n x s).fw.session = s.fw.session ∧
    (setCore n x s).fw.recSeq = s.fw.recSeq ∧ (setCore n x s).fw.expiries = s.fw.expiries ∧
    (setCore n x s).fw.stage = s.fw.stage ∧ (setCore n x s).fw.actChan = s.fw.actChan ∧
    (setCore n x s).fw.actDone = s.fw.actDone ∧ (setCore n x s).fw.back = s.fw.back ∧
    (setCore n x s).fw.resetPending = s.fw.resetPending ∧ (setCore n x s).fw.staging = s.fw.staging ∧
    (setCore n x s).fw.agreed = s.fw.agreed ∧ (setCore n x s).fw.ledger = s.fw.ledger ∧
    (setCore n x s).fw.head = s.fw.head ∧ (setCore n x s).fw.exported = s.fw.exported ∧
    (setCore n x s).fw.cycles = s.fw.cycles ∧ (setCore n x s).fw.tpSec = s.fw.tpSec ∧
    (setCore n x s).fw.tpCnt = s.fw.tpCnt :=
  ⟨rfl, rfl, rfl, rfl, rfl, rfl, rfl, rfl, rfl, rfl, rfl, rfl, rfl, rfl, rfl, rfl, rfl, rfl, rfl, rfl, rfl, rfl, rfl,
    rfl, rfl, rfl, rfl, rfl, rfl, rfl, rfl, rfl, rfl, rfl, rfl, rfl, rfl, rfl, rfl, rfl, rfl, rfl, rfl, rfl, rfl,
    rfl, rfl⟩

@[simp] theorem modHif_frame (f : HostIf → HostIf) (s : State) :
    (modHif f s).pending = s.pending ∧ (modHif f s).out = s.out ∧ (modHif f s).fresh = s.fresh ∧
    (modHif f s).regs = s.regs ∧ (modHif f s).fuses = s.fuses ∧ (modHif f s).chip = s.chip ∧
    (modHif f s).time = s.time ∧ (modHif f s).ports = s.ports ∧ (modHif f s).lasers = s.lasers ∧
    (modHif f s).att = s.att ∧ (modHif f s).xlat = s.xlat ∧ (modHif f s).trn = s.trn ∧ (modHif f s).home = s.home ∧
    (modHif f s).mov = s.mov ∧ (modHif f s).sw = s.sw ∧ (modHif f s).alm = s.alm ∧ (modHif f s).coll = s.coll ∧
    (modHif f s).arr = s.arr ∧ (modHif f s).ten = s.ten ∧ (modHif f s).fw = s.fw ∧ (modHif f s).pwr = s.pwr ∧
    (modHif f s).fab = s.fab ∧ (modHif f s).hlth = s.hlth :=
  ⟨rfl, rfl, rfl, rfl, rfl, rfl, rfl, rfl, rfl, rfl, rfl, rfl, rfl, rfl, rfl, rfl, rfl, rfl, rfl, rfl, rfl, rfl, rfl⟩

@[simp] theorem setCmt_frame (n : Nat) (x : CmtSlot) (s : State) :
    (setCmt n x s).pending = s.pending ∧ (setCmt n x s).out = s.out ∧ (setCmt n x s).fresh = s.fresh ∧
    (setCmt n x s).regs = s.regs ∧ (setCmt n x s).fuses = s.fuses ∧ (setCmt n x s).chip = s.chip ∧
    (setCmt n x s).time = s.time ∧ (setCmt n x s).ports = s.ports ∧ (setCmt n x s).lasers = s.lasers ∧
    (setCmt n x s).att = s.att ∧ (setCmt n x s).xlat = s.xlat ∧ (setCmt n x s).trn = s.trn ∧
    (setCmt n x s).home = s.home ∧ (setCmt n x s).mov = s.mov ∧ (setCmt n x s).sw = s.sw ∧
    (setCmt n x s).alm = s.alm ∧ (setCmt n x s).coll = s.coll ∧ (setCmt n x s).arr = s.arr ∧
    (setCmt n x s).ten = s.ten ∧ (setCmt n x s).fw = s.fw ∧ (setCmt n x s).pwr = s.pwr ∧ (setCmt n x s).fab = s.fab ∧
    (setCmt n x s).hlth = s.hlth ∧ (setCmt n x s).hif.staging = s.hif.staging ∧
    (setCmt n x s).hif.handed = s.hif.handed ∧ (setCmt n x s).hif.orders = s.hif.orders ∧
    (setCmt n x s).hif.lastSlot = s.hif.lastSlot ∧ (setCmt n x s).hif.lastStat = s.hif.lastStat ∧
    (setCmt n x s).hif.chans = s.hif.chans ∧ (setCmt n x s).hif.vecs = s.hif.vecs ∧
    (setCmt n x s).hif.rcAt = s.hif.rcAt ∧ (setCmt n x s).hif.latches = s.hif.latches ∧
    (setCmt n x s).hif.cxl = s.hif.cxl ∧ (setCmt n x s).hif.werrOff = s.hif.werrOff ∧
    (setCmt n x s).hif.werrSt = s.hif.werrSt ∧ (setCmt n x s).hif.notices = s.hif.notices ∧
    (setCmt n x s).hif.noticeLog = s.hif.noticeLog :=
  ⟨rfl, rfl, rfl, rfl, rfl, rfl, rfl, rfl, rfl, rfl, rfl, rfl, rfl, rfl, rfl, rfl, rfl, rfl, rfl, rfl, rfl, rfl, rfl,
    rfl, rfl, rfl, rfl, rfl, rfl, rfl, rfl, rfl, rfl, rfl, rfl, rfl, rfl⟩

@[simp] theorem modFlash_frame (f : Flash → Flash) (s : State) :
    (modFlash f s).pending = s.pending ∧ (modFlash f s).out = s.out ∧ (modFlash f s).fresh = s.fresh ∧
    (modFlash f s).regs = s.regs ∧ (modFlash f s).fuses = s.fuses ∧ (modFlash f s).chip = s.chip ∧
    (modFlash f s).time = s.time ∧ (modFlash f s).ports = s.ports ∧ (modFlash f s).lasers = s.lasers ∧
    (modFlash f s).att = s.att ∧ (modFlash f s).xlat = s.xlat ∧ (modFlash f s).trn = s.trn ∧
    (modFlash f s).home = s.home ∧ (modFlash f s).mov = s.mov ∧ (modFlash f s).sw = s.sw ∧
    (modFlash f s).alm = s.alm ∧ (modFlash f s).coll = s.coll ∧ (modFlash f s).arr = s.arr ∧
    (modFlash f s).ten = s.ten ∧ (modFlash f s).pwr = s.pwr ∧ (modFlash f s).fab = s.fab ∧
    (modFlash f s).hif = s.hif ∧ (modFlash f s).hlth = s.hlth ∧ (modFlash f s).fw.booted = s.fw.booted ∧
    (modFlash f s).fw.slotB = s.fw.slotB ∧ (modFlash f s).fw.secB = s.fw.secB ∧
    (modFlash f s).fw.running = s.fw.running ∧ (modFlash f s).fw.secRun = s.fw.secRun ∧
    (modFlash f s).fw.recovery = s.fw.recovery ∧ (modFlash f s).fw.reason = s.fw.reason ∧
    (modFlash f s).fw.session = s.fw.session ∧ (modFlash f s).fw.recSeq = s.fw.recSeq ∧
    (modFlash f s).fw.cores = s.fw.cores ∧ (modFlash f s).fw.expiries = s.fw.expiries ∧
    (modFlash f s).fw.stage = s.fw.stage ∧ (modFlash f s).fw.actChan = s.fw.actChan ∧
    (modFlash f s).fw.actDone = s.fw.actDone ∧ (modFlash f s).fw.back = s.fw.back ∧
    (modFlash f s).fw.resetPending = s.fw.resetPending ∧ (modFlash f s).fw.staging = s.fw.staging ∧
    (modFlash f s).fw.agreed = s.fw.agreed ∧ (modFlash f s).fw.ledger = s.fw.ledger ∧
    (modFlash f s).fw.head = s.fw.head ∧ (modFlash f s).fw.exported = s.fw.exported ∧
    (modFlash f s).fw.cycles = s.fw.cycles ∧ (modFlash f s).fw.tpSec = s.fw.tpSec ∧
    (modFlash f s).fw.tpCnt = s.fw.tpCnt :=
  ⟨rfl, rfl, rfl, rfl, rfl, rfl, rfl, rfl, rfl, rfl, rfl, rfl, rfl, rfl, rfl, rfl, rfl, rfl, rfl, rfl, rfl, rfl, rfl,
    rfl, rfl, rfl, rfl, rfl, rfl, rfl, rfl, rfl, rfl, rfl, rfl, rfl, rfl, rfl, rfl, rfl, rfl, rfl, rfl, rfl, rfl,
    rfl, rfl⟩

@[simp] theorem modPwr_frame (f : Power → Power) (s : State) :
    (modPwr f s).pending = s.pending ∧ (modPwr f s).out = s.out ∧ (modPwr f s).fresh = s.fresh ∧
    (modPwr f s).regs = s.regs ∧ (modPwr f s).fuses = s.fuses ∧ (modPwr f s).chip = s.chip ∧
    (modPwr f s).time = s.time ∧ (modPwr f s).ports = s.ports ∧ (modPwr f s).lasers = s.lasers ∧
    (modPwr f s).att = s.att ∧ (modPwr f s).xlat = s.xlat ∧ (modPwr f s).trn = s.trn ∧ (modPwr f s).home = s.home ∧
    (modPwr f s).mov = s.mov ∧ (modPwr f s).sw = s.sw ∧ (modPwr f s).alm = s.alm ∧ (modPwr f s).coll = s.coll ∧
    (modPwr f s).arr = s.arr ∧ (modPwr f s).ten = s.ten ∧ (modPwr f s).fw = s.fw ∧ (modPwr f s).fab = s.fab ∧
    (modPwr f s).hif = s.hif ∧ (modPwr f s).hlth = s.hlth :=
  ⟨rfl, rfl, rfl, rfl, rfl, rfl, rfl, rfl, rfl, rfl, rfl, rfl, rfl, rfl, rfl, rfl, rfl, rfl, rfl, rfl, rfl, rfl, rfl⟩

@[simp] theorem modTime_frame (f : TimeSt → TimeSt) (s : State) :
    (modTime f s).pending = s.pending ∧ (modTime f s).out = s.out ∧ (modTime f s).fresh = s.fresh ∧
    (modTime f s).regs = s.regs ∧ (modTime f s).fuses = s.fuses ∧ (modTime f s).chip = s.chip ∧
    (modTime f s).ports = s.ports ∧ (modTime f s).lasers = s.lasers ∧ (modTime f s).att = s.att ∧
    (modTime f s).xlat = s.xlat ∧ (modTime f s).trn = s.trn ∧ (modTime f s).home = s.home ∧
    (modTime f s).mov = s.mov ∧ (modTime f s).sw = s.sw ∧ (modTime f s).alm = s.alm ∧ (modTime f s).coll = s.coll ∧
    (modTime f s).arr = s.arr ∧ (modTime f s).ten = s.ten ∧ (modTime f s).fw = s.fw ∧ (modTime f s).pwr = s.pwr ∧
    (modTime f s).fab = s.fab ∧ (modTime f s).hif = s.hif ∧ (modTime f s).hlth = s.hlth :=
  ⟨rfl, rfl, rfl, rfl, rfl, rfl, rfl, rfl, rfl, rfl, rfl, rfl, rfl, rfl, rfl, rfl, rfl, rfl, rfl, rfl, rfl, rfl, rfl⟩

@[simp] theorem setCache_frame (i : Nat) (es : List CacheEntry) (s : State) :
    (setCache i es s).pending = s.pending ∧ (setCache i es s).out = s.out ∧ (setCache i es s).fresh = s.fresh ∧
    (setCache i es s).regs = s.regs ∧ (setCache i es s).fuses = s.fuses ∧ (setCache i es s).chip = s.chip ∧
    (setCache i es s).time = s.time ∧ (setCache i es s).ports = s.ports ∧ (setCache i es s).lasers = s.lasers ∧
    (setCache i es s).att = s.att ∧ (setCache i es s).trn = s.trn ∧ (setCache i es s).home = s.home ∧
    (setCache i es s).mov = s.mov ∧ (setCache i es s).sw = s.sw ∧ (setCache i es s).alm = s.alm ∧
    (setCache i es s).coll = s.coll ∧ (setCache i es s).arr = s.arr ∧ (setCache i es s).ten = s.ten ∧
    (setCache i es s).fw = s.fw ∧ (setCache i es s).pwr = s.pwr ∧ (setCache i es s).fab = s.fab ∧
    (setCache i es s).hif = s.hif ∧ (setCache i es s).hlth = s.hlth ∧ (setCache i es s).xlat.misses = s.xlat.misses ∧
    (setCache i es s).xlat.rgnCache = s.xlat.rgnCache ∧ (setCache i es s).xlat.rgnMiss = s.xlat.rgnMiss ∧
    (setCache i es s).xlat.epoch = s.xlat.epoch ∧ (setCache i es s).xlat.changes = s.xlat.changes :=
  ⟨rfl, rfl, rfl, rfl, rfl, rfl, rfl, rfl, rfl, rfl, rfl, rfl, rfl, rfl, rfl, rfl, rfl, rfl, rfl, rfl, rfl, rfl, rfl,
    rfl, rfl, rfl, rfl, rfl⟩

@[simp] theorem setMisses_frame (c : Nat) (ms : List Miss) (s : State) :
    (setMisses c ms s).pending = s.pending ∧ (setMisses c ms s).out = s.out ∧ (setMisses c ms s).fresh = s.fresh ∧
    (setMisses c ms s).regs = s.regs ∧ (setMisses c ms s).fuses = s.fuses ∧ (setMisses c ms s).chip = s.chip ∧
    (setMisses c ms s).time = s.time ∧ (setMisses c ms s).ports = s.ports ∧ (setMisses c ms s).lasers = s.lasers ∧
    (setMisses c ms s).att = s.att ∧ (setMisses c ms s).trn = s.trn ∧ (setMisses c ms s).home = s.home ∧
    (setMisses c ms s).mov = s.mov ∧ (setMisses c ms s).sw = s.sw ∧ (setMisses c ms s).alm = s.alm ∧
    (setMisses c ms s).coll = s.coll ∧ (setMisses c ms s).arr = s.arr ∧ (setMisses c ms s).ten = s.ten ∧
    (setMisses c ms s).fw = s.fw ∧ (setMisses c ms s).pwr = s.pwr ∧ (setMisses c ms s).fab = s.fab ∧
    (setMisses c ms s).hif = s.hif ∧ (setMisses c ms s).hlth = s.hlth ∧
    (setMisses c ms s).xlat.cache = s.xlat.cache ∧ (setMisses c ms s).xlat.rgnCache = s.xlat.rgnCache ∧
    (setMisses c ms s).xlat.rgnMiss = s.xlat.rgnMiss ∧ (setMisses c ms s).xlat.epoch = s.xlat.epoch ∧
    (setMisses c ms s).xlat.changes = s.xlat.changes :=
  ⟨rfl, rfl, rfl, rfl, rfl, rfl, rfl, rfl, rfl, rfl, rfl, rfl, rfl, rfl, rfl, rfl, rfl, rfl, rfl, rfl, rfl, rfl, rfl,
    rfl, rfl, rfl, rfl, rfl⟩

@[simp] theorem dropChange_frame (id : Nat) (s : State) :
    (dropChange id s).pending = s.pending ∧ (dropChange id s).out = s.out ∧ (dropChange id s).fresh = s.fresh ∧
    (dropChange id s).regs = s.regs ∧ (dropChange id s).fuses = s.fuses ∧ (dropChange id s).chip = s.chip ∧
    (dropChange id s).time = s.time ∧ (dropChange id s).ports = s.ports ∧ (dropChange id s).lasers = s.lasers ∧
    (dropChange id s).att = s.att ∧ (dropChange id s).trn = s.trn ∧ (dropChange id s).home = s.home ∧
    (dropChange id s).mov = s.mov ∧ (dropChange id s).sw = s.sw ∧ (dropChange id s).alm = s.alm ∧
    (dropChange id s).coll = s.coll ∧ (dropChange id s).arr = s.arr ∧ (dropChange id s).ten = s.ten ∧
    (dropChange id s).fw = s.fw ∧ (dropChange id s).pwr = s.pwr ∧ (dropChange id s).fab = s.fab ∧
    (dropChange id s).hif = s.hif ∧ (dropChange id s).hlth = s.hlth ∧ (dropChange id s).xlat.cache = s.xlat.cache ∧
    (dropChange id s).xlat.misses = s.xlat.misses ∧ (dropChange id s).xlat.rgnCache = s.xlat.rgnCache ∧
    (dropChange id s).xlat.rgnMiss = s.xlat.rgnMiss ∧ (dropChange id s).xlat.epoch = s.xlat.epoch :=
  ⟨rfl, rfl, rfl, rfl, rfl, rfl, rfl, rfl, rfl, rfl, rfl, rfl, rfl, rfl, rfl, rfl, rfl, rfl, rfl, rfl, rfl, rfl, rfl,
    rfl, rfl, rfl, rfl, rfl⟩

@[simp] theorem modSend_frame (num : Nat) (f : SendCtx → SendCtx) (s : State) :
    (modSend num f s).pending = s.pending ∧ (modSend num f s).out = s.out ∧ (modSend num f s).fresh = s.fresh ∧
    (modSend num f s).regs = s.regs ∧ (modSend num f s).fuses = s.fuses ∧ (modSend num f s).chip = s.chip ∧
    (modSend num f s).time = s.time ∧ (modSend num f s).ports = s.ports ∧ (modSend num f s).lasers = s.lasers ∧
    (modSend num f s).att = s.att ∧ (modSend num f s).xlat = s.xlat ∧ (modSend num f s).home = s.home ∧
    (modSend num f s).mov = s.mov ∧ (modSend num f s).sw = s.sw ∧ (modSend num f s).alm = s.alm ∧
    (modSend num f s).coll = s.coll ∧ (modSend num f s).arr = s.arr ∧ (modSend num f s).ten = s.ten ∧
    (modSend num f s).fw = s.fw ∧ (modSend num f s).pwr = s.pwr ∧ (modSend num f s).fab = s.fab ∧
    (modSend num f s).hif = s.hif ∧ (modSend num f s).hlth = s.hlth ∧ (modSend num f s).trn.recv = s.trn.recv ∧
    (modSend num f s).trn.reqs = s.trn.reqs ∧ (modSend num f s).trn.nextReq = s.trn.nextReq ∧
    (modSend num f s).trn.ipsn = s.trn.ipsn ∧ (modSend num f s).trn.quar = s.trn.quar ∧
    (modSend num f s).trn.stamp = s.trn.stamp ∧ (modSend num f s).trn.ended = s.trn.ended ∧
    (modSend num f s).trn.openAt = s.trn.openAt ∧ (modSend num f s).trn.formatCnt = s.trn.formatCnt :=
  ⟨rfl, rfl, rfl, rfl, rfl, rfl, rfl, rfl, rfl, rfl, rfl, rfl, rfl, rfl, rfl, rfl, rfl, rfl, rfl, rfl, rfl, rfl, rfl,
    rfl, rfl, rfl, rfl, rfl, rfl, rfl, rfl, rfl⟩

@[simp] theorem dropSend_frame (num : Nat) (s : State) :
    (dropSend num s).pending = s.pending ∧ (dropSend num s).out = s.out ∧ (dropSend num s).fresh = s.fresh ∧
    (dropSend num s).regs = s.regs ∧ (dropSend num s).fuses = s.fuses ∧ (dropSend num s).chip = s.chip ∧
    (dropSend num s).time = s.time ∧ (dropSend num s).ports = s.ports ∧ (dropSend num s).lasers = s.lasers ∧
    (dropSend num s).att = s.att ∧ (dropSend num s).xlat = s.xlat ∧ (dropSend num s).home = s.home ∧
    (dropSend num s).mov = s.mov ∧ (dropSend num s).sw = s.sw ∧ (dropSend num s).alm = s.alm ∧
    (dropSend num s).coll = s.coll ∧ (dropSend num s).arr = s.arr ∧ (dropSend num s).ten = s.ten ∧
    (dropSend num s).fw = s.fw ∧ (dropSend num s).pwr = s.pwr ∧ (dropSend num s).fab = s.fab ∧
    (dropSend num s).hif = s.hif ∧ (dropSend num s).hlth = s.hlth ∧ (dropSend num s).trn.recv = s.trn.recv ∧
    (dropSend num s).trn.reqs = s.trn.reqs ∧ (dropSend num s).trn.nextReq = s.trn.nextReq ∧
    (dropSend num s).trn.ipsn = s.trn.ipsn ∧ (dropSend num s).trn.quar = s.trn.quar ∧
    (dropSend num s).trn.stamp = s.trn.stamp ∧ (dropSend num s).trn.ended = s.trn.ended ∧
    (dropSend num s).trn.openAt = s.trn.openAt ∧ (dropSend num s).trn.formatCnt = s.trn.formatCnt :=
  ⟨rfl, rfl, rfl, rfl, rfl, rfl, rfl, rfl, rfl, rfl, rfl, rfl, rfl, rfl, rfl, rfl, rfl, rfl, rfl, rfl, rfl, rfl, rfl,
    rfl, rfl, rfl, rfl, rfl, rfl, rfl, rfl, rfl⟩

@[simp] theorem modReq_frame (id : Nat) (f : FabReq → FabReq) (s : State) :
    (modReq id f s).pending = s.pending ∧ (modReq id f s).out = s.out ∧ (modReq id f s).fresh = s.fresh ∧
    (modReq id f s).regs = s.regs ∧ (modReq id f s).fuses = s.fuses ∧ (modReq id f s).chip = s.chip ∧
    (modReq id f s).time = s.time ∧ (modReq id f s).ports = s.ports ∧ (modReq id f s).lasers = s.lasers ∧
    (modReq id f s).att = s.att ∧ (modReq id f s).xlat = s.xlat ∧ (modReq id f s).home = s.home ∧
    (modReq id f s).mov = s.mov ∧ (modReq id f s).sw = s.sw ∧ (modReq id f s).alm = s.alm ∧
    (modReq id f s).coll = s.coll ∧ (modReq id f s).arr = s.arr ∧ (modReq id f s).ten = s.ten ∧
    (modReq id f s).fw = s.fw ∧ (modReq id f s).pwr = s.pwr ∧ (modReq id f s).fab = s.fab ∧
    (modReq id f s).hif = s.hif ∧ (modReq id f s).hlth = s.hlth ∧ (modReq id f s).trn.send = s.trn.send ∧
    (modReq id f s).trn.recv = s.trn.recv ∧ (modReq id f s).trn.nextReq = s.trn.nextReq ∧
    (modReq id f s).trn.ipsn = s.trn.ipsn ∧ (modReq id f s).trn.quar = s.trn.quar ∧
    (modReq id f s).trn.stamp = s.trn.stamp ∧ (modReq id f s).trn.ended = s.trn.ended ∧
    (modReq id f s).trn.openAt = s.trn.openAt ∧ (modReq id f s).trn.formatCnt = s.trn.formatCnt :=
  ⟨rfl, rfl, rfl, rfl, rfl, rfl, rfl, rfl, rfl, rfl, rfl, rfl, rfl, rfl, rfl, rfl, rfl, rfl, rfl, rfl, rfl, rfl, rfl,
    rfl, rfl, rfl, rfl, rfl, rfl, rfl, rfl, rfl⟩

@[simp] theorem modRecv_frame (sid : StreamId) (psn : BitVec 32) (f : RecvCtx → RecvCtx) (s : State) :
    (modRecv sid psn f s).pending = s.pending ∧ (modRecv sid psn f s).out = s.out ∧
    (modRecv sid psn f s).fresh = s.fresh ∧ (modRecv sid psn f s).regs = s.regs ∧
    (modRecv sid psn f s).fuses = s.fuses ∧ (modRecv sid psn f s).chip = s.chip ∧
    (modRecv sid psn f s).time = s.time ∧ (modRecv sid psn f s).ports = s.ports ∧
    (modRecv sid psn f s).lasers = s.lasers ∧ (modRecv sid psn f s).att = s.att ∧
    (modRecv sid psn f s).xlat = s.xlat ∧ (modRecv sid psn f s).home = s.home ∧ (modRecv sid psn f s).mov = s.mov ∧
    (modRecv sid psn f s).sw = s.sw ∧ (modRecv sid psn f s).alm = s.alm ∧ (modRecv sid psn f s).coll = s.coll ∧
    (modRecv sid psn f s).arr = s.arr ∧ (modRecv sid psn f s).ten = s.ten ∧ (modRecv sid psn f s).fw = s.fw ∧
    (modRecv sid psn f s).pwr = s.pwr ∧ (modRecv sid psn f s).fab = s.fab ∧ (modRecv sid psn f s).hif = s.hif ∧
    (modRecv sid psn f s).hlth = s.hlth ∧ (modRecv sid psn f s).trn.send = s.trn.send ∧
    (modRecv sid psn f s).trn.reqs = s.trn.reqs ∧ (modRecv sid psn f s).trn.nextReq = s.trn.nextReq ∧
    (modRecv sid psn f s).trn.ipsn = s.trn.ipsn ∧ (modRecv sid psn f s).trn.quar = s.trn.quar ∧
    (modRecv sid psn f s).trn.stamp = s.trn.stamp ∧ (modRecv sid psn f s).trn.ended = s.trn.ended ∧
    (modRecv sid psn f s).trn.openAt = s.trn.openAt ∧ (modRecv sid psn f s).trn.formatCnt = s.trn.formatCnt :=
  ⟨rfl, rfl, rfl, rfl, rfl, rfl, rfl, rfl, rfl, rfl, rfl, rfl, rfl, rfl, rfl, rfl, rfl, rfl, rfl, rfl, rfl, rfl, rfl,
    rfl, rfl, rfl, rfl, rfl, rfl, rfl, rfl, rfl⟩

@[simp] theorem dropRecv_frame (sid : StreamId) (psn : BitVec 32) (s : State) :
    (dropRecv sid psn s).pending = s.pending ∧ (dropRecv sid psn s).out = s.out ∧
    (dropRecv sid psn s).fresh = s.fresh ∧ (dropRecv sid psn s).regs = s.regs ∧
    (dropRecv sid psn s).fuses = s.fuses ∧ (dropRecv sid psn s).chip = s.chip ∧ (dropRecv sid psn s).time = s.time ∧
    (dropRecv sid psn s).ports = s.ports ∧ (dropRecv sid psn s).lasers = s.lasers ∧
    (dropRecv sid psn s).att = s.att ∧ (dropRecv sid psn s).xlat = s.xlat ∧ (dropRecv sid psn s).home = s.home ∧
    (dropRecv sid psn s).mov = s.mov ∧ (dropRecv sid psn s).sw = s.sw ∧ (dropRecv sid psn s).alm = s.alm ∧
    (dropRecv sid psn s).coll = s.coll ∧ (dropRecv sid psn s).arr = s.arr ∧ (dropRecv sid psn s).ten = s.ten ∧
    (dropRecv sid psn s).fw = s.fw ∧ (dropRecv sid psn s).pwr = s.pwr ∧ (dropRecv sid psn s).fab = s.fab ∧
    (dropRecv sid psn s).hif = s.hif ∧ (dropRecv sid psn s).hlth = s.hlth ∧
    (dropRecv sid psn s).trn.send = s.trn.send ∧ (dropRecv sid psn s).trn.reqs = s.trn.reqs ∧
    (dropRecv sid psn s).trn.nextReq = s.trn.nextReq ∧ (dropRecv sid psn s).trn.ipsn = s.trn.ipsn ∧
    (dropRecv sid psn s).trn.quar = s.trn.quar ∧ (dropRecv sid psn s).trn.stamp = s.trn.stamp ∧
    (dropRecv sid psn s).trn.ended = s.trn.ended ∧ (dropRecv sid psn s).trn.openAt = s.trn.openAt ∧
    (dropRecv sid psn s).trn.formatCnt = s.trn.formatCnt :=
  ⟨rfl, rfl, rfl, rfl, rfl, rfl, rfl, rfl, rfl, rfl, rfl, rfl, rfl, rfl, rfl, rfl, rfl, rfl, rfl, rfl, rfl, rfl, rfl,
    rfl, rfl, rfl, rfl, rfl, rfl, rfl, rfl, rfl⟩

@[simp] theorem modAcc_frame (id : Nat) (f : Access → Access) (s : State) :
    (modAcc id f s).pending = s.pending ∧ (modAcc id f s).out = s.out ∧ (modAcc id f s).fresh = s.fresh ∧
    (modAcc id f s).regs = s.regs ∧ (modAcc id f s).fuses = s.fuses ∧ (modAcc id f s).chip = s.chip ∧
    (modAcc id f s).time = s.time ∧ (modAcc id f s).ports = s.ports ∧ (modAcc id f s).lasers = s.lasers ∧
    (modAcc id f s).att = s.att ∧ (modAcc id f s).xlat = s.xlat ∧ (modAcc id f s).trn = s.trn ∧
    (modAcc id f s).mov = s.mov ∧ (modAcc id f s).sw = s.sw ∧ (modAcc id f s).alm = s.alm ∧
    (modAcc id f s).coll = s.coll ∧ (modAcc id f s).arr = s.arr ∧ (modAcc id f s).ten = s.ten ∧
    (modAcc id f s).fw = s.fw ∧ (modAcc id f s).pwr = s.pwr ∧ (modAcc id f s).fab = s.fab ∧
    (modAcc id f s).hif = s.hif ∧ (modAcc id f s).hlth = s.hlth ∧ (modAcc id f s).home.nextAcc = s.home.nextAcc ∧
    (modAcc id f s).home.hot = s.home.hot ∧ (modAcc id f s).home.queue = s.home.queue ∧
    (modAcc id f s).home.comb = s.home.comb ∧ (modAcc id f s).home.nextComb = s.home.nextComb ∧
    (modAcc id f s).home.host = s.home.host ∧ (modAcc id f s).home.stk = s.home.stk ∧
    (modAcc id f s).home.anx = s.home.anx ∧ (modAcc id f s).home.poison = s.home.poison ∧
    (modAcc id f s).home.pcUe = s.home.pcUe ∧ (modAcc id f s).home.pcOut = s.home.pcOut ∧
    (modAcc id f s).home.failed = s.home.failed :=
  ⟨rfl, rfl, rfl, rfl, rfl, rfl, rfl, rfl, rfl, rfl, rfl, rfl, rfl, rfl, rfl, rfl, rfl, rfl, rfl, rfl, rfl, rfl, rfl,
    rfl, rfl, rfl, rfl, rfl, rfl, rfl, rfl, rfl, rfl, rfl, rfl⟩

@[simp] theorem dropAcc_frame (id : Nat) (s : State) :
    (dropAcc id s).pending = s.pending ∧ (dropAcc id s).out = s.out ∧ (dropAcc id s).fresh = s.fresh ∧
    (dropAcc id s).regs = s.regs ∧ (dropAcc id s).fuses = s.fuses ∧ (dropAcc id s).chip = s.chip ∧
    (dropAcc id s).time = s.time ∧ (dropAcc id s).ports = s.ports ∧ (dropAcc id s).lasers = s.lasers ∧
    (dropAcc id s).att = s.att ∧ (dropAcc id s).xlat = s.xlat ∧ (dropAcc id s).trn = s.trn ∧
    (dropAcc id s).mov = s.mov ∧ (dropAcc id s).sw = s.sw ∧ (dropAcc id s).alm = s.alm ∧
    (dropAcc id s).coll = s.coll ∧ (dropAcc id s).arr = s.arr ∧ (dropAcc id s).ten = s.ten ∧
    (dropAcc id s).fw = s.fw ∧ (dropAcc id s).pwr = s.pwr ∧ (dropAcc id s).fab = s.fab ∧ (dropAcc id s).hif = s.hif ∧
    (dropAcc id s).hlth = s.hlth ∧ (dropAcc id s).home.nextAcc = s.home.nextAcc ∧
    (dropAcc id s).home.hot = s.home.hot ∧ (dropAcc id s).home.queue = s.home.queue ∧
    (dropAcc id s).home.comb = s.home.comb ∧ (dropAcc id s).home.nextComb = s.home.nextComb ∧
    (dropAcc id s).home.host = s.home.host ∧ (dropAcc id s).home.stk = s.home.stk ∧
    (dropAcc id s).home.anx = s.home.anx ∧ (dropAcc id s).home.poison = s.home.poison ∧
    (dropAcc id s).home.pcUe = s.home.pcUe ∧ (dropAcc id s).home.pcOut = s.home.pcOut ∧
    (dropAcc id s).home.failed = s.home.failed :=
  ⟨rfl, rfl, rfl, rfl, rfl, rfl, rfl, rfl, rfl, rfl, rfl, rfl, rfl, rfl, rfl, rfl, rfl, rfl, rfl, rfl, rfl, rfl, rfl,
    rfl, rfl, rfl, rfl, rfl, rfl, rfl, rfl, rfl, rfl, rfl, rfl⟩

@[simp] theorem modLine_frame (h line : Nat) (f : HotLine → HotLine) (s : State) :
    (modLine h line f s).pending = s.pending ∧ (modLine h line f s).out = s.out ∧
    (modLine h line f s).fresh = s.fresh ∧ (modLine h line f s).regs = s.regs ∧
    (modLine h line f s).fuses = s.fuses ∧ (modLine h line f s).chip = s.chip ∧ (modLine h line f s).time = s.time ∧
    (modLine h line f s).ports = s.ports ∧ (modLine h line f s).lasers = s.lasers ∧
    (modLine h line f s).att = s.att ∧ (modLine h line f s).xlat = s.xlat ∧ (modLine h line f s).trn = s.trn ∧
    (modLine h line f s).mov = s.mov ∧ (modLine h line f s).sw = s.sw ∧ (modLine h line f s).alm = s.alm ∧
    (modLine h line f s).coll = s.coll ∧ (modLine h line f s).arr = s.arr ∧ (modLine h line f s).ten = s.ten ∧
    (modLine h line f s).fw = s.fw ∧ (modLine h line f s).pwr = s.pwr ∧ (modLine h line f s).fab = s.fab ∧
    (modLine h line f s).hif = s.hif ∧ (modLine h line f s).hlth = s.hlth ∧
    (modLine h line f s).home.accesses = s.home.accesses ∧ (modLine h line f s).home.nextAcc = s.home.nextAcc ∧
    (modLine h line f s).home.queue = s.home.queue ∧ (modLine h line f s).home.comb = s.home.comb ∧
    (modLine h line f s).home.nextComb = s.home.nextComb ∧ (modLine h line f s).home.host = s.home.host ∧
    (modLine h line f s).home.stk = s.home.stk ∧ (modLine h line f s).home.anx = s.home.anx ∧
    (modLine h line f s).home.poison = s.home.poison ∧ (modLine h line f s).home.pcUe = s.home.pcUe ∧
    (modLine h line f s).home.pcOut = s.home.pcOut ∧ (modLine h line f s).home.failed = s.home.failed :=
  ⟨rfl, rfl, rfl, rfl, rfl, rfl, rfl, rfl, rfl, rfl, rfl, rfl, rfl, rfl, rfl, rfl, rfl, rfl, rfl, rfl, rfl, rfl, rfl,
    rfl, rfl, rfl, rfl, rfl, rfl, rfl, rfl, rfl, rfl, rfl, rfl⟩

@[simp] theorem modMove_frame (id : Nat) (f : Move → Move) (s : State) :
    (modMove id f s).pending = s.pending ∧ (modMove id f s).out = s.out ∧ (modMove id f s).fresh = s.fresh ∧
    (modMove id f s).regs = s.regs ∧ (modMove id f s).fuses = s.fuses ∧ (modMove id f s).chip = s.chip ∧
    (modMove id f s).time = s.time ∧ (modMove id f s).ports = s.ports ∧ (modMove id f s).lasers = s.lasers ∧
    (modMove id f s).att = s.att ∧ (modMove id f s).xlat = s.xlat ∧ (modMove id f s).trn = s.trn ∧
    (modMove id f s).home = s.home ∧ (modMove id f s).sw = s.sw ∧ (modMove id f s).alm = s.alm ∧
    (modMove id f s).coll = s.coll ∧ (modMove id f s).arr = s.arr ∧ (modMove id f s).ten = s.ten ∧
    (modMove id f s).fw = s.fw ∧ (modMove id f s).pwr = s.pwr ∧ (modMove id f s).fab = s.fab ∧
    (modMove id f s).hif = s.hif ∧ (modMove id f s).hlth = s.hlth ∧ (modMove id f s).mov.nextMove = s.mov.nextMove ∧
    (modMove id f s).mov.lastTen = s.mov.lastTen ∧ (modMove id f s).mov.faults = s.mov.faults ∧
    (modMove id f s).mov.holding = s.mov.holding ∧ (modMove id f s).mov.arriving = s.mov.arriving ∧
    (modMove id f s).mov.oldPages = s.mov.oldPages ∧ (modMove id f s).mov.held = s.mov.held ∧
    (modMove id f s).mov.arrWait = s.mov.arrWait ∧ (modMove id f s).mov.measWait = s.mov.measWait ∧
    (modMove id f s).mov.owed = s.mov.owed ∧ (modMove id f s).mov.drains = s.mov.drains ∧
    (modMove id f s).mov.measured = s.mov.measured ∧ (modMove id f s).mov.hostDone = s.mov.hostDone ∧
    (modMove id f s).mov.doneDesc = s.mov.doneDesc :=
  ⟨rfl, rfl, rfl, rfl, rfl, rfl, rfl, rfl, rfl, rfl, rfl, rfl, rfl, rfl, rfl, rfl, rfl, rfl, rfl, rfl, rfl, rfl, rfl,
    rfl, rfl, rfl, rfl, rfl, rfl, rfl, rfl, rfl, rfl, rfl, rfl, rfl, rfl⟩

@[simp] theorem modAlm_frame (job : BitVec 32) (f : Almanac → Almanac) (s : State) :
    (modAlm job f s).pending = s.pending ∧ (modAlm job f s).out = s.out ∧ (modAlm job f s).fresh = s.fresh ∧
    (modAlm job f s).regs = s.regs ∧ (modAlm job f s).fuses = s.fuses ∧ (modAlm job f s).chip = s.chip ∧
    (modAlm job f s).time = s.time ∧ (modAlm job f s).ports = s.ports ∧ (modAlm job f s).lasers = s.lasers ∧
    (modAlm job f s).att = s.att ∧ (modAlm job f s).xlat = s.xlat ∧ (modAlm job f s).trn = s.trn ∧
    (modAlm job f s).home = s.home ∧ (modAlm job f s).mov = s.mov ∧ (modAlm job f s).sw = s.sw ∧
    (modAlm job f s).coll = s.coll ∧ (modAlm job f s).arr = s.arr ∧ (modAlm job f s).ten = s.ten ∧
    (modAlm job f s).fw = s.fw ∧ (modAlm job f s).pwr = s.pwr ∧ (modAlm job f s).fab = s.fab ∧
    (modAlm job f s).hif = s.hif ∧ (modAlm job f s).hlth = s.hlth :=
  ⟨rfl, rfl, rfl, rfl, rfl, rfl, rfl, rfl, rfl, rfl, rfl, rfl, rfl, rfl, rfl, rfl, rfl, rfl, rfl, rfl, rfl, rfl, rfl⟩

@[simp] theorem setBind_frame (p : Nat) (t : Option (BitVec 12)) (s : State) :
    (setBind p t s).pending = s.pending ∧ (setBind p t s).out = s.out ∧ (setBind p t s).fresh = s.fresh ∧
    (setBind p t s).regs = s.regs ∧ (setBind p t s).fuses = s.fuses ∧ (setBind p t s).chip = s.chip ∧
    (setBind p t s).time = s.time ∧ (setBind p t s).ports = s.ports ∧ (setBind p t s).lasers = s.lasers ∧
    (setBind p t s).att = s.att ∧ (setBind p t s).xlat = s.xlat ∧ (setBind p t s).trn = s.trn ∧
    (setBind p t s).home = s.home ∧ (setBind p t s).mov = s.mov ∧ (setBind p t s).sw = s.sw ∧
    (setBind p t s).alm = s.alm ∧ (setBind p t s).coll = s.coll ∧ (setBind p t s).arr = s.arr ∧
    (setBind p t s).fw = s.fw ∧ (setBind p t s).pwr = s.pwr ∧ (setBind p t s).fab = s.fab ∧
    (setBind p t s).hif = s.hif ∧ (setBind p t s).hlth = s.hlth ∧ (setBind p t s).ten.shared = s.ten.shared ∧
    (setBind p t s).ten.slots = s.ten.slots ∧ (setBind p t s).ten.ten = s.ten.ten ∧
    (setBind p t s).ten.clean = s.ten.clean ∧ (setBind p t s).ten.released = s.ten.released ∧
    (setBind p t s).ten.keyGen = s.ten.keyGen ∧ (setBind p t s).ten.sysKey = s.ten.sysKey ∧
    (setBind p t s).ten.idReady = s.ten.idReady ∧ (setBind p t s).ten.debug = s.ten.debug ∧
    (setBind p t s).ten.scopes = s.ten.scopes ∧ (setBind p t s).ten.challenge = s.ten.challenge ∧
    (setBind p t s).ten.secretOpen = s.ten.secretOpen ∧ (setBind p t s).ten.tdmOn = s.ten.tdmOn :=
  ⟨rfl, rfl, rfl, rfl, rfl, rfl, rfl, rfl, rfl, rfl, rfl, rfl, rfl, rfl, rfl, rfl, rfl, rfl, rfl, rfl, rfl, rfl, rfl,
    rfl, rfl, rfl, rfl, rfl, rfl, rfl, rfl, rfl, rfl, rfl, rfl, rfl⟩

@[simp] theorem setMismatch_frame (s : State) :
    (setMismatch s).pending = s.pending ∧ (setMismatch s).out = s.out ∧ (setMismatch s).fresh = s.fresh ∧
    (setMismatch s).regs = s.regs ∧ (setMismatch s).fuses = s.fuses ∧ (setMismatch s).chip = s.chip ∧
    (setMismatch s).time = s.time ∧ (setMismatch s).ports = s.ports ∧ (setMismatch s).lasers = s.lasers ∧
    (setMismatch s).att = s.att ∧ (setMismatch s).xlat = s.xlat ∧ (setMismatch s).trn = s.trn ∧
    (setMismatch s).home = s.home ∧ (setMismatch s).mov = s.mov ∧ (setMismatch s).sw = s.sw ∧
    (setMismatch s).alm = s.alm ∧ (setMismatch s).coll = s.coll ∧ (setMismatch s).arr = s.arr ∧
    (setMismatch s).ten = s.ten ∧ (setMismatch s).fw = s.fw ∧ (setMismatch s).pwr = s.pwr ∧
    (setMismatch s).hif = s.hif ∧ (setMismatch s).hlth = s.hlth ∧ (setMismatch s).fab.state = s.fab.state ∧
    (setMismatch s).fab.joined = s.fab.joined ∧ (setMismatch s).fab.cause = s.fab.cause ∧
    (setMismatch s).fab.degraded = s.fab.degraded ∧ (setMismatch s).fab.transit = s.fab.transit ∧
    (setMismatch s).fab.domain = s.fab.domain ∧ (setMismatch s).fab.rack = s.fab.rack ∧
    (setMismatch s).fab.plane = s.fab.plane ∧ (setMismatch s).fab.nodeV = s.fab.nodeV ∧
    (setMismatch s).fab.modes = s.fab.modes ∧ (setMismatch s).fab.ordFifo = s.fab.ordFifo ∧
    (setMismatch s).fab.ordFp = s.fab.ordFp ∧ (setMismatch s).fab.ordTen = s.fab.ordTen ∧
    (setMismatch s).fab.cabling = s.fab.cabling ∧ (setMismatch s).fab.collector = s.fab.collector ∧
    (setMismatch s).fab.catDigest = s.fab.catDigest ∧ (setMismatch s).fab.catalogue = s.fab.catalogue ∧
    (setMismatch s).fab.stkTrained = s.fab.stkTrained ∧ (setMismatch s).fab.anxTrained = s.fab.anxTrained ∧
    (setMismatch s).fab.db = s.fab.db ∧ (setMismatch s).fab.advSeq = s.fab.advSeq ∧
    (setMismatch s).fab.settled = s.fab.settled ∧ (setMismatch s).fab.firstUp = s.fab.firstUp ∧
    (setMismatch s).fab.routed = s.fab.routed ∧ (setMismatch s).fab.routes = s.fab.routes ∧
    (setMismatch s).fab.deadLinks = s.fab.deadLinks :=
  ⟨rfl, rfl, rfl, rfl, rfl, rfl, rfl, rfl, rfl, rfl, rfl, rfl, rfl, rfl, rfl, rfl, rfl, rfl, rfl, rfl, rfl, rfl, rfl,
    rfl, rfl, rfl, rfl, rfl, rfl, rfl, rfl, rfl, rfl, rfl, rfl, rfl, rfl, rfl, rfl, rfl, rfl, rfl, rfl, rfl, rfl,
    rfl, rfl, rfl, rfl⟩

@[simp] theorem dropOpen_frame (p id : Nat) (s : State) :
    (dropOpen p id s).pending = s.pending ∧ (dropOpen p id s).out = s.out ∧ (dropOpen p id s).fresh = s.fresh ∧
    (dropOpen p id s).regs = s.regs ∧ (dropOpen p id s).fuses = s.fuses ∧ (dropOpen p id s).chip = s.chip ∧
    (dropOpen p id s).time = s.time ∧ (dropOpen p id s).ports = s.ports ∧ (dropOpen p id s).lasers = s.lasers ∧
    (dropOpen p id s).att = s.att ∧ (dropOpen p id s).xlat = s.xlat ∧ (dropOpen p id s).trn = s.trn ∧
    (dropOpen p id s).home = s.home ∧ (dropOpen p id s).mov = s.mov ∧ (dropOpen p id s).sw = s.sw ∧
    (dropOpen p id s).alm = s.alm ∧ (dropOpen p id s).arr = s.arr ∧ (dropOpen p id s).ten = s.ten ∧
    (dropOpen p id s).fw = s.fw ∧ (dropOpen p id s).pwr = s.pwr ∧ (dropOpen p id s).fab = s.fab ∧
    (dropOpen p id s).hif = s.hif ∧ (dropOpen p id s).hlth = s.hlth ∧ (dropOpen p id s).coll.ctxs = s.coll.ctxs ∧
    (dropOpen p id s).coll.frames = s.coll.frames ∧ (dropOpen p id s).coll.writes = s.coll.writes :=
  ⟨rfl, rfl, rfl, rfl, rfl, rfl, rfl, rfl, rfl, rfl, rfl, rfl, rfl, rfl, rfl, rfl, rfl, rfl, rfl, rfl, rfl, rfl, rfl,
    rfl, rfl, rfl⟩

@[simp] theorem modOut_frame (p id : Nat) (f : OutReq → OutReq) (s : State) :
    (modOut p id f s).pending = s.pending ∧ (modOut p id f s).out = s.out ∧ (modOut p id f s).fresh = s.fresh ∧
    (modOut p id f s).regs = s.regs ∧ (modOut p id f s).fuses = s.fuses ∧ (modOut p id f s).chip = s.chip ∧
    (modOut p id f s).time = s.time ∧ (modOut p id f s).ports = s.ports ∧ (modOut p id f s).lasers = s.lasers ∧
    (modOut p id f s).xlat = s.xlat ∧ (modOut p id f s).trn = s.trn ∧ (modOut p id f s).home = s.home ∧
    (modOut p id f s).mov = s.mov ∧ (modOut p id f s).sw = s.sw ∧ (modOut p id f s).alm = s.alm ∧
    (modOut p id f s).coll = s.coll ∧ (modOut p id f s).arr = s.arr ∧ (modOut p id f s).ten = s.ten ∧
    (modOut p id f s).fw = s.fw ∧ (modOut p id f s).pwr = s.pwr ∧ (modOut p id f s).fab = s.fab ∧
    (modOut p id f s).hif = s.hif ∧ (modOut p id f s).hlth = s.hlth :=
  ⟨rfl, rfl, rfl, rfl, rfl, rfl, rfl, rfl, rfl, rfl, rfl, rfl, rfl, rfl, rfl, rfl, rfl, rfl, rfl, rfl, rfl, rfl, rfl⟩

@[simp] theorem modMember_frame (c i : Nat) (f : MemberSt → MemberSt) (s : State) :
    (modMember c i f s).pending = s.pending ∧ (modMember c i f s).out = s.out ∧ (modMember c i f s).fresh = s.fresh ∧
    (modMember c i f s).regs = s.regs ∧ (modMember c i f s).fuses = s.fuses ∧ (modMember c i f s).chip = s.chip ∧
    (modMember c i f s).time = s.time ∧ (modMember c i f s).ports = s.ports ∧ (modMember c i f s).lasers = s.lasers ∧
    (modMember c i f s).att = s.att ∧ (modMember c i f s).xlat = s.xlat ∧ (modMember c i f s).trn = s.trn ∧
    (modMember c i f s).home = s.home ∧ (modMember c i f s).mov = s.mov ∧ (modMember c i f s).sw = s.sw ∧
    (modMember c i f s).alm = s.alm ∧ (modMember c i f s).arr = s.arr ∧ (modMember c i f s).ten = s.ten ∧
    (modMember c i f s).fw = s.fw ∧ (modMember c i f s).pwr = s.pwr ∧ (modMember c i f s).fab = s.fab ∧
    (modMember c i f s).hif = s.hif ∧ (modMember c i f s).hlth = s.hlth ∧
    (modMember c i f s).coll.opens = s.coll.opens ∧ (modMember c i f s).coll.frames = s.coll.frames ∧
    (modMember c i f s).coll.writes = s.coll.writes :=
  ⟨rfl, rfl, rfl, rfl, rfl, rfl, rfl, rfl, rfl, rfl, rfl, rfl, rfl, rfl, rfl, rfl, rfl, rfl, rfl, rfl, rfl, rfl, rfl,
    rfl, rfl, rfl⟩

@[simp] theorem tpNote_frame (tp : Nat) (s : State) :
    (tpNote tp s).pending = s.pending ∧ (tpNote tp s).out = s.out ∧ (tpNote tp s).fresh = s.fresh ∧
    (tpNote tp s).regs = s.regs ∧ (tpNote tp s).fuses = s.fuses ∧ (tpNote tp s).chip = s.chip ∧
    (tpNote tp s).time = s.time ∧ (tpNote tp s).ports = s.ports ∧ (tpNote tp s).lasers = s.lasers ∧
    (tpNote tp s).att = s.att ∧ (tpNote tp s).xlat = s.xlat ∧ (tpNote tp s).trn = s.trn ∧
    (tpNote tp s).home = s.home ∧ (tpNote tp s).mov = s.mov ∧ (tpNote tp s).sw = s.sw ∧ (tpNote tp s).alm = s.alm ∧
    (tpNote tp s).coll = s.coll ∧ (tpNote tp s).arr = s.arr ∧ (tpNote tp s).ten = s.ten ∧ (tpNote tp s).pwr = s.pwr ∧
    (tpNote tp s).fab = s.fab ∧ (tpNote tp s).hif = s.hif ∧ (tpNote tp s).hlth = s.hlth ∧
    (tpNote tp s).fw.flash = s.fw.flash ∧ (tpNote tp s).fw.booted = s.fw.booted ∧
    (tpNote tp s).fw.slotB = s.fw.slotB ∧ (tpNote tp s).fw.secB = s.fw.secB ∧
    (tpNote tp s).fw.running = s.fw.running ∧ (tpNote tp s).fw.secRun = s.fw.secRun ∧
    (tpNote tp s).fw.recovery = s.fw.recovery ∧ (tpNote tp s).fw.reason = s.fw.reason ∧
    (tpNote tp s).fw.session = s.fw.session ∧ (tpNote tp s).fw.recSeq = s.fw.recSeq ∧
    (tpNote tp s).fw.cores = s.fw.cores ∧ (tpNote tp s).fw.expiries = s.fw.expiries ∧
    (tpNote tp s).fw.stage = s.fw.stage ∧ (tpNote tp s).fw.actChan = s.fw.actChan ∧
    (tpNote tp s).fw.actDone = s.fw.actDone ∧ (tpNote tp s).fw.back = s.fw.back ∧
    (tpNote tp s).fw.resetPending = s.fw.resetPending ∧ (tpNote tp s).fw.staging = s.fw.staging ∧
    (tpNote tp s).fw.agreed = s.fw.agreed ∧ (tpNote tp s).fw.ledger = s.fw.ledger ∧
    (tpNote tp s).fw.head = s.fw.head ∧ (tpNote tp s).fw.exported = s.fw.exported ∧
    (tpNote tp s).fw.cycles = s.fw.cycles :=
  ⟨rfl, rfl, rfl, rfl, rfl, rfl, rfl, rfl, rfl, rfl, rfl, rfl, rfl, rfl, rfl, rfl, rfl, rfl, rfl, rfl, rfl, rfl, rfl,
    rfl, rfl, rfl, rfl, rfl, rfl, rfl, rfl, rfl, rfl, rfl, rfl, rfl, rfl, rfl, rfl, rfl, rfl, rfl, rfl, rfl, rfl, rfl⟩

@[simp] theorem advance_frame (t : Tick) (s : State) :
    (advance t s).pending = s.pending ∧ (advance t s).out = s.out ∧ (advance t s).fresh = s.fresh ∧
    (advance t s).regs = s.regs ∧ (advance t s).fuses = s.fuses ∧ (advance t s).chip = s.chip ∧
    (advance t s).ports = s.ports ∧ (advance t s).lasers = s.lasers ∧ (advance t s).att = s.att ∧
    (advance t s).xlat = s.xlat ∧ (advance t s).trn = s.trn ∧ (advance t s).home = s.home ∧
    (advance t s).mov = s.mov ∧ (advance t s).sw = s.sw ∧ (advance t s).alm = s.alm ∧ (advance t s).coll = s.coll ∧
    (advance t s).arr = s.arr ∧ (advance t s).ten = s.ten ∧ (advance t s).fw = s.fw ∧ (advance t s).pwr = s.pwr ∧
    (advance t s).fab = s.fab ∧ (advance t s).hif = s.hif ∧ (advance t s).hlth = s.hlth := by
  unfold advance; split <;> simp

/-! ### What an update writes -/

@[simp] theorem emit_out (e : Emit) (s : State) : (emit e s).out = s.out ++ [e] := rfl
@[simp] theorem emits_out (es : List Emit) (s : State) : (emits es s).out = s.out ++ es := rfl

/-! ### Reads after writes -/

theorem word_setWord_same (off : Nat) (v : Word) (s : State) : word (setWord off v s) off = v := by
  simp [word, setWord]

theorem word_setWord_ne {off o : Nat} (h : o ≠ off) (v : Word) (s : State) : word (setWord off v s) o = word s o := by
  simp only [word, setWord]; exact tget_tput_ne _ _ _ _ h

theorem word_congr {s t : State} (h : t.regs = s.regs) (off : Nat) : word t off = word s off := by simp [word, h]

@[simp] theorem sess_setSess (p : Nat) (x : Session) (s : State) : sess (setSess p x s) p = x := by simp [sess, setSess]
theorem sess_setSess_ne {p q : Nat} (h : q ≠ p) (x : Session) (s : State) : sess (setSess p x s) q = sess s q := by
  simp only [sess, setSess]; exact tget_tput_ne _ _ _ _ h
@[simp] theorem sess_modSess (p : Nat) (f : Session → Session) (s : State) : sess (modSess p f s) p = f (sess s p) := by
  simp [modSess]
theorem sess_congr {s t : State} (h : t.att = s.att) (p : Nat) : sess t p = sess s p := by simp [sess, h]

@[simp] theorem portSt_setPort (p : Nat) (x : PortSt) (s : State) : portSt (setPort p x s) p = x := by simp [portSt, setPort]
theorem portSt_setPort_ne {p q : Nat} (h : q ≠ p) (x : PortSt) (s : State) : portSt (setPort p x s) q = portSt s q := by
  simp only [portSt, setPort]; exact tget_tput_ne _ _ _ _ h
@[simp] theorem portSt_modPort (p : Nat) (f : PortSt → PortSt) (s : State) : portSt (modPort p f s) p = f (portSt s p) := by
  simp [modPort]
theorem portSt_congr {s t : State} (h : t.ports = s.ports) (p : Nat) : portSt t p = portSt s p := by simp [portSt, h]

@[simp] theorem chan_setChan (c : Nat) (x : Chanl) (s : State) : chan (setChan c x s) c = x := by simp [chan, setChan]
theorem chan_setChan_ne {c d : Nat} (h : d ≠ c) (x : Chanl) (s : State) : chan (setChan c x s) d = chan s d := by
  simp only [chan, setChan]; exact tget_tput_ne _ _ _ _ h
@[simp] theorem chan_modChan (c : Nat) (f : Chanl → Chanl) (s : State) : chan (modChan c f s) c = f (chan s c) := by
  simp [modChan]
theorem chan_congr {s t : State} (h : t.hif.chans = s.hif.chans) (c : Nat) : chan t c = chan s c := by simp [chan, h]

@[simp] theorem vecOf_setVec (v : Nat) (x : IrqVec) (s : State) : vecOf (setVec v x s) v = x := by simp [vecOf, setVec]
@[simp] theorem ctxOf_setCtx (c : Nat) (x : Ctx) (s : State) : ctxOf (setCtx c x s) c = x := by simp [ctxOf, setCtx]
theorem ctxOf_setCtx_ne {c d : Nat} (h : d ≠ c) (x : Ctx) (s : State) : ctxOf (setCtx c x s) d = ctxOf s d := by
  simp only [ctxOf, setCtx]; exact tget_tput_ne _ _ _ _ h
@[simp] theorem ctxOf_modCtx (c : Nat) (f : Ctx → Ctx) (s : State) : ctxOf (modCtx c f s) c = f (ctxOf s c) := by simp [modCtx]
theorem ctxOf_congr {s t : State} (h : t.coll.ctxs = s.coll.ctxs) (c : Nat) : ctxOf t c = ctxOf s c := by simp [ctxOf, h]

@[simp] theorem tenSlot_setTen (n : Nat) (x : TenSlot) (s : State) : tenSlot (setTen n x s) n = x := by simp [tenSlot, setTen]
@[simp] theorem tenSlot_modTen (n : Nat) (f : TenSlot → TenSlot) (s : State) : tenSlot (modTen n f s) n = f (tenSlot s n) := by
  simp [modTen]
@[simp] theorem egOf_setEg (e : Nat) (x : EgressQ) (s : State) : egOf (setEg e x s) e = x := by simp [egOf, setEg]
@[simp] theorem egOf_modEg (e : Nat) (f : EgressQ → EgressQ) (s : State) : egOf (modEg e f s) e = f (egOf s e) := by simp [modEg]
@[simp] theorem coreSt_setCore (n : Nat) (x : CoreSt) (s : State) : coreSt (setCore n x s) n = x := by simp [coreSt, setCore]
@[simp] theorem cmtSlot_setCmt (n : Nat) (x : CmtSlot) (s : State) : cmtSlot (setCmt n x s) n = x := by
  simp [cmtSlot, setCmt, modHif]
theorem cmtSlot_setCmt_ne {n m : Nat} (h : m ≠ n) (x : CmtSlot) (s : State) : cmtSlot (setCmt n x s) m = cmtSlot s m := by
  simp only [cmtSlot, setCmt, modHif]; exact tget_tput_ne _ _ _ _ h
@[simp] theorem cacheWays_setCache (i : Nat) (es : List CacheEntry) (s : State) : cacheWays (setCache i es s) i = es := by
  simp [cacheWays, setCache]
theorem cacheWays_setCache_ne {i j : Nat} (h : j ≠ i) (es : List CacheEntry) (s : State) :
    cacheWays (setCache i es s) j = cacheWays s j := by
  simp only [cacheWays, setCache]; exact tget_tput_ne _ _ _ _ h
@[simp] theorem missesOf_setMisses (c : Nat) (ms : List Miss) (s : State) : missesOf (setMisses c ms s) c = ms := by
  simp [missesOf, setMisses]

/-! ### Repeated and conditional changes -/

/-- What every change of a list keeps, all of them keep. -/
theorem each_induct {α : Type} {P : State → Prop} {f : α → State → State} :
    ∀ (xs : List α) {s : State}, P s → (∀ x ∈ xs, ∀ t, P t → P (f x t)) → P (each xs f s)
  | [], _, h, _ => h
  | x :: xs, s, h, hf => each_induct xs (hf x (by simp) s h) (fun y hy t ht => hf y (by simp [hy]) t ht)

/-- A part that every change of a list leaves as it was is as it was. -/
theorem each_same {α β : Type} (g : State → β) {f : α → State → State} (xs : List α) (s : State)
    (h : ∀ x ∈ xs, ∀ t, g (f x t) = g t) : g (each xs f s) = g s :=
  each_induct (P := fun t => g t = g s) xs rfl (fun x hx t ht => (h x hx t).trans ht)

@[simp] theorem each_empty {α : Type} (f : α → State → State) (s : State) : each [] f s = s := rfl
@[simp] theorem each_one {α : Type} (x : α) (f : α → State → State) (s : State) : each [x] f s = f x s := rfl
@[simp] theorem whenS_true (f : State → State) (s : State) : whenS true f s = f s := rfl
@[simp] theorem whenS_false (f : State → State) (s : State) : whenS false f s = s := rfl

theorem whenS_same {β : Type} (g : State → β) {c : Bool} {f : State → State} {s : State} (h : g (f s) = g s) :
    g (whenS c f s) = g s := by cases c <;> simp [h]

end Sys2Proof.Machine
end

