-- ==== Sys2Proof/Laws/Events.lean ====
section
/-!
SUPPORT. What counting, events, the Ledger, interrupt messages and notices leave as they were: everything but registers,
health windows, vectors, the Ledger, the count of free values, and what is put out; and that they only ever put out more.
-/

namespace Sys2Proof.Machine
open Sys2Proof

@[simp] theorem dmaWrite_frame (a : Nat) (bs : Bytes) (s : State) :
    (dmaWrite a bs s).pending = s.pending ∧ (dmaWrite a bs s).fresh = s.fresh ∧ (dmaWrite a bs s).regs = s.regs ∧
    (dmaWrite a bs s).fuses = s.fuses ∧ (dmaWrite a bs s).chip = s.chip ∧ (dmaWrite a bs s).time = s.time ∧
    (dmaWrite a bs s).ports = s.ports ∧ (dmaWrite a bs s).lasers = s.lasers ∧ (dmaWrite a bs s).att = s.att ∧
    (dmaWrite a bs s).xlat = s.xlat ∧ (dmaWrite a bs s).trn = s.trn ∧ (dmaWrite a bs s).home = s.home ∧
    (dmaWrite a bs s).mov = s.mov ∧ (dmaWrite a bs s).sw = s.sw ∧ (dmaWrite a bs s).alm = s.alm ∧
    (dmaWrite a bs s).coll = s.coll ∧ (dmaWrite a bs s).arr = s.arr ∧ (dmaWrite a bs s).ten = s.ten ∧
    (dmaWrite a bs s).fw = s.fw ∧ (dmaWrite a bs s).pwr = s.pwr ∧ (dmaWrite a bs s).fab = s.fab ∧
    (dmaWrite a bs s).hif = s.hif ∧ (dmaWrite a bs s).hlth = s.hlth := by
  unfold dmaWrite; split <;> simp

@[simp] theorem bumpBy_frame (c : Cnt) (n : Nat) (s : State) :
    (bumpBy c n s).pending = s.pending ∧ (bumpBy c n s).out = s.out ∧ (bumpBy c n s).fresh = s.fresh ∧
    (bumpBy c n s).fuses = s.fuses ∧ (bumpBy c n s).chip = s.chip ∧ (bumpBy c n s).time = s.time ∧
    (bumpBy c n s).ports = s.ports ∧ (bumpBy c n s).lasers = s.lasers ∧ (bumpBy c n s).att = s.att ∧
    (bumpBy c n s).xlat = s.xlat ∧ (bumpBy c n s).trn = s.trn ∧ (bumpBy c n s).home = s.home ∧
    (bumpBy c n s).mov = s.mov ∧ (bumpBy c n s).sw = s.sw ∧ (bumpBy c n s).alm = s.alm ∧
    (bumpBy c n s).coll = s.coll ∧ (bumpBy c n s).arr = s.arr ∧ (bumpBy c n s).ten = s.ten ∧
    (bumpBy c n s).fw = s.fw ∧ (bumpBy c n s).pwr = s.pwr ∧ (bumpBy c n s).fab = s.fab ∧ (bumpBy c n s).hif = s.hif := by
  unfold bumpBy; dsimp only; split <;> simp

@[simp] theorem bump_frame (c : Cnt) (s : State) :
    (bump c s).pending = s.pending ∧ (bump c s).out = s.out ∧ (bump c s).fresh = s.fresh ∧
    (bump c s).fuses = s.fuses ∧ (bump c s).chip = s.chip ∧ (bump c s).time = s.time ∧ (bump c s).ports = s.ports ∧
    (bump c s).lasers = s.lasers ∧ (bump c s).att = s.att ∧ (bump c s).xlat = s.xlat ∧ (bump c s).trn = s.trn ∧
    (bump c s).home = s.home ∧ (bump c s).mov = s.mov ∧ (bump c s).sw = s.sw ∧ (bump c s).alm = s.alm ∧
    (bump c s).coll = s.coll ∧ (bump c s).arr = s.arr ∧ (bump c s).ten = s.ten ∧ (bump c s).fw = s.fw ∧
    (bump c s).pwr = s.pwr ∧ (bump c s).fab = s.fab ∧ (bump c s).hif = s.hif := by
  simp [bump]

@[simp] theorem peakTo_frame (c : Cnt) (v : Nat) (s : State) :
    (peakTo c v s).pending = s.pending ∧ (peakTo c v s).out = s.out ∧ (peakTo c v s).fresh = s.fresh ∧
    (peakTo c v s).fuses = s.fuses ∧ (peakTo c v s).chip = s.chip ∧ (peakTo c v s).time = s.time ∧
    (peakTo c v s).ports = s.ports ∧ (peakTo c v s).lasers = s.lasers ∧ (peakTo c v s).att = s.att ∧
    (peakTo c v s).xlat = s.xlat ∧ (peakTo c v s).trn = s.trn ∧ (peakTo c v s).home = s.home ∧
    (peakTo c v s).mov = s.mov ∧ (peakTo c v s).sw = s.sw ∧ (peakTo c v s).alm = s.alm ∧
    (peakTo c v s).coll = s.coll ∧ (peakTo c v s).arr = s.arr ∧ (peakTo c v s).ten = s.ten ∧
    (peakTo c v s).fw = s.fw ∧ (peakTo c v s).pwr = s.pwr ∧ (peakTo c v s).fab = s.fab ∧ (peakTo c v s).hif = s.hif ∧
    (peakTo c v s).hlth = s.hlth := by
  unfold peakTo; dsimp only; split <;> simp

@[simp] theorem sendVec_frame (v : Nat) (s : State) :
    (sendVec v s).pending = s.pending ∧ (sendVec v s).fresh = s.fresh ∧ (sendVec v s).regs = s.regs ∧
    (sendVec v s).fuses = s.fuses ∧ (sendVec v s).chip = s.chip ∧ (sendVec v s).time = s.time ∧
    (sendVec v s).ports = s.ports ∧ (sendVec v s).lasers = s.lasers ∧ (sendVec v s).att = s.att ∧
    (sendVec v s).xlat = s.xlat ∧ (sendVec v s).trn = s.trn ∧ (sendVec v s).home = s.home ∧
    (sendVec v s).mov = s.mov ∧ (sendVec v s).sw = s.sw ∧ (sendVec v s).alm = s.alm ∧ (sendVec v s).coll = s.coll ∧
    (sendVec v s).arr = s.arr ∧ (sendVec v s).ten = s.ten ∧ (sendVec v s).fw = s.fw ∧ (sendVec v s).pwr = s.pwr ∧
    (sendVec v s).fab = s.fab ∧ (sendVec v s).hlth = s.hlth ∧ (sendVec v s).hif.staging = s.hif.staging ∧
    (sendVec v s).hif.slots = s.hif.slots ∧ (sendVec v s).hif.handed = s.hif.handed ∧
    (sendVec v s).hif.orders = s.hif.orders ∧ (sendVec v s).hif.lastSlot = s.hif.lastSlot ∧
    (sendVec v s).hif.lastStat = s.hif.lastStat ∧ (sendVec v s).hif.chans = s.hif.chans ∧
    (sendVec v s).hif.rcAt = s.hif.rcAt ∧ (sendVec v s).hif.latches = s.hif.latches ∧
    (sendVec v s).hif.cxl = s.hif.cxl ∧ (sendVec v s).hif.werrOff = s.hif.werrOff ∧
    (sendVec v s).hif.werrSt = s.hif.werrSt ∧ (sendVec v s).hif.notices = s.hif.notices ∧
    (sendVec v s).hif.noticeLog = s.hif.noticeLog := by
  unfold sendVec; dsimp only; split <;> simp

@[simp] theorem riseVec_frame (v : Nat) (s : State) :
    (riseVec v s).pending = s.pending ∧ (riseVec v s).fresh = s.fresh ∧ (riseVec v s).regs = s.regs ∧
    (riseVec v s).fuses = s.fuses ∧ (riseVec v s).chip = s.chip ∧ (riseVec v s).time = s.time ∧
    (riseVec v s).ports = s.ports ∧ (riseVec v s).lasers = s.lasers ∧ (riseVec v s).att = s.att ∧
    (riseVec v s).xlat = s.xlat ∧ (riseVec v s).trn = s.trn ∧ (riseVec v s).home = s.home ∧
    (riseVec v s).mov = s.mov ∧ (riseVec v s).sw = s.sw ∧ (riseVec v s).alm = s.alm ∧ (riseVec v s).coll = s.coll ∧
    (riseVec v s).arr = s.arr ∧ (riseVec v s).ten = s.ten ∧ (riseVec v s).fw = s.fw ∧ (riseVec v s).pwr = s.pwr ∧
    (riseVec v s).fab = s.fab ∧ (riseVec v s).hlth = s.hlth ∧ (riseVec v s).hif.staging = s.hif.staging ∧
    (riseVec v s).hif.slots = s.hif.slots ∧ (riseVec v s).hif.handed = s.hif.handed ∧
    (riseVec v s).hif.orders = s.hif.orders ∧ (riseVec v s).hif.lastSlot = s.hif.lastSlot ∧
    (riseVec v s).hif.lastStat = s.hif.lastStat ∧ (riseVec v s).hif.chans = s.hif.chans ∧
    (riseVec v s).hif.rcAt = s.hif.rcAt ∧ (riseVec v s).hif.latches = s.hif.latches ∧
    (riseVec v s).hif.cxl = s.hif.cxl ∧ (riseVec v s).hif.werrOff = s.hif.werrOff ∧
    (riseVec v s).hif.werrSt = s.hif.werrSt ∧ (riseVec v s).hif.notices = s.hif.notices ∧
    (riseVec v s).hif.noticeLog = s.hif.noticeLog := by
  unfold riseVec; dsimp only; split <;> simp

@[simp] theorem mirrorEntry_frame (e : LedgerEntry) (s : State) :
    (mirrorEntry e s).pending = s.pending ∧ (mirrorEntry e s).fresh = s.fresh ∧ (mirrorEntry e s).fuses = s.fuses ∧
    (mirrorEntry e s).chip = s.chip ∧ (mirrorEntry e s).time = s.time ∧ (mirrorEntry e s).ports = s.ports ∧
    (mirrorEntry e s).lasers = s.lasers ∧ (mirrorEntry e s).att = s.att ∧ (mirrorEntry e s).xlat = s.xlat ∧
    (mirrorEntry e s).trn = s.trn ∧ (mirrorEntry e s).home = s.home ∧ (mirrorEntry e s).mov = s.mov ∧
    (mirrorEntry e s).sw = s.sw ∧ (mirrorEntry e s).alm = s.alm ∧ (mirrorEntry e s).coll = s.coll ∧
    (mirrorEntry e s).arr = s.arr ∧ (mirrorEntry e s).ten = s.ten ∧ (mirrorEntry e s).fw = s.fw ∧
    (mirrorEntry e s).pwr = s.pwr ∧ (mirrorEntry e s).fab = s.fab ∧ (mirrorEntry e s).hif.staging = s.hif.staging ∧
    (mirrorEntry e s).hif.slots = s.hif.slots ∧ (mirrorEntry e s).hif.handed = s.hif.handed ∧
    (mirrorEntry e s).hif.orders = s.hif.orders ∧ (mirrorEntry e s).hif.lastSlot = s.hif.lastSlot ∧
    (mirrorEntry e s).hif.lastStat = s.hif.lastStat ∧ (mirrorEntry e s).hif.chans = s.hif.chans ∧
    (mirrorEntry e s).hif.rcAt = s.hif.rcAt ∧ (mirrorEntry e s).hif.latches = s.hif.latches ∧
    (mirrorEntry e s).hif.cxl = s.hif.cxl ∧ (mirrorEntry e s).hif.werrOff = s.hif.werrOff ∧
    (mirrorEntry e s).hif.werrSt = s.hif.werrSt ∧ (mirrorEntry e s).hif.notices = s.hif.notices ∧
    (mirrorEntry e s).hif.noticeLog = s.hif.noticeLog := by
  unfold mirrorEntry; dsimp only; (repeat' split) <;> simp

@[simp] theorem trace_frame (tp unit arg src : Nat) (s : State) :
    (trace tp unit arg src s).pending = s.pending ∧ (trace tp unit arg src s).fuses = s.fuses ∧
    (trace tp unit arg src s).chip = s.chip ∧ (trace tp unit arg src s).time = s.time ∧
    (trace tp unit arg src s).ports = s.ports ∧ (trace tp unit arg src s).lasers = s.lasers ∧
    (trace tp unit arg src s).att = s.att ∧ (trace tp unit arg src s).xlat = s.xlat ∧
    (trace tp unit arg src s).trn = s.trn ∧ (trace tp unit arg src s).home = s.home ∧
    (trace tp unit arg src s).mov = s.mov ∧ (trace tp unit arg src s).sw = s.sw ∧
    (trace tp unit arg src s).alm = s.alm ∧ (trace tp unit arg src s).coll = s.coll ∧
    (trace tp unit arg src s).arr = s.arr ∧ (trace tp unit arg src s).ten = s.ten ∧
    (trace tp unit arg src s).pwr = s.pwr ∧ (trace tp unit arg src s).fab = s.fab ∧
    (trace tp unit arg src s).hif.staging = s.hif.staging ∧ (trace tp unit arg src s).hif.slots = s.hif.slots ∧
    (trace tp unit arg src s).hif.handed = s.hif.handed ∧ (trace tp unit arg src s).hif.orders = s.hif.orders ∧
    (trace tp unit arg src s).hif.lastSlot = s.hif.lastSlot ∧
    (trace tp unit arg src s).hif.lastStat = s.hif.lastStat ∧ (trace tp unit arg src s).hif.chans = s.hif.chans ∧
    (trace tp unit arg src s).hif.rcAt = s.hif.rcAt ∧ (trace tp unit arg src s).hif.latches = s.hif.latches ∧
    (trace tp unit arg src s).hif.cxl = s.hif.cxl ∧ (trace tp unit arg src s).hif.werrOff = s.hif.werrOff ∧
    (trace tp unit arg src s).hif.werrSt = s.hif.werrSt ∧ (trace tp unit arg src s).hif.notices = s.hif.notices ∧
    (trace tp unit arg src s).hif.noticeLog = s.hif.noticeLog ∧ (trace tp unit arg src s).fw.flash = s.fw.flash ∧
    (trace tp unit arg src s).fw.booted = s.fw.booted ∧ (trace tp unit arg src s).fw.slotB = s.fw.slotB ∧
    (trace tp unit arg src s).fw.secB = s.fw.secB ∧ (trace tp unit arg src s).fw.running = s.fw.running ∧
    (trace tp unit arg src s).fw.secRun = s.fw.secRun ∧ (trace tp unit arg src s).fw.recovery = s.fw.recovery ∧
    (trace tp unit arg src s).fw.reason = s.fw.reason ∧ (trace tp unit arg src s).fw.session = s.fw.session ∧
    (trace tp unit arg src s).fw.recSeq = s.fw.recSeq ∧ (trace tp unit arg src s).fw.cores = s.fw.cores ∧
    (trace tp unit arg src s).fw.expiries = s.fw.expiries ∧ (trace tp unit arg src s).fw.stage = s.fw.stage ∧
    (trace tp unit arg src s).fw.actChan = s.fw.actChan ∧ (trace tp unit arg src s).fw.actDone = s.fw.actDone ∧
    (trace tp unit arg src s).fw.back = s.fw.back ∧ (trace tp unit arg src s).fw.resetPending = s.fw.resetPending ∧
    (trace tp unit arg src s).fw.staging = s.fw.staging ∧ (trace tp unit arg src s).fw.agreed = s.fw.agreed ∧
    (trace tp unit arg src s).fw.exported = s.fw.exported := by
  unfold trace; dsimp only; split
  · simp
  · split <;> simp

@[simp] theorem raiseAt_frame (off b vec : Nat) (tp : Option Nat) (unit : Nat) (s : State) :
    (raiseAt off b vec tp unit s).pending = s.pending ∧ (raiseAt off b vec tp unit s).fuses = s.fuses ∧
    (raiseAt off b vec tp unit s).chip = s.chip ∧ (raiseAt off b vec tp unit s).time = s.time ∧
    (raiseAt off b vec tp unit s).ports = s.ports ∧ (raiseAt off b vec tp unit s).lasers = s.lasers ∧
    (raiseAt off b vec tp unit s).att = s.att ∧ (raiseAt off b vec tp unit s).xlat = s.xlat ∧
    (raiseAt off b vec tp unit s).trn = s.trn ∧ (raiseAt off b vec tp unit s).home = s.home ∧
    (raiseAt off b vec tp unit s).mov = s.mov ∧ (raiseAt off b vec tp unit s).sw = s.sw ∧
    (raiseAt off b vec tp unit s).alm = s.alm ∧ (raiseAt off b vec tp unit s).coll = s.coll ∧
    (raiseAt off b vec tp unit s).arr = s.arr ∧ (raiseAt off b vec tp unit s).ten = s.ten ∧
    (raiseAt off b vec tp unit s).pwr = s.pwr ∧ (raiseAt off b vec tp unit s).fab = s.fab ∧
    (raiseAt off b vec tp unit s).hif.staging = s.hif.staging ∧
    (raiseAt off b vec tp unit s).hif.slots = s.hif.slots ∧ (raiseAt off b vec tp unit s).hif.handed = s.hif.handed ∧
    (raiseAt off b vec tp unit s).hif.orders = s.hif.orders ∧
    (raiseAt off b vec tp unit s).hif.lastSlot = s.hif.lastSlot ∧
    (raiseAt off b vec tp unit s).hif.lastStat = s.hif.lastStat ∧
    (raiseAt off b vec tp unit s).hif.chans = s.hif.chans ∧ (raiseAt off b vec tp unit s).hif.rcAt = s.hif.rcAt ∧
    (raiseAt off b vec tp unit s).hif.latches = s.hif.latches ∧ (raiseAt off b vec tp unit s).hif.cxl = s.hif.cxl ∧
    (raiseAt off b vec tp unit s).hif.werrOff = s.hif.werrOff ∧
    (raiseAt off b vec tp unit s).hif.werrSt = s.hif.werrSt ∧
    (raiseAt off b vec tp unit s).hif.notices = s.hif.notices ∧
    (raiseAt off b vec tp unit s).hif.noticeLog = s.hif.noticeLog ∧
    (raiseAt off b vec tp unit s).fw.flash = s.fw.flash ∧ (raiseAt off b vec tp unit s).fw.booted = s.fw.booted ∧
    (raiseAt off b vec tp unit s).fw.slotB = s.fw.slotB ∧ (raiseAt off b vec tp unit s).fw.secB = s.fw.secB ∧
    (raiseAt off b vec tp unit s).fw.running = s.fw.running ∧ (raiseAt off b vec tp unit s).fw.secRun = s.fw.secRun ∧
    (raiseAt off b vec tp unit s).fw.recovery = s.fw.recovery ∧
    (raiseAt off b vec tp unit s).fw.reason = s.fw.reason ∧ (raiseAt off b vec tp unit s).fw.session = s.fw.session ∧
    (raiseAt off b vec tp unit s).fw.recSeq = s.fw.recSeq ∧ (raiseAt off b vec tp unit s).fw.cores = s.fw.cores ∧
    (raiseAt off b vec tp unit s).fw.expiries = s.fw.expiries ∧ (raiseAt off b vec tp unit s).fw.stage = s.fw.stage ∧
    (raiseAt off b vec tp unit s).fw.actChan = s.fw.actChan ∧
    (raiseAt off b vec tp unit s).fw.actDone = s.fw.actDone ∧ (raiseAt off b vec tp unit s).fw.back = s.fw.back ∧
    (raiseAt off b vec tp unit s).fw.resetPending = s.fw.resetPending ∧
    (raiseAt off b vec tp unit s).fw.staging = s.fw.staging ∧ (raiseAt off b vec tp unit s).fw.agreed = s.fw.agreed ∧
    (raiseAt off b vec tp unit s).fw.exported = s.fw.exported := by
  unfold raiseAt; dsimp only; split <;> split <;> simp

@[simp] theorem werr_frame (off : Nat) (st : Status) (s : State) :
    (werr off st s).pending = s.pending ∧ (werr off st s).fuses = s.fuses ∧ (werr off st s).chip = s.chip ∧
    (werr off st s).time = s.time ∧ (werr off st s).ports = s.ports ∧ (werr off st s).lasers = s.lasers ∧
    (werr off st s).att = s.att ∧ (werr off st s).xlat = s.xlat ∧ (werr off st s).trn = s.trn ∧
    (werr off st s).home = s.home ∧ (werr off st s).mov = s.mov ∧ (werr off st s).sw = s.sw ∧
    (werr off st s).alm = s.alm ∧ (werr off st s).coll = s.coll ∧ (werr off st s).arr = s.arr ∧
    (werr off st s).ten = s.ten ∧ (werr off st s).pwr = s.pwr ∧ (werr off st s).fab = s.fab ∧
    (werr off st s).hif.staging = s.hif.staging ∧ (werr off st s).hif.slots = s.hif.slots ∧
    (werr off st s).hif.handed = s.hif.handed ∧ (werr off st s).hif.orders = s.hif.orders ∧
    (werr off st s).hif.lastSlot = s.hif.lastSlot ∧ (werr off st s).hif.lastStat = s.hif.lastStat ∧
    (werr off st s).hif.chans = s.hif.chans ∧ (werr off st s).hif.rcAt = s.hif.rcAt ∧
    (werr off st s).hif.latches = s.hif.latches ∧ (werr off st s).hif.cxl = s.hif.cxl ∧
    (werr off st s).hif.notices = s.hif.notices ∧ (werr off st s).hif.noticeLog = s.hif.noticeLog ∧
    (werr off st s).fw.flash = s.fw.flash ∧ (werr off st s).fw.booted = s.fw.booted ∧
    (werr off st s).fw.slotB = s.fw.slotB ∧ (werr off st s).fw.secB = s.fw.secB ∧
    (werr off st s).fw.running = s.fw.running ∧ (werr off st s).fw.secRun = s.fw.secRun ∧
    (werr off st s).fw.recovery = s.fw.recovery ∧ (werr off st s).fw.reason = s.fw.reason ∧
    (werr off st s).fw.session = s.fw.session ∧ (werr off st s).fw.recSeq = s.fw.recSeq ∧
    (werr off st s).fw.cores = s.fw.cores ∧ (werr off st s).fw.expiries = s.fw.expiries ∧
    (werr off st s).fw.stage = s.fw.stage ∧ (werr off st s).fw.actChan = s.fw.actChan ∧
    (werr off st s).fw.actDone = s.fw.actDone ∧ (werr off st s).fw.back = s.fw.back ∧
    (werr off st s).fw.resetPending = s.fw.resetPending ∧ (werr off st s).fw.staging = s.fw.staging ∧
    (werr off st s).fw.agreed = s.fw.agreed ∧ (werr off st s).fw.exported = s.fw.exported := by
  simp [werr, raiseGlb]

@[simp] theorem notice_frame (k : NoticeKind) (st ep unit : Nat) (s : State) :
    (notice k st ep unit s).pending = s.pending ∧ (notice k st ep unit s).fuses = s.fuses ∧
    (notice k st ep unit s).chip = s.chip ∧ (notice k st ep unit s).time = s.time ∧
    (notice k st ep unit s).ports = s.ports ∧ (notice k st ep unit s).lasers = s.lasers ∧
    (notice k st ep unit s).att = s.att ∧ (notice k st ep unit s).xlat = s.xlat ∧
    (notice k st ep unit s).trn = s.trn ∧ (notice k st ep unit s).home = s.home ∧
    (notice k st ep unit s).mov = s.mov ∧ (notice k st ep unit s).sw = s.sw ∧ (notice k st ep unit s).alm = s.alm ∧
    (notice k st ep unit s).coll = s.coll ∧ (notice k st ep unit s).arr = s.arr ∧
    (notice k st ep unit s).ten = s.ten ∧ (notice k st ep unit s).pwr = s.pwr ∧ (notice k st ep unit s).fab = s.fab ∧
    (notice k st ep unit s).hif.staging = s.hif.staging ∧ (notice k st ep unit s).hif.slots = s.hif.slots ∧
    (notice k st ep unit s).hif.handed = s.hif.handed ∧ (notice k st ep unit s).hif.orders = s.hif.orders ∧
    (notice k st ep unit s).hif.lastSlot = s.hif.lastSlot ∧ (notice k st ep unit s).hif.lastStat = s.hif.lastStat ∧
    (notice k st ep unit s).hif.chans = s.hif.chans ∧ (notice k st ep unit s).hif.rcAt = s.hif.rcAt ∧
    (notice k st ep unit s).hif.latches = s.hif.latches ∧ (notice k st ep unit s).hif.cxl = s.hif.cxl ∧
    (notice k st ep unit s).hif.werrOff = s.hif.werrOff ∧ (notice k st ep unit s).hif.werrSt = s.hif.werrSt ∧
    (notice k st ep unit s).fw.flash = s.fw.flash ∧ (notice k st ep unit s).fw.booted = s.fw.booted ∧
    (notice k st ep unit s).fw.slotB = s.fw.slotB ∧ (notice k st ep unit s).fw.secB = s.fw.secB ∧
    (notice k st ep unit s).fw.running = s.fw.running ∧ (notice k st ep unit s).fw.secRun = s.fw.secRun ∧
    (notice k st ep unit s).fw.recovery = s.fw.recovery ∧ (notice k st ep unit s).fw.reason = s.fw.reason ∧
    (notice k st ep unit s).fw.session = s.fw.session ∧ (notice k st ep unit s).fw.recSeq = s.fw.recSeq ∧
    (notice k st ep unit s).fw.cores = s.fw.cores ∧ (notice k st ep unit s).fw.expiries = s.fw.expiries ∧
    (notice k st ep unit s).fw.stage = s.fw.stage ∧ (notice k st ep unit s).fw.actChan = s.fw.actChan ∧
    (notice k st ep unit s).fw.actDone = s.fw.actDone ∧ (notice k st ep unit s).fw.back = s.fw.back ∧
    (notice k st ep unit s).fw.resetPending = s.fw.resetPending ∧ (notice k st ep unit s).fw.staging = s.fw.staging ∧
    (notice k st ep unit s).fw.agreed = s.fw.agreed ∧ (notice k st ep unit s).fw.exported = s.fw.exported := by
  unfold notice raiseGlb; dsimp only; split
  · simp
  · split <;> simp

/-! ### What is put out only grows -/

theorem out_dmaWrite (a : Nat) (bs : Bytes) (s : State) : s.out <+: (dmaWrite a bs s).out := by
  unfold dmaWrite; split <;> simp

theorem out_sendVec (v : Nat) (s : State) : s.out <+: (sendVec v s).out := by
  unfold sendVec; dsimp only; split <;> simp

theorem out_riseVec (v : Nat) (s : State) : s.out <+: (riseVec v s).out := by
  unfold riseVec; dsimp only; split
  · simp
  · exact out_sendVec v s

theorem out_mirrorEntry (e : LedgerEntry) (s : State) : s.out <+: (mirrorEntry e s).out := by
  unfold mirrorEntry; dsimp only
  (repeat' split) <;>
    first
    | exact out_dmaWrite _ _ _
    | (refine List.IsPrefix.trans ?_ (out_riseVec _ _); simp)
    | simp

theorem out_trace (tp unit arg src : Nat) (s : State) : s.out <+: (trace tp unit arg src s).out := by
  unfold trace; dsimp only; split
  · simp
  · split
    · simp
    · refine List.IsPrefix.trans ?_ (out_mirrorEntry _ _); simp

theorem out_raiseAt (off b vec : Nat) (tp : Option Nat) (unit : Nat) (s : State) :
    s.out <+: (raiseAt off b vec tp unit s).out := by
  unfold raiseAt; dsimp only; split <;> split
  · refine List.IsPrefix.trans ?_ (out_trace _ _ _ _ _); simp
  · simp
  · refine List.IsPrefix.trans ?_ (out_riseVec _ _); refine List.IsPrefix.trans ?_ (out_trace _ _ _ _ _); simp
  · refine List.IsPrefix.trans ?_ (out_riseVec _ _); simp

/-! ### Parts that events leave -/

theorem sess_raiseAt (off b vec : Nat) (tp : Option Nat) (unit : Nat) (s : State) (p : Nat) :
    sess (raiseAt off b vec tp unit s) p = sess s p := sess_congr (by simp) p
theorem portSt_raiseAt (off b vec : Nat) (tp : Option Nat) (unit : Nat) (s : State) (p : Nat) :
    portSt (raiseAt off b vec tp unit s) p = portSt s p := portSt_congr (by simp) p
theorem chan_raiseAt (off b vec : Nat) (tp : Option Nat) (unit : Nat) (s : State) (c : Nat) :
    chan (raiseAt off b vec tp unit s) c = chan s c := chan_congr (by simp) c
theorem ctxOf_raiseAt (off b vec : Nat) (tp : Option Nat) (unit : Nat) (s : State) (c : Nat) :
    ctxOf (raiseAt off b vec tp unit s) c = ctxOf s c := ctxOf_congr (by simp) c

end Sys2Proof.Machine
end

