-- ==== Sys2Proof/Laws/Line.lean ====
section
/-!
SUPPORT. The line coding: descrambling from the transmitter's state undoes scrambling (R282).
-/

namespace Sys2Proof.Machine
open Sys2Proof

@[simp] theorem scrambleBit_state (st : BitVec 58) (b : Bool) :
    (descrambleBit st (scrambleBit st b).2).1 = (scrambleBit st b).1 := rfl

@[simp] theorem descrambleBit_scrambleBit (st : BitVec 58) (b : Bool) : (descrambleBit st (scrambleBit st b).2).2 = b := by
  simp only [descrambleBit, scrambleBit]
  cases b <;> cases st.getLsbD 38 <;> cases st.getLsbD 57 <;> rfl

/-- R282: what is scrambled and descrambled from one state is what was sent. -/
theorem descramble_scramble : ∀ (bs : List Bool) (st : BitVec 58), descramble st (scramble st bs) = bs
  | [], _ => rfl
  | b :: bs, st => by simp [scramble, descramble, descramble_scramble bs]

end Sys2Proof.Machine
end

