-- ==== Sys2Proof/Laws/Memory.lean ====
section
/-!
SUPPORT. The bytes of the Stacks and the Annex: what each operation that writes them leaves alone, what it writes, and
that it keeps their canonical form.
-/

namespace Sys2Proof.Machine
open Sys2Proof

/-! ### A write of a tier -/

theorem tierWrite_apart {space off sp a n : Nat} {bs : Bytes} (s : State) (h : Apart space off bs.length sp a n) :
    tierRead (tierWrite space off bs s) sp a n = tierRead s sp a n := by
  have hr : ∀ m : Table Byte, (sp == 1) = (space == 1) → memRead (memWrite m off bs) a n = memRead m a n :=
    fun m he => memRead_memWrite_outside (h.resolve_left (fun hn => hn he))
  unfold tierWrite tierRead
  by_cases h1 : space = 1 <;> by_cases h2 : sp = 1
  · subst h1; subst h2; exact hr _ rfl
  · simp [h1, h2]
  · simp [h1, h2]
  · simp only [h1, h2, if_false]
    exact hr _ ((beq_false_of_ne h2).trans (beq_false_of_ne h1).symm)

theorem tierWrite_same (space off : Nat) (bs : Bytes) (s : State) :
    tierRead (tierWrite space off bs s) space off bs.length = bs := by
  unfold tierWrite tierRead
  by_cases h1 : space = 1 <;> simp [h1] <;> exact memRead_memWrite_same _ _ _

theorem tierWrite_wf {space off : Nat} {bs : Bytes} {s : State} (h : MemoriesWf s) : MemoriesWf (tierWrite space off bs s) := by
  unfold tierWrite
  split
  · exact ⟨memWrite_wf h.1, h.2⟩
  · exact ⟨h.1, memWrite_wf h.2⟩

/-! ### A write of the system partition -/

theorem sysWrite_apart {x sp a n : Nat} {bs : Bytes} (s : State) (h : Apart 1 (sysPart + x) bs.length sp a n) :
    tierRead (sysWrite x bs s) sp a n = tierRead s sp a n := tierWrite_apart s h

theorem sysWrite_same (x : Nat) (bs : Bytes) (s : State) : sysRead (sysWrite x bs s) x bs.length = bs :=
  memRead_memWrite_same _ _ _

theorem sysWrite_wf {x : Nat} {bs : Bytes} {s : State} (h : MemoriesWf s) : MemoriesWf (sysWrite x bs s) :=
  ⟨memWrite_wf h.1, h.2⟩

/-! ### Zeros over a range -/

/-- A key that a filter by keys keeps reads as before; one that it drops reads as the default. -/
theorem tget_filter_key {α : Type} (d : α) (p : Nat → Bool) (k : Nat) :
    ∀ t : Table α, tget d (t.filter (fun x => p x.1)) k = if p k then tget d t k else d
  | [] => by simp
  | (j, w) :: t => by
    by_cases hj : k = j
    · subst hj
      by_cases hp : p k = true
      · simp [hp, tget_cons]
      · simp [hp, tget_filter_key d p k t]
    · by_cases hp : p j = true
      · simp [hp, tget_cons, hj, tget_filter_key d p k t]
      · simp [hp, tget_cons, hj, tget_filter_key d p k t]

theorem memRead_zeros_outside {m : Table Byte} {off len a n : Nat} (h : a + n ≤ off ∨ off + len ≤ a) :
    memRead (m.filter (fun x => !decide (off ≤ x.1 ∧ x.1 < off + len))) a n = memRead m a n := by
  apply List.map_congr_left
  intro i hi
  have := List.mem_range.1 hi
  rw [tget_filter_key 0 (fun x => !decide (off ≤ x ∧ x < off + len)) (a + i), if_pos]
  rw [decide_eq_false (by omega)]; rfl

theorem memRead_zeros_inside {m : Table Byte} {off len a n : Nat} (h : off ≤ a) (h' : a + n ≤ off + len) :
    memRead (m.filter (fun x => !decide (off ≤ x.1 ∧ x.1 < off + len))) a n = List.replicate n 0 := by
  apply List.ext_getElem
  · simp [memRead]
  · intro i h1 h2
    have hi : i < n := by simpa [memRead] using h1
    simp only [memRead, List.getElem_map, List.getElem_range, List.getElem_replicate]
    rw [tget_filter_key 0 (fun x => !decide (off ≤ x ∧ x < off + len)) (a + i), if_neg]
    rw [decide_eq_true (by omega)]; decide

theorem zeroRange_apart {space off len sp a n : Nat} (s : State) (h : Apart space off len sp a n) :
    tierRead (zeroRange space off len s) sp a n = tierRead s sp a n := by
  have hr : ∀ m : Table Byte, (sp == 1) = (space == 1) →
      memRead (m.filter (fun x => !decide (off ≤ x.1 ∧ x.1 < off + len))) a n = memRead m a n :=
    fun m he => memRead_zeros_outside (h.resolve_left (fun hn => hn he))
  unfold zeroRange tierRead
  by_cases h1 : space = 1
  · subst h1
    by_cases h2 : sp = 1
    · subst h2; exact hr _ rfl
    · simp [h2]
  · by_cases h3 : space = 2
    · subst h3
      by_cases h2 : sp = 1
      · subst h2; rfl
      · simp only [h2, if_false]; exact hr _ (by simp [h2])
    · simp [h1, h3]

theorem zeroRange_zero {space off len a n : Nat} (s : State) (hs : space = 1 ∨ space = 2) (h : off ≤ a)
    (h' : a + n ≤ off + len) : tierRead (zeroRange space off len s) space a n = List.replicate n 0 := by
  rcases hs with rfl | rfl <;> exact memRead_zeros_inside h h'

theorem zeroRange_wf {space off n : Nat} {s : State} (h : MemoriesWf s) : MemoriesWf (zeroRange space off n s) := by
  unfold zeroRange
  refine ⟨?_, ?_⟩
  · show Memory.wf (if _ then _ else _) = true
    split
    · exact memory_filter_wf _ h.1
    · exact h.1
  · show Memory.wf (if _ then _ else _) = true
    split
    · exact memory_filter_wf _ h.2
    · exact h.2

end Sys2Proof.Machine
end

