-- ==== Sys2Proof/Laws/Steps.lean ====
section
/-!
SUPPORT. How a command runs: what is handed on, the readiness state, and the parts a row reaches. A proof about a row
takes `run_running` first, then says what the row's own effect does, and cites the laws below for the rest.
-/

namespace Sys2Proof.Machine
open Sys2Proof

/-! ### Keeping the queue and the fuses -/

@[simp] theorem keep_frame (s t : State) :
    (keep s t).out = t.out ∧ (keep s t).fresh = t.fresh ∧ (keep s t).regs = t.regs ∧ (keep s t).chip = t.chip ∧
    (keep s t).time = t.time ∧ (keep s t).ports = t.ports ∧ (keep s t).lasers = t.lasers ∧ (keep s t).att = t.att ∧
    (keep s t).xlat = t.xlat ∧ (keep s t).trn = t.trn ∧ (keep s t).home = t.home ∧ (keep s t).mov = t.mov ∧
    (keep s t).sw = t.sw ∧ (keep s t).alm = t.alm ∧ (keep s t).coll = t.coll ∧ (keep s t).arr = t.arr ∧
    (keep s t).ten = t.ten ∧ (keep s t).fw = t.fw ∧ (keep s t).pwr = t.pwr ∧ (keep s t).fab = t.fab ∧
    (keep s t).hif = t.hif ∧ (keep s t).hlth = t.hlth ∧ (keep s t).pending = s.pending ∧ (keep s t).fuses = s.fuses := by
  simp [keep]

@[simp] theorem within_core (s t : State) :
    (within s t).pending = s.pending ∧ (within s t).fuses = s.fuses ∧ (within s t).chip = s.chip ∧
    (within s t).time = s.time ∧ (within s t).ports = s.ports ∧ (within s t).lasers = s.lasers ∧
    (within s t).xlat = s.xlat ∧ (within s t).alm = s.alm ∧ (within s t).ten = s.ten ∧ (within s t).pwr = s.pwr ∧
    (within s t).fab = s.fab ∧ (within s t).out = s.out ++ t.out := by
  simp [within]

@[simp] theorem within_data (s t : State) :
    (within s t).fresh = t.fresh ∧ (within s t).regs = t.regs ∧ (within s t).att = t.att ∧ (within s t).trn = t.trn ∧
    (within s t).mov = t.mov ∧ (within s t).sw = t.sw ∧ (within s t).coll = t.coll ∧ (within s t).arr = t.arr ∧
    (within s t).hif = t.hif ∧ (within s t).hlth = t.hlth := by
  simp [within]

theorem handOn_quiet {s : State} (h : quiet s = true) : handOn s = s := by simp [handOn, h]

@[simp] theorem handOn_core (s : State) :
    (handOn s).pending = s.pending ∧ (handOn s).fuses = s.fuses ∧ (handOn s).chip = s.chip ∧
    (handOn s).time = s.time ∧ (handOn s).ports = s.ports ∧ (handOn s).lasers = s.lasers ∧ (handOn s).xlat = s.xlat ∧
    (handOn s).alm = s.alm ∧ (handOn s).ten = s.ten ∧ (handOn s).pwr = s.pwr ∧ (handOn s).fab = s.fab := by
  unfold handOn; split <;> simp

theorem out_handOn (s : State) : s.out <+: (handOn s).out := by
  unfold handOn; split <;> simp

/-- The readiness state and TRANSIT are all that the readiness transitions change (R383). -/
theorem advanceReady_eq (s : State) :
    ∃ st tr, advanceReady s = { s with fab := { s.fab with state := st, transit := tr } } := by
  unfold advanceReady; dsimp only
  (repeat' split) <;> exact ⟨_, _, rfl⟩

@[simp] theorem advanceReady_frame (s : State) :
    (advanceReady s).pending = s.pending ∧ (advanceReady s).out = s.out ∧ (advanceReady s).fresh = s.fresh ∧
    (advanceReady s).regs = s.regs ∧ (advanceReady s).fuses = s.fuses ∧ (advanceReady s).chip = s.chip ∧
    (advanceReady s).time = s.time ∧ (advanceReady s).ports = s.ports ∧ (advanceReady s).lasers = s.lasers ∧
    (advanceReady s).att = s.att ∧ (advanceReady s).xlat = s.xlat ∧ (advanceReady s).trn = s.trn ∧
    (advanceReady s).home = s.home ∧ (advanceReady s).mov = s.mov ∧ (advanceReady s).sw = s.sw ∧
    (advanceReady s).alm = s.alm ∧ (advanceReady s).coll = s.coll ∧ (advanceReady s).arr = s.arr ∧
    (advanceReady s).ten = s.ten ∧ (advanceReady s).fw = s.fw ∧ (advanceReady s).pwr = s.pwr ∧
    (advanceReady s).hif = s.hif ∧ (advanceReady s).hlth = s.hlth := by
  obtain ⟨st, tr, h⟩ := advanceReady_eq s; simp [h]

theorem advanceReady_fab (s : State) : (advanceReady s).fab =
    { s.fab with state := (advanceReady s).fab.state, transit := (advanceReady s).fab.transit } := by
  obtain ⟨st, tr, h⟩ := advanceReady_eq s; rw [h]

theorem settle_quiet {s : State} (h : quiet s = true) : settle s = advanceReady s := by simp [settle, handOn_quiet h]

@[simp] theorem settle_core (s : State) :
    (settle s).pending = s.pending ∧ (settle s).fuses = s.fuses ∧ (settle s).chip = s.chip ∧
    (settle s).time = s.time ∧ (settle s).ports = s.ports ∧ (settle s).lasers = s.lasers ∧ (settle s).xlat = s.xlat ∧
    (settle s).alm = s.alm ∧ (settle s).ten = s.ten ∧ (settle s).pwr = s.pwr := by
  simp [settle]

theorem out_settle (s : State) : s.out <+: (settle s).out := by
  simpa [settle] using out_handOn s

@[simp] theorem noteReady_frame (s t : State) :
    (noteReady s t).pending = t.pending ∧ (noteReady s t).fuses = t.fuses ∧ (noteReady s t).chip = t.chip ∧
    (noteReady s t).time = t.time ∧ (noteReady s t).ports = t.ports ∧ (noteReady s t).lasers = t.lasers ∧
    (noteReady s t).att = t.att ∧ (noteReady s t).xlat = t.xlat ∧ (noteReady s t).trn = t.trn ∧
    (noteReady s t).home = t.home ∧ (noteReady s t).mov = t.mov ∧ (noteReady s t).sw = t.sw ∧
    (noteReady s t).alm = t.alm ∧ (noteReady s t).coll = t.coll ∧ (noteReady s t).arr = t.arr ∧
    (noteReady s t).ten = t.ten ∧ (noteReady s t).pwr = t.pwr ∧ (noteReady s t).fab = t.fab ∧
    (noteReady s t).hif.staging = t.hif.staging ∧ (noteReady s t).hif.slots = t.hif.slots ∧
    (noteReady s t).hif.handed = t.hif.handed ∧ (noteReady s t).hif.orders = t.hif.orders ∧
    (noteReady s t).hif.lastSlot = t.hif.lastSlot ∧ (noteReady s t).hif.lastStat = t.hif.lastStat ∧
    (noteReady s t).hif.chans = t.hif.chans ∧ (noteReady s t).hif.rcAt = t.hif.rcAt ∧
    (noteReady s t).hif.latches = t.hif.latches ∧ (noteReady s t).hif.cxl = t.hif.cxl ∧
    (noteReady s t).hif.werrOff = t.hif.werrOff ∧ (noteReady s t).hif.werrSt = t.hif.werrSt ∧
    (noteReady s t).hif.notices = t.hif.notices ∧ (noteReady s t).hif.noticeLog = t.hif.noticeLog ∧
    (noteReady s t).fw.flash = t.fw.flash ∧ (noteReady s t).fw.booted = t.fw.booted ∧
    (noteReady s t).fw.slotB = t.fw.slotB ∧ (noteReady s t).fw.secB = t.fw.secB ∧
    (noteReady s t).fw.running = t.fw.running ∧ (noteReady s t).fw.secRun = t.fw.secRun ∧
    (noteReady s t).fw.recovery = t.fw.recovery ∧ (noteReady s t).fw.reason = t.fw.reason ∧
    (noteReady s t).fw.session = t.fw.session ∧ (noteReady s t).fw.recSeq = t.fw.recSeq ∧
    (noteReady s t).fw.cores = t.fw.cores ∧ (noteReady s t).fw.expiries = t.fw.expiries ∧
    (noteReady s t).fw.stage = t.fw.stage ∧ (noteReady s t).fw.actChan = t.fw.actChan ∧
    (noteReady s t).fw.actDone = t.fw.actDone ∧ (noteReady s t).fw.back = t.fw.back ∧
    (noteReady s t).fw.resetPending = t.fw.resetPending ∧ (noteReady s t).fw.staging = t.fw.staging ∧
    (noteReady s t).fw.agreed = t.fw.agreed ∧ (noteReady s t).fw.exported = t.fw.exported := by
  unfold noteReady raiseGlb; split <;> simp

theorem out_noteReady (s t : State) : t.out <+: (noteReady s t).out := by
  unfold noteReady raiseGlb; split
  · simp
  · refine List.IsPrefix.trans ?_ (out_raiseAt _ _ _ _ _ _); simp

@[simp] theorem bound_always (r : Reach) (s t : State) :
    (r.bound s t).pending = t.pending ∧ (r.bound s t).out = t.out ∧ (r.bound s t).fresh = t.fresh ∧
    (r.bound s t).regs = t.regs ∧ (r.bound s t).fuses = t.fuses ∧ (r.bound s t).fw = t.fw ∧
    (r.bound s t).hif = t.hif ∧ (r.bound s t).hlth = t.hlth := by
  simp [Reach.bound]

theorem bound_part {r : Reach} (s t : State) :
    (r.bound s t).chip = (if r.chip then t.chip else s.chip) ∧
    (r.bound s t).time = (if r.time then t.time else s.time) ∧
    (r.bound s t).ports = (if r.ports then t.ports else s.ports) ∧
    (r.bound s t).lasers = (if r.lasers then t.lasers else s.lasers) ∧
    (r.bound s t).xlat = (if r.xlat then t.xlat else s.xlat) ∧ (r.bound s t).alm = (if r.alm then t.alm else s.alm) ∧
    (r.bound s t).ten = (if r.ten then t.ten else s.ten) ∧ (r.bound s t).pwr = (if r.pwr then t.pwr else s.pwr) ∧
    (r.bound s t).fab = (if r.fab then t.fab else s.fab) ∧ (r.bound s t).att = (if r.data then t.att else s.att) ∧
    (r.bound s t).trn = (if r.data then t.trn else s.trn) ∧ (r.bound s t).sw = (if r.data then t.sw else s.sw) ∧
    (r.bound s t).coll = (if r.data then t.coll else s.coll) ∧ (r.bound s t).arr = (if r.data then t.arr else s.arr) := by
  simp [Reach.bound]

/-! ### A row runs -/

theorem run_running {r : Reach} {s : State} {f : State → State} (h : s.chip.running = true) :
    run r s f = .next (keep s (noteReady s (settle (r.bound s (f s))))) := by simp [run, live, h]

theorem run_standing {r : Reach} {s : State} {f : State → State} (h : s.chip.running = false) : run r s f = .next s := by
  simp [run, live, h]

theorem runFuses_running {r : Reach} {s : State} {f : State → State} (h : s.chip.running = true) :
    runFuses r s f = .next { noteReady s (settle (r.bound s (f s))) with pending := s.pending } := by
  simp [runFuses, liveFuses, h]

theorem runFuses_standing {r : Reach} {s : State} {f : State → State} (h : s.chip.running = false) :
    runFuses r s f = .next s := by simp [runFuses, liveFuses, h]

/-- A row whose effect leaves nothing to be handed on: its data path, host link and firmware are what the effect left,
and what the effect put out stands first. -/
theorem run_quiet {r : Reach} {s : State} {f : State → State} (h : s.chip.running = true)
    (hq : quiet (r.bound s (f s)) = true) :
    run r s f = .next (keep s (noteReady s (advanceReady (r.bound s (f s))))) := by
  rw [run_running h, settle_quiet hq]

/-- What is put out only grows, by as much as the row's own effect and more. -/
theorem out_run {r : Reach} {s : State} {f : State → State} (h : s.chip.running = true) :
    ∃ t, run r s f = .next t ∧ (f s).out <+: t.out := by
  refine ⟨_, run_running h, ?_⟩
  have h1 := out_settle (r.bound s (f s))
  have h2 := out_noteReady s (settle (r.bound s (f s)))
  simpa using h1.trans h2

/-! ### A step -/

theorem step_empty {s : State} (h : s.pending = []) : step s = .next (idle s) := by simp [step, h]

theorem step_front {s : State} {c : Instr} {cs : List Instr} (h : s.pending = c :: cs) :
    step s = exec c { s with pending := cs } := by simp [step, h]

/-! ### Parts a row does not reach -/

/-- Framed, as far as the row's own effect goes. -/
theorem bound_framed (r : Reach) (s t : State) : Framed r s (r.bound s t) := by
  simp only [Framed, Reach.bound]
  refine ⟨?_, ?_, ?_, ?_, ?_, ?_, ?_, ?_, ?_⟩ <;> intro hr <;> simp [hr]

/-- What is handed on, the readiness state and READY_CHANGE keep a frame. -/
theorem framed_settle {r : Reach} {s t u : State} (h : Framed r s t) : Framed r s (keep s (noteReady u (settle t))) := by
  obtain ⟨st, tr, he⟩ := advanceReady_eq (handOn t)
  have hs : settle t = { handOn t with fab := { (handOn t).fab with state := st, transit := tr } } := he
  obtain ⟨h1, h2, h3, h4, h5, h6, h7, h8, h9⟩ := h
  simp only [Framed, keep_frame, noteReady_frame, hs, handOn_core]
  refine ⟨h1, h2, h3, h4, h5, h6, h7, h8, fun hr => ?_⟩
  rw [h9 hr]

theorem run_framed {r : Reach} {s t : State} {f : State → State} (h : run r s f = .next t) : Framed r s t := by
  unfold run live at h
  split at h
  · cases h; exact framed_settle (bound_framed r s (f s))
  · cases h; simp [Framed]

theorem runFuses_framed {r : Reach} {s t : State} {f : State → State} (h : runFuses r s f = .next t) : Framed r s t := by
  unfold runFuses liveFuses at h
  split at h
  · cases h; exact framed_settle (u := s) (bound_framed r s (f s))
  · cases h; simp [Framed]

theorem runPin_framed {r : Reach} {s t : State} {f : State → State} (h : runPin r s f = .next t) : Framed r s t := by
  unfold runPin at h; cases h; exact bound_framed r s (f s)

/-! ### Bytes of the Stacks and the Annex -/

/-- What a row that does not reach the memories leaves where no engine reads a page: every byte, and no engine that
reads one. -/
theorem bound_bytes {r : Reach} {s : State} (hm : r.mem = false) (h0 : pageReads s = false) (t : State) :
    SameBytes s (r.bound s t) ∧ pageReads (r.bound s t) = false := by
  cases hd : r.data
  · refine ⟨?_, ?_⟩
    · simp [SameBytes, tierRead, Reach.bound, hd]
    · have : (r.bound s t).mov = s.mov := by simp [Reach.bound, hd]
      simpa [pageReads, this] using h0
  · refine ⟨?_, ?_⟩
    · simp [SameBytes, tierRead, Reach.bound, hm, hd]
    · have : (r.bound s t).mov = { t.mov with moves := t.mov.moves.filter (fun m => m.phase != .reading) } := by
        simp [Reach.bound, hm, hd, h0]
      simp [pageReads, this]

/-- Where no engine reads a page, nothing that follows of itself writes a byte. -/
theorem handOn_bytes {s : State} (h0 : pageReads s = false) : SameBytes s (handOn s) := by
  unfold handOn; split <;> simp [SameBytes, tierRead, within, h0]

theorem settle_bytes {s : State} (h0 : pageReads s = false) (u v : State) :
    SameBytes s (keep u (noteReady v (settle s))) := by
  simpa [SameBytes, tierRead, settle] using handOn_bytes h0

theorem run_bytes {r : Reach} {s t : State} {f : State → State} (hm : r.mem = false) (h0 : pageReads s = false)
    (h : run r s f = .next t) : SameBytes s t := by
  unfold run live at h
  split at h
  · cases h
    obtain ⟨hb, hn⟩ := bound_bytes hm h0 (f s)
    exact fun space off n => (settle_bytes hn s s space off n).trans (hb space off n)
  · cases h; exact fun _ _ _ => rfl

theorem runFuses_bytes {r : Reach} {s t : State} {f : State → State} (hm : r.mem = false) (h0 : pageReads s = false)
    (h : runFuses r s f = .next t) : SameBytes s t := by
  unfold runFuses liveFuses at h
  split at h
  · cases h
    obtain ⟨hb, hn⟩ := bound_bytes hm h0 (f s)
    exact fun space off n => (settle_bytes hn s s space off n).trans (hb space off n)
  · cases h; exact fun _ _ _ => rfl

theorem runPin_bytes {r : Reach} {s t : State} {f : State → State} (hm : r.mem = false) (h0 : pageReads s = false)
    (h : runPin r s f = .next t) : SameBytes s t := by
  unfold runPin at h; cases h; exact (bound_bytes hm h0 (f s)).1

end Sys2Proof.Machine
end

