-- ==== Sys2Proof/WellFormed.lean ====
section
/-!
DEFINITION. Well-formed commands: the bounds on operands that the types do not carry, from the rules that
give the message and frame formats. A command that breaks one cannot reach the part as the spec draws it;
`exec` is total on it all the same.
-/

namespace Sys2Proof

/-- An Attach message carries at most 4,096 bytes of payload (R32). -/
def AttMsg.wf (m : AttMsg) : Bool := decide (m.payload.length ≤ 4096)

/-- A Repex frame carries at most 512 bytes of payload (R125). -/
def Frame.wf (f : Frame) : Bool := decide (f.payload.length ≤ 512)

/-- A bucket is 128 bytes and a region descriptor 32 (R65, R73). -/
def MapChange.wf : MapChange → Bool
  | .buckets _ bs => bs.all (fun b => b.2.length == 128)
  | .region _ _ d => d.length == 32
  | .page _ _ _ _ => true
  | .drain _ => true

/-- A mailbox input by DMA is at most 48 MiB (R414). -/
def dmaWf (dma : Bytes) : Bool := decide (dma.length ≤ 50331648)

/-- A BAR0 offset is below 64 MiB, which its type carries; an access is of 1, 2, 4 or 8 bytes (R407). -/
def sizeWf (n : Nat) : Bool := n == 1 || n == 2 || n == 4 || n == 8

/-- A well-formed command; the power and health boundaries are the 1 ms, 100 ms and 1 s boundaries of
Fabric Time (R359, R360, R396). -/
def Instr.wf : Instr → Bool
  | .hello _ m | .read _ m | .write _ m | .writeFlag _ m | .atomic _ m | .commit _ m | .move _ m
  | .releaseMark _ m | .descriptorChunk _ m | .dataChunk _ m | .treeOpen _ m | .treeClose _ m
  | .inbDone _ m => m.wf
  | .req ⟨f, _⟩ | .rsp f | .ack f | .nak ⟨f, _⟩ | .openSession f | .openAck f | .close f | .skipFrame ⟨f, _⟩
  | .frameForward _ f _ _ | .collChunk f _ | .collResult f | .collCredit ⟨f, _⟩ | .collDesc f | .collDone f
  | .treeReply f | .treeRelease f | .collAbort _ f | .holdWrite ⟨f, _⟩ | .holdFlag ⟨f, _⟩
  | .holdAtomic ⟨f, _⟩ | .holdCommit ⟨f, _⟩ => f.wf
  | .treeOpenCtl f ms => f.wf && decide (ms.length ≤ 4096)
  | .xltUpdate _ d | .rgnWrite _ d | .xltDrain _ d | .almLoad _ d | .almUnload _ d | .rdaProgLoad _ d
  | .rdaProgUnload _ d | .movSubmit _ (.mailbox d) | .movResume _ d | .movFail _ d | .memWinSet _ d
  | .swcMirror _ d | .tenAdmit _ d | .tenRelease _ d | .epBind _ d | .epUnbind _ d | .evidenceGet _ (.mailbox d)
  | .dbgChallenge _ d | .fwActivate _ d | .fwArbCommit _ d _ | .negotiate _ d | .fwStatus _ d
  | .catWrite _ d | .fabJoin _ d | .epQuarantine _ d | .epUnquarantine _ d => dmaWf d
  | .movSubmit _ (.relayed _ _ d) => d.length == 64
  | .evidenceGet _ (.port d) => d.length == 36
  | .mappingChange _ ch => ch.wf
  | .cxlMemWrite _ d _ => d.length == 64
  | .debugUnlock _ c _ _ _ => c.length == 32
  | .registerWrite _ n _ | .rcRead _ n => sizeWf n
  | .powerBoundary n _ _ _ => n.toNat % 4000000 == 0
  | .powerRiseBoundary n _ => n.toNat % 400000000 == 0
  | .healthScoreUpdate n => n.toNat % 4000000000 == 0
  | _ => true

end Sys2Proof
end

