-- ==== Sys2Proof/Tests/Slice0.lean ====
section
/-!
SUPPORT. Tests. First the ill-formed commands, then numbers the spec works out itself (and the check values of the
published CRC and SHA-384 algorithms), then single steps, and last, for each statement with hypotheses, a theorem
`wit_<statement>` with a concrete state and operands that meet the hypotheses of each of its clauses.
-/

namespace Sys2Proof.Tests
open Sys2Proof Sys2Proof.Machine
set_option Elab.async false

/-! ### Small states -/

/-- The clocks run and Fabric Time counts. -/
def b0 : State := { State.reset with chip := { running := true }, time := { State.reset.time with started := true } }

/-- Every laser module is there and enabled. -/
def lit (s : State) : State := { s with lasers := (List.range 8).map (fun m => (m, { present := true, enabled := true })) }

/-- A device in READY, with its host link up, a Catalogue applied and all features agreed. -/
def b1 : State := { b0 with
  chip := { running := true, perstN := true }
  fab := { state := .ready, joined := true, catalogue := true, nodeV := true, transit := true }
  fw := { booted := true, agreed := some 0x3FF }
  hif := { cxl := { up := true, bme := true } }
  ten := { idReady := true, slots := 4, sysKey := 1 } }

/-- Channel 0 waits with a command and its inline input. -/
def cmd (op : BitVec 16) (inp : Bytes) (s : State) : State :=
  setChan 0 { busy := true, opcode := op, inLen := BitVec.ofNat 26 inp.length, inBuf := memWrite [] 0 inp } s

/-- A session of an A-port: UP, with credits both ways. -/
def up0 : Session := { state := .up, minor := 1, rspCrd := 64, inbCrd := 64, reqCrd := 256, inrCrd := 256 }

/-- A-port 5 is bound to tenant 1, its session is UP, and its cluster holds a table of tenant 1. -/
def b2 : State := setSess 5 up0 (setWord (xltBase 0 + 0x100) 0x11 (setWord (epbBase 5 + 0x40) 0x2001 b1))

/-- A request waits for the bucket read of its page. -/
def b3 : State := setMisses 0 [{ key := pageKeyOf 1 (2 ^ 48), port := 5 }] b2

/-- A COPY of one line from FVA 0x8000000000000000 to 0x8000000000001000. -/
def copy0 : Bytes :=
  [0x21, 0, 0, 0, 0, 0, 0, 0, 0x80, 0, 0, 0, 0, 0, 0, 0, 0x80, 0, 0, 0, 0, 0, 0x10, 0, 0, 0, 0, 0, 0, 0, 0, 0x80] ++ List.replicate 32 0

/-- The region descriptor of tenant 1: all Stacks bytes of the first 1 MiB, all rights, tag 0. -/
def rgn0 : Bytes := [0x0F, 0x11, 0, 0, 0, 0, 0, 0] ++ List.replicate 8 0 ++ [0, 0, 16, 0, 0, 0, 0, 0] ++ List.replicate 8 0

/-- The control host's window 0 maps device physical address 0 to the Stacks, region 0. -/
def b4 : State := sysWrite 0x09000000 rgn0 (setWord (winOff 0) 0x11 (setWord (winOff 0 + 0xC) 1 b1))

/-- A line of the Stacks with one access of the control host under way. -/
def lineAcc (op : HomeOp) (opc : BitVec 8) (bs : Bytes) (s : State) : State :=
  { s with home := { s.home with
    accesses := [{ id := 4, home := 72, frame := { type := 1, src := 0x4800, dst := 0x4800, opc := opc, len := 64, mid := midOf (2 ^ 44 + 128) 0 0, payload := bs },
                   op := op, left := 1, cxl := true }]
    hot := [{ home := 72, line := 2 ^ 44 + 128, lastSrc := 0, busy := [{ access := 4, src := 0x4800, ord := false, off := 2 ^ 44 + 128, len := 64 }] }] } }
def part0 : Part := { access := 4, src := 0x4800, ord := false, off := 2 ^ 44 + 128, len := 64 }

/-- A request frame of node 1's fabric memory for this node's, in sequence. -/
def fr (ty : BitVec 4) (opc : BitVec 8) (psn : BitVec 32) (ord : Bool) (mid : BitVec 96) (bs : Bytes) : Frame :=
  ({ type := ty, src := 0x4801, dst := 0x4800, tenant := 1, ord := ord, opc := opc, psn := psn, mid := mid, ttl := 9,
     len := BitVec.ofNat 10 bs.length, payload := bs } : Frame).seal

/-- The keys of the first unit of the Stacks are there. -/
def cl (s : State) : State := { s with ten := { s.ten with clean := [.stacksGroup 0] } }

/-- The receive context of that stream. -/
def rcv (ord : Bool) : RecvCtx := { sid := ⟨0x4801, 0x4800, ord, 1⟩, ipsn := 100, e := 103, cum := 103 }

def b5 (ord : Bool) : State := { b4 with trn := { b4.trn with recv := [rcv ord] } }

/-- A send context towards node 1. -/
def snd : SendCtx := { num := 7, sid := ⟨0x4800, 0x4801, false, 1⟩, state := .opened, ipsn := 100, next := 103 }
def fq (opc : BitVec 8) : FabReq := { id := 4, origin := .record, sid := ⟨0x4800, 0x4801, false, 1⟩, opc := opc, left := 1 }
/-- Its frame of PSN 102 is not yet answered. -/
def un (opc : BitVec 8) : Sent := { psn := 102, frame := { type := 0, src := 0x4800, dst := 0x4801, tenant := 1, opc := opc, psn := 102, len := 8 }, req := 4 }
def b6 (opc : BitVec 8) : State :=
  { b4 with trn := { b4.trn with send := [{ snd with unacked := [un opc] }], reqs := [fq opc] } }
def b7 (x : SendState) : State := { b4 with trn := { b4.trn with send := [{ snd with state := x }] } }

/-- Fabric port 72 is UP and leads to node 1. -/
def b8 (s : State) : State :=
  { setPort 72 { state := .up, width := 0 } s with fab := { s.fab with routes := [(1, [[72]])] }, ten := { s.ten with shared := true } }

/-- A running job of one entry. -/
def alm0 (ty g : BitVec 8) (arg : BitVec 64) (descs : List Bytes) : Almanac :=
  { slot := 0, job := 9, tenant := 1, format := 2, start := 0, period := 4000, iters := 0, slipQ := 50000, slipLead := 20000
    slipLimit := 3, shiftFva := 0, shiftKeyidx := 0, shiftKeytag := 0, members := [0, 8], descs := descs
    entries := [{ type := ty, guard := g, offset := 8, arg := arg }, { type := 5, guard := 3, offset := 4, arg := 1 }]
    digest := [], first := 0, state := .running, fired := [1] }
def b9 (a : Almanac) : State := { b4 with alm := [a] }

/-- An image of one NOP entry for job 9 of tenant 1, with its digest. -/
def img0 : Bytes :=
  [65, 76, 77, 78, 1, 0, 0, 0, 0, 0, 0, 9, 0, 1, 0, 0, 0, 0, 0, 0, 0, 12, 53, 0, 0, 0, 0, 0, 15, 160, 0, 0, 0, 0, 0, 0, 0, 0, 0, 1, 0, 0, 0, 1] ++
  List.replicate 36 0 ++
  [18, 96, 108, 224, 175, 29, 28, 244, 163, 218, 195, 156, 54, 13, 160, 250, 22, 239, 219, 75, 83, 27, 148, 175, 138, 249, 64, 221, 114, 61, 170, 162, 61, 59, 219, 219, 21, 76, 210, 225, 160, 82, 78, 134, 111, 147, 71, 201] ++ List.replicate 80 0

/-- MULTICAST of one byte of the Stacks to A-port 5. -/
def mc0 : Bytes := [9] ++ List.replicate 11 0 ++ [0x20] ++ List.replicate 18 0 ++ [1] ++ List.replicate 32 0
/-- The table of tenant 1 maps page 0 of endpoint 5. -/
def b10 (s : State) : State :=
  sysWrite 0 (leBytes 8 (1 + 5 * 8 + 2 ^ 45) ++ leBytes 8 (7 + 5 * 2 ^ 12)) (setWord (xltBase 0 + 0x100) 0x11 (setWord (epbBase 5 + 0x40) 0x2001 s))

/-- ALL_REDUCE of one chunk of INT32 by two members on plane 0. -/
def dsc0 : Bytes := [6, 5, 5, 1, 0, 0, 0, 4, 0, 0, 0, 0, 0, 128, 0, 0, 0, 2, 1, 0, 0, 0, 0, 1, 0, 0, 0, 1] ++ List.replicate 36 0
def mcast0 : Bytes := [3, 5, 5, 0, 0, 0, 0, 4, 0, 0, 0, 0, 0, 128, 0, 0, 0, 2, 1, 0, 0, 0, 0, 1, 0, 0, 0, 1] ++ List.replicate 36 0
/-- Its context with both members here. -/
def cx : Ctx :=
  { state := .idle, tenant := 1, role := .leafRoot, handle := 4, win64k := 1, celSet := some 0, members := [{ port := 5, index := 0 }, { port := 6, index := 1 }]
    hi := 1, ids := [5, 6], descr := dsc0 }
/-- The instance runs, with one member here. -/
def cAct : Ctx :=
  { cx with state := .active, seq := 1, ran := true, ref := dsc0.take 40, digest := some 7, agreed := true, members := [{ port := 5, index := 0, desc := dsc0 }] }
/-- An internal node with a child and a parent on other devices. -/
def cInt : Ctx :=
  { cx with state := .active, seq := 1, ran := true, role := .internal, ref := dsc0.take 40, members := [], parent := some 2, kids := [⟨1, 2, 3, false⟩], lo := 0, hi := 3 }
def bc (x : Ctx) (s : State) : State := { s with coll := { ctxs := [(6, x)] } }
def cm (op : BitVec 8) (k : Nat) (bs : Bytes) : AttMsg :=
  { opc := 7, atop := op, addr := BitVec.ofNat 64 (4 * 2 ^ 32 + k), len := BitVec.ofNat 13 bs.length, payload := bs }
/-- A collective frame of handle 4, and one of Repex Control. -/
def cf (opc : BitVec 8) (k lo hi : Nat) (bs : Bytes) : Frame :=
  ({ fr 0 opc 103 false (collMid 4 k lo hi) bs with first := true, last := true, red := opc != 0x41, atop := 6 } : Frame).seal
def tf (opc : BitVec 8) (bs : Bytes) : Frame :=
  ({ fr tCtl opc 0 false (collMid 4 0 0 0) bs with atop := if opc = 0x47 then 0x11 else if opc = 0x48 then 6 else 0x10 } : Frame).seal
/-- The member list lies in page 0 of endpoint 5. -/
def dscOpen : Bytes := dsc0.take 40 ++ beBytes 8 (5 * 2 ^ 48) ++ List.replicate 16 0
def prog0 : Bytes := [0x58, 0x46, 0x50, 0x52, 1, 1, 0, 0, 0, 1] ++ List.replicate 54 0 ++ [2] ++ List.replicate 15 0
def opn : TreeOpenSt := { tenant := 1, handle := 4, port := 5, reqId := 9, desc := dscOpen, wait := [1], listed := true }

/-- One MOVE; page 0 of FVA plane 0 of tenant 1 lies at offset 0 of the Stacks. -/
def mv0 : Move := { id := 3, origin := .almanac 9 0 2, tenant := 1, desc := copy0, engine := some 15, n := 2 ^ 21, src := 0x4800 * 2 ^ 48 + 2 ^ 44, dst := 0x4801 * 2 ^ 48 + 2 ^ 44 }
def rel0 : Bytes := [0x20] ++ List.replicate 7 0 ++ [0x80, 0, 0, 0, 0, 0, 0, 0, 0x48, 1, 0x10, 0, 0, 0, 0, 0, 0, 0, 0, 0, 0, 0x20, 0, 0] ++ List.replicate 32 0
def b11 (m : Move) : State :=
  { sysWrite 0 (leBytes 8 (5 + 2 ^ 45) ++ leBytes 8 (7 + 2 ^ 8 + 0x4800 * 2 ^ 12)) (setWord (xltBase 0 + 0x100) 0x11 b4) with
    mov := { moves := [m], nextMove := 4 }, ten := { b4.ten with shared := true, ten := [(0, { state := .active, tenant := 1 })] } }
def flt0 (m : Move) : State := { b11 { m with phase := .parked 63 } with mov := { moves := [{ m with phase := .parked 63 }], nextMove := 4, faults := [{ num := 63, key := pageKeyOf 1 0, since := 0 }] } }
/-- RELOCATE of one page of the Stacks to the next, with no window over them. -/
def rel1 : Bytes := [0x20] ++ List.replicate 7 0 ++ [0x80, 0, 0, 0, 0, 0, 0, 0, 0x48, 0, 0x10, 0, 0, 0x20, 0, 0, 0, 0, 0, 0, 0, 0x20, 0, 0] ++ List.replicate 32 0
def mv1 : Move := { mv0 with desc := rel1, src := 0x4800 * 2 ^ 48 + 2 ^ 44, dst := 0x4800 * 2 ^ 48 + 2 ^ 44 + 2 ^ 21 }
def b12 (m : Move) : State :=
  sysWrite 0x09000000 ([0x0F, 0x11, 0, 0, 0, 0, 0, 0] ++ List.replicate 8 0 ++ [0, 0, 0, 16, 0, 0, 0, 0] ++ List.replicate 8 0) (setWord (winOff 0) 0 (b11 m))
/-- A store held for that page. -/
def hst : HeldStore := { id := 40, frame := { type := 0, src := 0x4801, dst := 0x4800, opc := 2, len := 64, tenant := 1, mid := midOf (2 ^ 44) 0 0, payload := List.replicate 64 5 }, home := 72 }
/-- COPY of the last line of page 0 and the first of page 1 to the start of page 0. -/
def copy1 : Bytes := [0x21, 0, 0, 0, 0, 0, 0, 0, 0x80, 0, 0, 0, 0, 0x1F, 0xFF, 0x80, 0x80, 0, 0, 0, 0, 0, 0, 0, 0, 0, 0, 0, 0, 0, 1, 0] ++ List.replicate 32 0

/-! ### Ill-formed commands (WellFormed) -/

/-- An Attach message of 4,097 bytes (R32). -/
theorem test_wf_attach : Instr.wf (.write 0 { opc := 2, tag := 0, payload := List.replicate 4097 0 }) = false := by
  simp only [Instr.wf, AttMsg.wf, List.length_replicate]; decide

/-- A frame of 513 bytes (R125). -/
theorem test_wf_frame : Instr.wf (.req { frame := { type := 0, src := 0, dst := 0, payload := List.replicate 513 0 }, found := .clean }) = false := by
  simp only [Instr.wf, Frame.wf, List.length_replicate]; decide

/-- A TREE_OPEN_CTL with 4,097 members. -/
theorem test_wf_members : Instr.wf (.treeOpenCtl { type := 0, src := 0, dst := 0 } (List.replicate 4097 0)) = false := by
  simp only [Instr.wf, List.length_replicate]; decide

/-- A mailbox input of more than 48 MiB (R414). -/
theorem test_wf_dma : Instr.wf (.catWrite 0 (List.replicate 50331649 0)) = false := by
  simp only [Instr.wf, dmaWf, List.length_replicate]; decide

/-- An access of 3 bytes (R407). -/
theorem test_wf_size : Instr.wf (.registerWrite 0 3 0) = false ∧ Instr.wf (.rcRead 0 16) = false := by decide

/-- A bucket of 127 bytes and a region descriptor of 31 (R65, R73). -/
theorem test_wf_change :
    Instr.wf (.mappingChange 0 (.buckets 0 [(0, List.replicate 127 0)])) = false ∧
    Instr.wf (.mappingChange 0 (.region 0 0 (List.replicate 31 0))) = false := by
  simp only [Instr.wf, MapChange.wf, List.all_cons, List.length_replicate]; decide

/-- A relayed move descriptor of 63 bytes (R246). -/
theorem test_wf_relay : Instr.wf (.movSubmit 0 (.relayed 0 0 (List.replicate 63 0))) = false := by decide

/-- A CXL.mem write of 63 bytes. -/
theorem test_wf_line : Instr.wf (.cxlMemWrite 0 (List.replicate 63 0) .clean) = false := by decide

/-- A challenge of 31 bytes (R332). -/
theorem test_wf_challenge : Instr.wf (.debugUnlock 0 (List.replicate 31 0) 0 [] false) = false := by decide

/-- Boundaries one tick late (R359, R360, R396). -/
theorem test_wf_boundaries :
    Instr.wf (.powerBoundary 4000001 0 0 0) = false ∧ Instr.wf (.powerRiseBoundary 400000001 0) = false ∧
    Instr.wf (.healthScoreUpdate 4000000001) = false := by decide

/-! ### Numbers of the spec -/

/-- The worked example of R60: node 99's Stacks, SPACE 1, offset 73 GiB; the page is mapped as 1 GiB. -/
theorem test_fpa : (SlotW.mk 3 (0x9200 * 2 ^ 28 + 0x4863 * 2 ^ 12 + 2 ^ 8)).fpaOf 0xB000000200000000 = (0x4863, 0x101240000000) := by
  decide +kernel

/-- Its HPLANE is 3, and so is its required plane (R61). -/
theorem test_plane_memory : requiredPlane 0xB000000200000000 1 false false 0x365 0 = .plane 3 := by decide +kernel

/-- The ordered stream from endpoint 1,443 to 1,521 takes plane 6 (the example of chapter 6), and a COMB read of the tile of
the example after R72 takes plane 0 (R61). -/
theorem test_plane_stream : requiredPlane (1521 * 2 ^ 48) 2 false true 1443 0 = .plane 6 ∧
    requiredPlane 0x03880040001FF800 1 true false 0x365 0 = .plane 0 := by decide +kernel

/-- The tile of that example straddles two pages of 2 MiB (R65). -/
theorem test_pages : pagesOf 1 0x03880040001FF800 4096 =
    [pageKeyOf 1 0x03880040001FF800, pageKeyOf 1 0x0388004000200000] := by decide +kernel

/-- A WRITE of 4,096 bytes becomes eight frames, or nine where it starts 256 bytes past a boundary (R129). -/
theorem test_cut : (cutFrames 10 0 4096).map (·.2) = List.replicate 8 512 ∧
    (cutFrames 10 256 4096).map (·.2) = 256 :: (List.replicate 7 512 ++ [256]) := by decide +kernel

/-- 2^24 + 1 + 1 in FP32 by the tree of R213 stays 2^24. -/
theorem test_combine : combineVec add32 [[0x4B800000], [0x3F800000], [0x3F800000]] = [0x4B800000] := by decide +kernel

/-- The MXFP4 block of R219's example: 5.0, 0.3, −1.25 and 7.0. -/
theorem test_mxfp4 :
    (packMx 0x14 (fun _ => .rne) ([0x40A00000, 0x3E99999A, 0xBFA00000, 0x40E00000] ++ List.replicate 28 0)).bytes.take 3 = [0x7F, 0x16, 0x7A] ∧
    (packMx 0x14 (fun _ => .rne) ([0x40A00000, 0x3E99999A, 0xBFA00000, 0x40E00000] ++ List.replicate 28 0)).sats = 1 := by
  decide +kernel

/-- The four FADDs of R114's example return 1,000, 1,012, 1,019 and 1,049, and leave 1,054 (little-endian words). -/
theorem test_fadd : (faddReturns 0x01 (leBytes 8 1000) none [leBytes 8 12, leBytes 8 7, leBytes 8 30, leBytes 8 5]).map leNat = [1000, 1012, 1019, 1049] ∧
    leNat (atomicNew 0x01 (leBytes 8 1000) (leBytes 8 54)) = 1054 := by decide +kernel

/-- The first COMMIT writes, the second leaves its word (R119). -/
theorem test_commit : commitNew (leBytes 8 0) (leBytes 8 0x371) = leBytes 8 0x371 ∧
    commitNew (leBytes 8 0x371) (leBytes 8 0x3F3) = leBytes 8 0x371 := by decide +kernel

/-- The published check value of the CRC-16 with polynomial 0x1021, initial value 0xFFFF and no final XOR (R126). -/
theorem test_crc16 : crc16 [0x31, 0x32, 0x33, 0x34, 0x35, 0x36, 0x37, 0x38, 0x39] = 0x29B1 := by decide +kernel

/-- The published check value of the ECMA-182 CRC-64 with initial value and final XOR all ones, unreflected (R127). -/
theorem test_crc64 : crc64 [0x31, 0x32, 0x33, 0x34, 0x35, 0x36, 0x37, 0x38, 0x39] = 0x62EC59E3F1A4F00A := by decide +kernel

/-- The published SHA-384 of "abc", its first eight bytes. -/
theorem test_sha384 : (sha384 [0x61, 0x62, 0x63]).take 8 = [0xCB, 0x00, 0x75, 0x3F, 0x45, 0xA3, 0x5E, 0x8B] := by decide +kernel

/-- The published check values of CRC-32 (R33) and of the CRC-8 with polynomial 0x07 (R284). -/
theorem test_crc32 : crc32 [0x31, 0x32, 0x33, 0x34, 0x35, 0x36, 0x37, 0x38, 0x39] = 0xCBF43926 ∧
    crc8 [0x31, 0x32, 0x33, 0x34, 0x35, 0x36, 0x37, 0x38, 0x39] = 0xF4 := by decide +kernel

/-- Every sum of products with g(x) is a word of the code (R283), here a shortened one; one wrong symbol is not. -/
theorem test_rs : rsWord (rsEncode [1, 0, 0x3FF]) = true ∧ rsWord ((rsEncode [1, 0, 0x3FF]).set 1 5) = false := by decide +kernel

/-- A 552-byte frame fills 69 data blocks, and an encrypted one 72 (R281, R304). -/
theorem test_blocks : ceilDiv (frameUnit { type := 0, src := 0, dst := 0, payload := List.replicate 512 0 } false) 8 = 69 ∧
    ceilDiv (frameUnit { type := 0, src := 0, dst := 0, payload := List.replicate 512 0 } true) 8 = 72 := by decide +kernel

/-- CAPS comes back from its 29 bytes and its CRC (R290, R291). -/
theorem test_caps :
    let c : Caps := { role := 2, rates := 3, trev := 0x20, enc := 1, node := 99, port := 74, mode := 2, unitId := 77, lanes := 0x1FF }
    (linkContent (((linkGroupBlocks (capsContent c)).flatMap (·.bytes)).drop 1)).bind parseCaps = some c := by decide +kernel

/-! ### Single steps -/

/-- The state a step answers. -/
def after (s : State) : State := match step s with | .next t => t | _ => s

/-- A step takes the front command and leaves the rest (releasing SYS_RST_N starts the clocks, R368). -/
theorem test_step_queue : (after { State.reset with pending := [.porN false, .porN true] }).pending = [.porN true] := by decide +kernel

/-- A tick on an empty queue (log entry 3). -/
theorem test_step_tick : (after b0).time.count = 1 := by decide +kernel

/-- XLT_PLANE_OOS of the first cluster's translator is staged and not yet applied (the example of R413). -/
theorem test_stage : fieldOf (after { b1 with pending := [.registerWrite 0x01000010 4 8] }) 0x01000010 0 8 = 0 ∧
    (after { b1 with pending := [.registerWrite 0x01000010 4 8] }).hif.staging = [(0x01000010, 8)] := by decide +kernel

/-- ARM gives the staged value slot 0 with the commit tick T of the example of R413, and empties the staging set. -/
theorem test_arm :
    let t := after { setWord 0x60 0x007A1200 (setWord 0x64 0x2000 b1) with
      hif := { b1.hif with staging := [(0x01000010, 8)] }, time := { count := 0x0000200000001DB0 }, pending := [.arm] }
    t.hif.staging = [] ∧ (cmtSlot t 0).pending = true ∧ (cmtSlot t 0).tick = 0x00002000007A1200 := by decide +kernel

/-! ### The hypotheses of each statement are met -/

theorem wit_StepIdles : ∃ s : State, s.pending = [] := ⟨State.reset, rfl⟩

theorem wit_ClocksStopped : ∃ (c : Instr) (s : State), s.chip.running = false ∧
    (∀ l, c ≠ .porN l) ∧ (∀ l, c ≠ .sysRstN l) ∧ (∀ l, c ≠ .perstN l) :=
  ⟨.arm, State.reset, rfl, nofun, nofun, nofun⟩

theorem wit_FusesKept : ∃ (a : BitVec 64) (u : Nat) (s t : State), FusesBlown a u s ∧ step s = .next t :=
  ⟨1, 2, { State.reset with fuses := { State.reset.fuses with arb := 3, unlocks := 2 } }, _, ⟨by decide, by decide, by decide⟩, rfl⟩

theorem wit_FusesOnlyBlown : ∃ (c : Instr) (s t : State), (∀ a b d e f, c ≠ .debugUnlock a b d e f) ∧
    (∀ a b d, c ≠ .fwArbCommit a b d) ∧ exec c s = .next t :=
  ⟨.sysRstN false, b1, _, nofun, nofun, rfl⟩

theorem wit_RowsReach : ∃ (c : Instr) (s t : State), exec c s = .next t :=
  ⟨.iterationStart 9 0, b1, _, rfl⟩

theorem wit_RowsReachBytes : ∃ (c : Instr) (s t : State), pageReads s = false ∧ (reachOf c).mem = false ∧ exec c s = .next t :=
  ⟨.moveStart 15, b11 { mv0 with engine := none }, _, by decide +kernel, by decide +kernel, rfl⟩

theorem wit_RowsReachData : ∃ (c : Instr) (s t : State), AtRest s ∧ (reachOf c).data = false ∧ exec c s = .next t :=
  ⟨.powerBoundary 4000000 0 0 0, b1, _, by decide +kernel, by decide +kernel, rfl⟩

theorem wit_BadAddressMalformed :
  (∃ (s : State) (p : APort) (m : AttMsg) (i : Fin addressRows.length),
    AtRest s ∧ m.opc.toNat = (addressRows.get i).1 ∧ arrival s p m = .take ∧ portBound s p = true ∧ (sess s p).state = .up ∧ (sess s p).out = [] ∧ (sess s p).blocked = [] ∧ 2 ≤ (sess s p).rspCrd ∧ (sess s p).unacked = [] ∧ ((m.addr.toNat / 2 ^ 63 % 2 = 0 ∧ 0x47FF < m.addr.toNat / 2 ^ 48 % 2 ^ 15) ∨ (m.addr.toNat / 2 ^ 63 % 2 = 1 ∧ m.addr.toNat / 2 ^ 48 % 2 ^ 12 ≠ 0))) ∧
  (∃ (s : State) (p : APort) (m : AttMsg) (d : MoveDesc),
    AtRest s ∧ m.opc = 6 ∧ parseMove m.payload = d ∧ arrival s p m = .take ∧ portBound s p = true ∧ (sess s p).state = .up ∧ (sess s p).out = [] ∧ (sess s p).blocked = [] ∧ 2 ≤ (sess s p).rspCrd ∧ (sess s p).unacked = [] ∧ (((d.src / 2 ^ 63 % 2 = 0 ∧ 0x47FF < d.src / 2 ^ 48 % 2 ^ 15) ∨ (d.src / 2 ^ 63 % 2 = 1 ∧ d.src / 2 ^ 48 % 2 ^ 12 ≠ 0)) ∨ (d.op ≠ 0x20 ∧ ((d.dst / 2 ^ 63 % 2 = 0 ∧ 0x47FF < d.dst / 2 ^ 48 % 2 ^ 15) ∨ (d.dst / 2 ^ 63 % 2 = 1 ∧ d.dst / 2 ^ 48 % 2 ^ 12 ≠ 0))))) :=
  ⟨⟨b2, 5, { opc := 2, tag := 9, len := 2, addr := 0x8010000000000000, payload := [1, 2] }, ⟨1, by decide⟩, by decide +kernel⟩,
   ⟨b2, 5, { opc := 6, tag := 9, payload := [0x21, 0, 0, 0, 0, 0, 0, 0, 0x80] ++ List.replicate 7 0 ++ [0x48, 0, 0, 0, 0, 0, 0x10, 0, 0, 0, 0, 0, 0, 0, 0, 0x80] ++ List.replicate 32 0 }, ⟨0x21, 2 ^ 63, 0x4800000000001000, 128, 0, 0, 0, 0⟩, by decide +kernel⟩⟩

theorem wit_WrongPlaneMalformed :
  (∃ (s : State) (p : APort) (m : AttMsg) (i : Fin addressRows.length) (q : Nat),
    AtRest s ∧ m.opc.toNat = (addressRows.get i).1 ∧ arrival s p m = .take ∧ portBound s p = true ∧ (sess s p).state = .up ∧ (sess s p).out = [] ∧ (sess s p).blocked = [] ∧ 2 ≤ (sess s p).rspCrd ∧ (sess s p).unacked = [] ∧ reqFormat m = true ∧ fvaOk m.addr.toNat = true ∧ requiredPlane m.addr.toNat (addressRows.get i).1 m.comb (portFifo s p) (slotEp s p) (planeMask s p) = .plane q ∧ q ≠ s.fab.plane.toNat) ∧
  (∃ (s : State) (p : APort) (m : AttMsg) (q : Nat),
    AtRest s ∧ arrival s p m = .take ∧ portBound s p = true ∧ (sess s p).state = .up ∧ (sess s p).out = [] ∧ (sess s p).blocked = [] ∧ 2 ≤ (sess s p).rspCrd ∧ (sess s p).unacked = [] ∧ m.opc = 6 ∧ reqFieldsOk m = true ∧ m.len = 0 ∧ m.atop = 0 ∧ moveFormat m.payload = true ∧ moveFvas (parseMove m.payload) = true ∧ (parseMove m.payload).plane = some q ∧ q ≠ s.fab.plane.toNat) :=
  ⟨⟨b2, 5, { opc := 4, tag := 9, len := 8, addr := 0x1000000001000, atop := 1, payload := [1, 2, 3, 4, 5, 6, 7, 8] }, ⟨3, by decide⟩, 1, by decide +kernel⟩,
   ⟨{ b2 with fab := { b2.fab with plane := 3 } }, 5, { opc := 6, tag := 9, payload := copy0 }, 0, by decide +kernel⟩⟩

theorem wit_MailboxChecks :
  (∃ (s : State) (i : Fin mailboxRows.length) (c : Chan) (dma : Bytes) (inp : Bytes),
    AtRest s ∧ (chan s c).busy = true ∧ (chan s c).started = false ∧ (chan s c).lost = false ∧ (chan s c).opcode.toNat = (mailboxRows.get i).1 ∧ mgmtRuns s = true ∧ (((mailboxRows.get i).1 = 0x30 → coreSt s coreSched = .running)) ∧ mbxInput (chan s c) ((mailboxRows.get i).2.1 dma) = inp ∧ mbxState s (mailboxRows.get i).1 inp = false) ∧
  (∃ (s : State) (i : Fin mailboxRows.length) (c : Chan) (dma : Bytes) (inp : Bytes),
    AtRest s ∧ (chan s c).busy = true ∧ (chan s c).started = false ∧ (chan s c).lost = false ∧ (chan s c).opcode.toNat = (mailboxRows.get i).1 ∧ mgmtRuns s = true ∧ (((mailboxRows.get i).1 = 0x30 → coreSt s coreSched = .running)) ∧ mbxInput (chan s c) ((mailboxRows.get i).2.1 dma) = inp ∧ mbxState s (mailboxRows.get i).1 inp = true ∧ (mbxSizeOk (chan s c) = false ∨ mbxLenOk (mailboxRows.get i).1 (chan s c).inLen.toNat = false)) ∧
  (∃ (s : State) (i : Fin mailboxRows.length) (c : Chan) (dma : Bytes) (inp : Bytes),
    AtRest s ∧ (chan s c).busy = true ∧ (chan s c).started = false ∧ (chan s c).lost = false ∧ (chan s c).opcode.toNat = (mailboxRows.get i).1 ∧ mgmtRuns s = true ∧ (((mailboxRows.get i).1 = 0x30 → coreSt s coreSched = .running)) ∧ mbxInput (chan s c) ((mailboxRows.get i).2.1 dma) = inp ∧ mbxState s (mailboxRows.get i).1 inp = true ∧ (mbxSizeOk (chan s c) = true ∧ mbxLenOk (mailboxRows.get i).1 (chan s c).inLen.toNat = true) ∧ s.fw.agreed = none ∧ mbxBefore (mailboxRows.get i).1 inp = false) ∧
  (∃ (s : State) (i : Fin mailboxRows.length) (c : Chan) (dma : Bytes) (inp : Bytes) (feats : BitVec 64) (b : Nat),
    AtRest s ∧ (chan s c).busy = true ∧ (chan s c).started = false ∧ (chan s c).lost = false ∧ (chan s c).opcode.toNat = (mailboxRows.get i).1 ∧ mgmtRuns s = true ∧ (((mailboxRows.get i).1 = 0x30 → coreSt s coreSched = .running)) ∧ mbxInput (chan s c) ((mailboxRows.get i).2.1 dma) = inp ∧ mbxState s (mailboxRows.get i).1 inp = true ∧ (mbxSizeOk (chan s c) = true ∧ mbxLenOk (mailboxRows.get i).1 (chan s c).inLen.toNat = true) ∧ s.fw.agreed = some feats ∧ mbxFeature (mailboxRows.get i).1 inp = some b ∧ feats.getLsbD b = false) ∧
  (∃ (s : State) (i : Fin mailboxRows.length) (c : Chan) (dma : Bytes) (inp : Bytes),
    AtRest s ∧ (chan s c).busy = true ∧ (chan s c).started = false ∧ (chan s c).lost = false ∧ (chan s c).opcode.toNat = (mailboxRows.get i).1 ∧ mgmtRuns s = true ∧ (((mailboxRows.get i).1 = 0x30 → coreSt s coreSched = .running)) ∧ mbxInput (chan s c) ((mailboxRows.get i).2.1 dma) = inp ∧ mbxState s (mailboxRows.get i).1 inp = true ∧ (mbxSizeOk (chan s c) = true ∧ mbxLenOk (mailboxRows.get i).1 (chan s c).inLen.toNat = true) ∧ (match s.fw.agreed with | none => mbxBefore (mailboxRows.get i).1 inp | some feats => (match mbxFeature (mailboxRows.get i).1 inp with | some b => feats.getLsbD b | none => true)) = true ∧ mbxConflict s c (mailboxRows.get i).1 inp = true) ∧
  (∃ (s : State) (off : BitVec 26) (v : BitVec 32) (c : Nat),
    AtRest s ∧ barReach s = true ∧ s.fab.state ≠ .recovery ∧ off.toNat % 4 = 0 ∧ locate off.toNat = some (.mbx c, 0) ∧ v.getLsbD 0 = true ∧ (chan s c).busy = false ∧ mbxKnown (chan s c).opcode.toNat = false ∧ mbxState s (chan s c).opcode.toNat [] = true) :=
  ⟨⟨(cmd 0x20 [0, 1] { b1 with fab := { b1.fab with state := .recovery } }), ⟨12, by decide⟩, 0, [], [0, 1], by decide +kernel⟩,
   ⟨(cmd 0x22 [0] b1), ⟨14, by decide⟩, 0, [], [0], by decide +kernel⟩,
   ⟨(cmd 0x22 [0, 1] { b1 with fw := { b1.fw with agreed := none } }), ⟨14, by decide⟩, 0, [], [0, 1], by decide +kernel⟩,
   ⟨(cmd 0x22 [0, 1] { b1 with fw := { b1.fw with agreed := some 0xFF } }), ⟨14, by decide⟩, 0, [], [0, 1], 0xFF, 9, by decide +kernel⟩,
   ⟨(let s := cmd 0x10 ([0, 2, 1, 0xFF] ++ List.replicate 20 0) b1; setChan 1 { busy := true, started := true, opcode := 0x11, named := [0, 2] } s), ⟨8, by decide⟩, 0, [], ([0, 2, 1, 0xFF] ++ List.replicate 20 0), by decide +kernel⟩,
   ⟨(setChan 3 { opcode := 0x99 } b1), BitVec.ofNat 26 (mbxBase 3), 1, 3, by decide +kernel⟩⟩

theorem wit_ScheduledFrameDemoted :
  (∃ (s : State) (p : Port) (f : Frame) (line : LineIn) (e : Nat) (g : Frame),
    AtRest s ∧ (portSt s p).state = .up ∧ isFabricPort s p = true ∧ f.hcrcOk = true ∧ (portSt s p).late = false ∧ ((portSt s p).delin = true ∨ line.idle = true ∨ regains f = true) ∧ ((portSt s p).enc = false ∨ encOk (portSt s p) line = true) ∧ s.ten.shared = true ∧ f.red = false ∧ f.cls = 1 ∧ 1 < f.ttl.toNat ∧ epNode s f.dst.toNat ≠ some (nodeId s) ∧ g = ({ f with ttl := f.ttl - 1 } : Frame).reseal ∧ egressFor s g = some e ∧ windowOpen s e f.tenant.toNat = false ∧ hasRoom s f.tenant.toNat g.cells = true ∧ ((∀ n ∈ List.range 8, bitAt s (mirOff n) 0 = false))) :=
  ⟨(setPort 73 { state := .up, width := 0 } (b8 b4)), 73, ({ (fr 2 0 5 false 0 []) with dst := 0x4801, cls := 1 } : Frame).seal, ⟨false, 0, false⟩, 72, (({ (fr 2 0 5 false 0 []) with dst := 0x4801, cls := 1, ttl := 8 } : Frame).seal), by decide +kernel⟩

theorem wit_PortTrains :
  (∃ (s : State) (p : Port) (lanes : BitVec 9),
    s.chip.running = true ∧ (portSt s p).state = .detect ∧ clusterRuns s p = true ∧ (portSt s p).refused = false ∧ (portSt s p).lightOff = false ∧ lasersOn s p = true ∧ dieLost s p = false ∧ 2 ≤ popCount 9 (Nat.land lanes.toNat (laneMask s p))) ∧
  (∃ (s : State) (p : Port) (lane : Fin 9),
    s.chip.running = true ∧ (portSt s p).state ≠ .disabled ∧ (portSt s p).state ≠ .detect ∧ (laneMask s p).testBit lane = true ∧ (portSt s p).off.getLsbD lane = false) ∧
  (∃ (s : State) (p : Port),
    s.chip.running = true ∧ (portSt s p).state = .equalise ∧ clusterRuns s p = true ∧ (retimerOn s p && (portSt s p).present && !(portSt s p).rtLock) = false ∧ 2 ≤ popCount 9 (portSt s p).able.toNat) ∧
  (∃ (s : State) (p : Port),
    s.chip.running = true ∧ (portSt s p).state = .equalise ∧ retimerOn s p = true ∧ (portSt s p).present = true ∧ (portSt s p).rtLock = false) ∧
  (∃ (s : State) (p : Port) (lanes : BitVec 9) (w : Nat),
    s.chip.running = true ∧ (portSt s p).state = .align ∧ clusterRuns s p = true ∧ alignWidth s p (lanes &&& (portSt s p).able).toNat = w ∧ minLanes s p ≤ w ∧ 2 ≤ w) ∧
  (∃ (s : State) (p : Port) (ready : Bool),
    s.chip.running = true ∧ (((portSt s p).state = .negotiate ∧ ((portSt s p).peerAccepted = false ∨ ready = false)) ∨ (portSt s p).state = .align)) ∧
  (∃ (s : State) (p : Port) (cp : Caps),
    s.chip.running = true ∧ (portSt s p).state = .negotiate ∧ clusterRuns s p = true ∧ capsRefusal s p cp = none) ∧
  (∃ (s : State) (p : Port),
    s.chip.running = true ∧ (portSt s p).state = .keying) ∧
  (∃ (s : State) (p : Port),
    s.chip.running = true ∧ (portSt s p).state = .negotiate ∧ clusterRuns s p = true ∧ (portSt s p).peerAccepted = true) ∧
  (∃ (s : State) (p : Port) (cp : Caps) (why : Nat × Bool),
    s.chip.running = true ∧ (portSt s p).state = .negotiate ∧ clusterRuns s p = true ∧ capsRefusal s p cp = some why) ∧
  (∃ (s : State) (p : Port),
    s.chip.running = true ∧ (portSt s p).state = .up ∧ (egOf s p).rekeying = true) :=
  ⟨⟨(lit (setPort 72 {state := .detect} b0)), 72, 3, by decide +kernel⟩,
   ⟨(setPort 72 {state := .equalise} b0), 72, 8, by decide +kernel⟩,
   ⟨(setPort 72 {state := .equalise, signal := 7, locked := 3} b0), 72, by decide +kernel⟩,
   ⟨setField (prtBase 71) 3 1 1 (setPort 71 {state := .equalise, signal := 7, locked := 3, present := true} b0), 71, by decide +kernel⟩,
   ⟨(setPort 72 {state := .align, locked := 0xFF, signal := 0xFF} b0), 72, 0x1FF, 8, by decide +kernel⟩,
   ⟨(setPort 72 {state := .negotiate} b0), 72, true, by decide +kernel⟩,
   ⟨(setPort 72 {state := .negotiate} b0), 72, { role := 2, rates := 3, trev := 0x20, enc := 0, node := 8, port := 72, mode := 2, unitId := 5, lanes := 0xFF }, by decide +kernel⟩,
   ⟨(setPort 72 {state := .keying} b0), 72, by decide +kernel⟩,
   ⟨(setPort 72 {state := .negotiate, peerAccepted := true} b0), 72, by decide +kernel⟩,
   ⟨(setPort 72 {state := .negotiate} b0), 72, { role := 3, rates := 3, trev := 0x20, enc := 0, node := 8, port := 72, mode := 2, unitId := 5, lanes := 0xFF }, (evPrtRoleFail, true), by decide +kernel⟩,
   ⟨(modEg 72 (fun q => { q with rekeying := true }) (setPort 72 {state := .up, active := 0xFF, locked := 0xFF, width := 0, enc := true, keyed := true} b0)), 72, by decide +kernel⟩⟩

theorem wit_PortFallsBack :
  (∃ (s : State) (p : Port),
    s.chip.running = true ∧ (portSt s p).state = .keying) ∧
  (∃ (s : State) (p : Port) (b : PortBound),
    s.chip.running = true ∧ ((((portSt s p).state = .equalise ∨ (portSt s p).state = .align ∨ (portSt s p).state = .negotiate ∨ (portSt s p).state = .keying) ∧ clusterRuns s p = true) ∨ (portSt s p).state = .recover ∨ ((portSt s p).state = .up ∧ b ≠ .stateBound))) ∧
  (∃ (s : State),
    s.chip.running = true) ∧
  (∃ (s : State) (p : Port),
    s.chip.running = true ∧ (portSt s p).state = .detect ∧ (portSt s p).signal = 0) ∧
  (∃ (s : State) (p : Port),
    s.chip.running = true ∧ (portSt s p).state ≠ .disabled) ∧
  (∃ (s : State) (p : Port),
    s.chip.running = true ∧ powerRuns s = true ∧ s.pwr.level = 3 ∧ ((portSt s p).state = .up ∨ (portSt s p).state = .recover) ∧ capLanes s p < lanesOf (portSt s p).width.toNat) ∧
  (∃ (s : State) (p : Port) (reason : BitVec 8) (n : BitVec 11),
    AtRest s ∧ linkRuns s p = true ∧ (portSt s p).peerNode = some n ∧ 2 ≤ reason.toNat ∧ reason.toNat ≤ 4 ∧ s.coll.ctxs = [] ∧ s.coll.opens = []) :=
  ⟨⟨(setPort 72 {state := .keying} b0), 72, by decide +kernel⟩,
   ⟨(setPort 72 {state := .align} b0), 72, .stateBound, by decide +kernel⟩,
   ⟨(setPort 72 {state := .detect, refused := true} b0), by decide +kernel⟩,
   ⟨(setPort 72 {state := .detect} b0), 72, by decide +kernel⟩,
   ⟨(setPort 72 {state := .align} b0), 72, by decide +kernel⟩,
   ⟨{ setField (prtBase 72) 9 2 1 (setPort 72 {state := .up, active := 0xFF, locked := 0xFF, width := 0} b0) with pwr := { level := 3 }, fw := { booted := true } }, 72, by decide +kernel⟩,
   ⟨(setPort 72 {state := .up, peerNode := some 8} b0), 72, 2, 8, by decide +kernel⟩⟩

theorem wit_PortLanes :
  (∃ (s : State) (p : Port) (lane : Fin 9),
    s.chip.running = true ∧ (portSt s p).state ≠ .disabled ∧ (portSt s p).state ≠ .detect ∧ (portSt s p).state ≠ .recover ∧ (portSt s p).locked.getLsbD lane = true ∧ (portSt s p).active.getLsbD lane = false) ∧
  (∃ (s : State) (p : Port) (lane : Fin 9) (c : LaneChange),
    s.chip.running = true ∧ (portSt s p).state = .up ∧ (portSt s p).locked.getLsbD lane = true ∧ (portSt s p).active.getLsbD lane = false ∧ (portSt s p).change = some c ∧ c.mask.getLsbD lane = true ∧ (portSt s p).narrowDue = false) ∧
  (∃ (s : State) (p : Port) (lane : Fin 9) (errored : List Bool),
    s.chip.running = true ∧ (portSt s p).state = .up ∧ (portSt s p).active.getLsbD lane = true ∧ (portSt s p).delin = true ∧ unitFate (!isFabricPort s p) errored = .undelineated) ∧
  (∃ (s : State) (p : Port) (lane : Fin 9) (errored : List Bool),
    s.chip.running = true ∧ (portSt s p).state = .up ∧ (portSt s p).active.getLsbD lane = true ∧ (portSt s p).delin = true ∧ unitFate (!isFabricPort s p) errored = .inverted) ∧
  (∃ (s : State) (p : Port) (w : WidthMsg) (c : LaneChange),
    s.chip.running = true ∧ (portSt s p).state = .up ∧ w.op ≠ 4 ∧ w.ok = true ∧ (portSt s p).change = some c ∧ c.op = w.op.toNat ∧ c.mask = w.mask ∧ c.group = w.group) ∧
  (∃ (s : State) (p : Port) (lane : Fin 9),
    s.chip.running = true ∧ (portSt s p).state = .up ∧ (portSt s p).change = none ∧ (portSt s p).active.getLsbD lane = true ∧ clusterRuns s p = true ∧ spareFree (portSt s p) = true) ∧
  (∃ (s : State) (p : Port) (c : LaneChange),
    s.chip.running = true ∧ (portSt s p).change = some c ∧ (portSt s p).narrowDue = false) ∧
  (∃ (s : State) (p : Port),
    s.chip.running = true ∧ (portSt s p).state = .up) ∧
  (∃ (s : State) (p : Port) (lane : Fin 9) (x : PortSt),
    s.chip.running = true ∧ (portSt s p).state = .up ∧ (portSt s p).locked.getLsbD lane = true ∧ (portSt s p).active.getLsbD lane = true ∧ x = { portSt s p with locked := (portSt s p).locked &&& ~~~(BitVec.ofNat 9 (2 ^ lane.val)) } ∧ 2 ≤ popCount 9 (recoverMask (setPort p x s) p)) ∧
  (∃ (s : State) (p : Port) (lane : Fin 9) (x : PortSt),
    s.chip.running = true ∧ ((portSt s p).state = .up ∨ (portSt s p).state = .recover) ∧ (portSt s p).locked.getLsbD lane = true ∧ (portSt s p).active.getLsbD lane = true ∧ x = { portSt s p with locked := (portSt s p).locked &&& ~~~(BitVec.ofNat 9 (2 ^ lane.val)) } ∧ popCount 9 (recoverMask (setPort p x s) p) < 2) ∧
  (∃ (s : State) (p : Port) (lane : Fin 9) (k : Cnt),
    AtRest s ∧ (portSt s p).state ≠ .disabled ∧ (portSt s p).state ≠ .detect ∧ k = cntLnkUeCwCnt p lane) ∧
  (∃ (s : State) (p : Port) (w : WidthMsg) (n : Nat),
    s.chip.running = true ∧ (portSt s p).state = .up ∧ w.ok = false ∧ (portSt s p).change = none ∧ w.mask &&& ~~~(portSt s p).locked = 0 ∧ n = popCount 9 w.mask.toNat ∧ (n = 8 ∨ n = 4 ∨ n = 2) ∧ ((w.op = 1 ∧ n = lanesOf (portSt s p).width.toNat) ∨ (w.op = 2 ∧ n < lanesOf (portSt s p).width.toNat) ∨ (w.op = 3 ∧ lanesOf (portSt s p).width.toNat < n))) ∧
  (∃ (s : State) (p : Port) (w : WidthMsg) (n : Nat),
    s.chip.running = true ∧ (portSt s p).state = .recover ∧ w.op = 4 ∧ w.mask &&& ~~~(portSt s p).locked = 0 ∧ n = popCount 9 w.mask.toNat ∧ (n = 8 ∨ n = 4 ∨ n = 2)) ∧
  (∃ (s : State) (p : Port) (lane : Fin 9) (n : Nat),
    s.chip.running = true ∧ (portSt s p).state = .up ∧ (portSt s p).change = none ∧ (portSt s p).active.getLsbD lane = true ∧ clusterRuns s p = true ∧ spareFree (portSt s p) = false ∧ n = widest (popCount 9 ((portSt s p).active.toNat - 2 ^ lane.val)) ∧ n ≠ 0) ∧
  (∃ (s : State) (p : Port) (lane : Fin 9),
    s.chip.running = true ∧ (portSt s p).state = .up ∧ (portSt s p).change = none ∧ (portSt s p).active.getLsbD lane = true ∧ clusterRuns s p = false) ∧
  (∃ (s : State) (p : Port) (c : LaneChange),
    s.chip.running = true ∧ (portSt s p).change = some c ∧ (portSt s p).narrowDue = true ∧ (portSt s p).state = .up ∧ c.agreed = true ∧ capLanes s p < lanesOf (widthCode (popCount 9 c.mask.toNat)).toNat) ∧
  (∃ (s : State) (p : Port) (lanes : BitVec 9) (u : Nat) (n : Nat),
    s.chip.running = true ∧ (portSt s p).state = .up ∧ clusterRuns s p = true ∧ autoWiden s p = true ∧ (portSt s p).change = none ∧ u = Nat.lor (portSt s p).active.toNat (Nat.land (Nat.land (lanes &&& ~~~(portSt s p).off).toNat (laneMask s p)) 0xFF) ∧ n = Nat.min (widest (popCount 9 u)) (capLanes s p) ∧ lanesOf (portSt s p).width.toNat < n) :=
  ⟨⟨(setPort 72 {state := .up, active := 0xFF, locked := 0x1FF} b0), 72, 8, by decide +kernel⟩,
   ⟨(setPort 72 {state := .up, active := 0xFF, locked := 0x1FF, width := 0, change := some { op := 1, mask := 0x1FE, group := 9, agreed := true }} b0), 72, 8, { op := 1, mask := 0x1FE, group := 9, agreed := true }, by decide +kernel⟩,
   ⟨(setPort 72 {state := .up, active := 0xFF, locked := 0xFF, width := 0} b0), 72, 7, [true, false], by decide +kernel⟩,
   ⟨{ (setPort 72 {state := .up, active := 0xFF, locked := 0xFF, width := 0} b0) with fab := { modes := List.replicate 11 2 } }, 72, 7, (List.replicate 8 false ++ [true]), by decide +kernel⟩,
   ⟨(setPort 72 {state := .up, active := 0xFF, locked := 0xFF, width := 0, change := some { op := 2, mask := 0xF, group := 9 }} b0), 72, { op := 2, mask := 0xF, group := 9, ok := true }, { op := 2, mask := 0xF, group := 9 }, by decide +kernel⟩,
   ⟨(setPort 72 {state := .up, active := 0xFF, locked := 0x1FF, width := 0} b0), 72, 7, by decide +kernel⟩,
   ⟨(setPort 72 {state := .up, active := 0xFF, locked := 0xFF, width := 0, change := some { op := 2, mask := 0xF, group := 9, agreed := true }} b0), 72, { op := 2, mask := 0xF, group := 9, agreed := true }, by decide +kernel⟩,
   ⟨setField (prtBase 72) 8 1 0 (setPort 72 {state := .up, active := 0xF, locked := 0xF} b0), 72, by decide +kernel⟩,
   ⟨(setPort 72 {state := .up, active := 0xFF, locked := 0x1F, width := 0} b0), 72, 4, { state := .up, active := 0xFF, width := 0, locked := 0xF }, by decide +kernel⟩,
   ⟨(setPort 72 {state := .up, active := 3, locked := 3, width := 2} b0), 72, 0, { state := .up, active := 3, locked := 2, width := 2 }, by decide +kernel⟩,
   ⟨(setPort 72 {state := .up, active := 0xFF, locked := 0xFF, width := 0} b0), 72, 7, (cntLnkUeCwCnt 72 7), by decide +kernel⟩,
   ⟨(setPort 72 {state := .up, active := 0xFF, locked := 0xFF, width := 0} b0), 72, { op := 2, mask := 0xF, group := 9, ok := false }, 4, by decide +kernel⟩,
   ⟨(setPort 72 {state := .recover, active := 0xFF, locked := 0xFF, width := 0} b0), 72, { op := 4, mask := 0xF, group := 0, ok := false }, 4, by decide +kernel⟩,
   ⟨(setPort 72 {state := .up, active := 7, locked := 7, width := 0} b0), 72, 1, 2, by decide +kernel⟩,
   ⟨(setCore 16 .inReset (setPort 72 {state := .up, active := 0xFF, locked := 0xFF, width := 0} b0)), 72, 1, by decide +kernel⟩,
   ⟨(setField (prtBase 72) 9 2 1 (setPort 72 {state := .up, active := 0xFF, locked := 0xFF, width := 0, narrowDue := true, change := some { op := 1, mask := 0xFF, group := 9, agreed := true }} b0)), 72, { op := 1, mask := 0xFF, group := 9, agreed := true }, by decide +kernel⟩,
   ⟨setField (prtBase 72) 8 1 1 (setPort 72 {state := .up, active := 0xF, locked := 0xF, width := 1} b0), 72, 0xF0, 0xFF, 8, by decide +kernel⟩⟩

theorem wit_PortLinkGroups :
  (∃ (s : State) (p : Port) (cf : Coeff),
    s.chip.running = true ∧ cf.reply = 0 ∧ cf.req ≠ 0 ∧ (¬(cf.req = 2 ∧ (tapsOf (portSt s p) cf.lane).getD (cf.tap.toNat % 4) 0 = 0x7F)) ∧ (¬(cf.req = 3 ∧ (tapsOf (portSt s p) cf.lane).getD (cf.tap.toNat % 4) 0 = 0x80)) ∧ coeffLane (portSt s p) cf.lane = true ∧ (laneMask s p).testBit cf.lane = true ∧ tapsOk (coeffAsk (tapsOf (portSt s p) cf.lane) cf) = true) ∧
  (∃ (s : State) (p : Port),
    s.chip.running = true ∧ (portSt s p).enc = true ∧ (portSt s p).keyed = true ∧ (portSt s p).state = .up ∧ (portSt s p).change = none ∧ (egOf s p).rekeying = false) ∧
  (∃ (s : State),
    s.chip.running = true) ∧
  (∃ (s : State) (p : Port),
    s.chip.running = true ∧ ((portSt s p).state = .align ∨ (portSt s p).state = .negotiate ∨ (portSt s p).state = .keying ∨ (portSt s p).state = .up)) ∧
  (∃ (s : State) (p : Port) (cf : Coeff),
    s.chip.running = true ∧ cf.reply = 0 ∧ cf.req ≠ 0 ∧ coeffLane (portSt s p) cf.lane = true ∧ (laneMask s p).testBit cf.lane = true ∧ tapsOk (coeffAsk (tapsOf (portSt s p) cf.lane) cf) = false) ∧
  (∃ (s : State) (cf : Coeff),
    s.chip.running = true ∧ cf.reply ≠ 0) ∧
  (∃ (s : State) (p : Port),
    s.chip.running = true ∧ (portSt s p).enc = true ∧ (portSt s p).keyed = true ∧ ((portSt s p).state = .recover ∨ ((portSt s p).state = .up ∧ (portSt s p).change ≠ none)) ∧ (egOf s p).rekeying = false) :=
  ⟨⟨(setPort 72 {state := .equalise} b0), 72, { lane := 8, req := 2, tap := 0, preset := 0, reply := 0 }, by decide +kernel⟩,
   ⟨(setPort 72 {state := .up, active := 0xFF, locked := 0xFF, width := 0, enc := true, keyed := true} b0), 72, by decide +kernel⟩,
   ⟨(setPort 72 {state := .up, active := 0xFF, locked := 0xFF, width := 0, oldKey := true} b0), by decide +kernel⟩,
   ⟨(setPort 72 {state := .negotiate} b0), 72, by decide +kernel⟩,
   ⟨(setPort 72 {state := .equalise, taps := [(8, [0, 0, 70, 0])]} b0), 72, { lane := 8, req := 2, tap := 2, preset := 0, reply := 0 }, by decide +kernel⟩,
   ⟨(setPort 72 {state := .equalise} b0), { lane := 8, req := 2, tap := 0, preset := 0, reply := 1 }, by decide +kernel⟩,
   ⟨(setPort 72 {state := .recover, active := 0xFF, locked := 0xFF, width := 0, enc := true, keyed := true} b0), 72, by decide +kernel⟩⟩

theorem wit_RetimersAndLasers :
  (∃ (s : State) (p : APort),
    s.chip.running = true ∧ retimerOn s p = true ∧ clusterRuns s p = true ∧ mgmtUp s = true) ∧
  (∃ (s : State) (p : APort),
    s.chip.running = true ∧ retimerOn s p = true ∧ clusterRuns s p = true ∧ mgmtUp s = true ∧ (portSt s p).state = .detect) ∧
  (∃ (s : State) (p : Port),
    s.chip.running = true ∧ isOptical s p = true ∧ (portSt s p).state ≠ .disabled ∧ (portSt s p).lightOff = false) ∧
  (∃ (s : State) (p : Port),
    s.chip.running = true ∧ (portSt s p).lightOff = true ∧ lasersOn s p = true) ∧
  (∃ (s : State) (p : Port),
    s.chip.running = true ∧ (portSt s p).lightOff = true) ∧
  (∃ (s : State),
    s.chip.running = true) ∧
  (∃ (s : State),
    s.chip.running = true) :=
  ⟨⟨setField (prtBase 71) 3 1 1 b0, 71, by decide +kernel⟩,
   ⟨setField (prtBase 71) 3 1 1 (setPort 71 {state := .detect} b0), 71, by decide +kernel⟩,
   ⟨(setPort 87 {state := .up, active := 0xFF, locked := 0xFF, width := 0} b0), 87, by decide +kernel⟩,
   ⟨(lit (setPort 87 {state := .detect, lightOff := true} b0)), 87, by decide +kernel⟩,
   ⟨(setPort 87 {state := .detect, lightOff := true} b0), 87, by decide +kernel⟩,
   ⟨b0, by decide +kernel⟩,
   ⟨b0, by decide +kernel⟩⟩

theorem wit_FabricTimeRows :
  (∃ (s : State) (p : Port),
    s.chip.running = true ∧ isFabricPort s p = true) ∧
  (∃ (s : State) (p : Port),
    s.chip.running = true ∧ ((portSt s p).state = .align ∨ (portSt s p).state = .negotiate ∨ (portSt s p).state = .keying ∨ (portSt s p).state = .up ∨ (portSt s p).state = .recover)) ∧
  (∃ (s : State) (errPs : BitVec 16),
    s.chip.running = true ∧ servoOn s = true ∧ (s.time.servo = .acquire ∨ s.time.servo = .holdover ∨ s.time.servo = .unlocked) ∧ timeSource s = true ∧ (s.time.isGm = true ∨ (servoInput s).natAbs < usQuarters) ∧ errPs.toNat ≤ 750) ∧
  (∃ (s : State),
    s.chip.running = true ∧ s.time.isGm = false ∧ servoOn s = true ∧ s.time.servo = .locked) ∧
  (∃ (s : State) (now : Tick),
    s.chip.running = true ∧ servoOn s = true ∧ s.time.servo = .holdover ∧ s.time.started = true ∧ s.time.count ≤ now ∧ 750 < Nat.min 65535 (s.time.errPs.toNat + (now.toNat - s.time.holdAt) / 80000)) ∧
  (∃ (s : State) (states : List (BitVec 3)) (n : Nat),
    s.chip.running = true ∧ s.fab.plane = 0 ∧ gmChosen states s = some n) ∧
  (∃ (s : State),
    s.chip.running = true ∧ s.fab.plane = 0) ∧
  (∃ (s : State),
    s.chip.running = true ∧ s.time.broken = false) ∧
  (∃ (s : State) (stamp : Tick),
    s.chip.running = true ∧ servoOn s = true ∧ s.time.isGm = true ∧ bitAt s ftmBase 1 = true ∧ s.time.servo ≠ .acquire ∧ stamp.toNat % 4000000000 < 2000000000) ∧
  (∃ (s : State),
    s.chip.running = true ∧ s.time.isGm = true ∧ bitAt s ftmBase 1 = true) ∧
  (∃ (s : State) (now : Tick),
    s.chip.running = true ∧ s.time.started = true ∧ s.time.count ≤ now) ∧
  (∃ (s : State),
    s.chip.running = true) ∧
  (∃ (s : State) (p : Port),
    s.chip.running = true ∧ isFabricPort s p = false) ∧
  (∃ (s : State),
    s.chip.running = true ∧ s.fab.plane ≠ 0) :=
  ⟨⟨b0, 72, by decide +kernel⟩,
   ⟨(setPort 72 {state := .up} b0), 72, by decide +kernel⟩,
   ⟨setField ftmBase 0 1 1 { b0 with time := { servo := .acquire, isGm := true } }, 750, by decide +kernel⟩,
   ⟨setField ftmBase 0 1 1 { b0 with time := { servo := .locked, parent := 72 } }, by decide +kernel⟩,
   ⟨setField ftmBase 0 1 1 { b0 with time := { servo := .holdover, started := true, errPs := 700 } }, 4080000, by decide +kernel⟩,
   ⟨setField (ftmBase + 0x40) 0 11 0 b0, [2], 0, by decide +kernel⟩,
   ⟨{ b0 with time := { broken := true, count := 77 } }, by decide +kernel⟩,
   ⟨setField ftmBase 0 1 1 { b0 with time := { servo := .locked, parent := 0x7F } }, by decide +kernel⟩,
   ⟨setField ftmBase 0 2 3 { b0 with time := { servo := .locked, isGm := true, ppsMiss := 2 } }, 4000000003, by decide +kernel⟩,
   ⟨setField ftmBase 1 1 1 { b0 with time := { isGm := true, ppsMiss := 2 } }, by decide +kernel⟩,
   ⟨setField ftmBase 2 1 1 { b0 with time := { started := true } }, 4000000000, by decide +kernel⟩,
   ⟨b0, by decide +kernel⟩,
   ⟨b0, 71, by decide +kernel⟩,
   ⟨{ b0 with fab := { plane := 3 }, time := { broken := true, count := 77 } }, by decide +kernel⟩⟩

theorem wit_BridgesAndClocks :
  (∃ (s : State) (d : Die),
    s.chip.running = true ∧ (tget {} s.chip.bridges (dieNum d)).down = false ∧ (tget {} s.chip.bridges (dieNum d)).failRun < 15) ∧
  (∃ (s : State) (d : Die),
    s.chip.running = true ∧ (tget {} s.chip.bridges (dieNum d)).down = false) ∧
  (∃ (s : State),
    s.chip.running = true) ∧
  (∃ (s : State),
    s.chip.running = true) ∧
  (∃ (s : State),
    s.chip.running = true) ∧
  (∃ (s : State),
    s.chip.running = true ∧ s.chip.porN = true ∧ s.chip.sysRstN = true ∧ s.chip.tripped = false) ∧
  (∃ (s : State),
    s.chip.running = true) ∧
  (∃ (s : State),
    s.chip.running = true ∧ s.chip.porN = true) ∧
  (∃ (s : State),
    s.chip.running = false ∧ s.chip.porN = false) ∧
  (∃ (s : State) (d : Die),
    s.chip.running = true ∧ (tget {} s.chip.bridges (dieNum d)).down = false ∧ 15 ≤ (tget {} s.chip.bridges (dieNum d)).failRun) ∧
  (∃ (s : State),
    AtRest s ∧ s.home.host = []) :=
  ⟨⟨b0, .m1, by decide +kernel⟩,
   ⟨b0, .e0, by decide +kernel⟩,
   ⟨b0, by decide +kernel⟩,
   ⟨lit b0, by decide +kernel⟩,
   ⟨lit b0, by decide +kernel⟩,
   ⟨(let s := lit b0; { s with chip := { s.chip with porN := true, sysRstN := true } }), by decide +kernel⟩,
   ⟨lit b0, by decide +kernel⟩,
   ⟨(let s := lit b0; { s with chip := { s.chip with porN := true, sysRstN := true } }), by decide +kernel⟩,
   ⟨State.reset, by decide +kernel⟩,
   ⟨{ b0 with chip := { running := true, bridges := [(5, { failRun := 15 })] } }, .o1, by decide +kernel⟩,
   ⟨b1, by decide +kernel⟩⟩

theorem wit_ResetPins :
  (∃ (s : State),
    s.chip.porN = true) ∧
  (∃ (s : State),
    s.chip.porN = false) ∧
  (∃ (s : State),
    s.chip.sysRstN = true) ∧
  (∃ (s : State),
    s.chip.sysRstN = false) :=
  ⟨⟨{ State.reset with chip := { porN := true } }, by decide +kernel⟩,
   ⟨State.reset, by decide +kernel⟩,
   ⟨{ State.reset with chip := { porN := true, sysRstN := true, running := true } }, by decide +kernel⟩,
   ⟨State.reset, by decide +kernel⟩⟩

theorem wit_PowerRows :
  (∃ (s : State) (now : Tick) (avgW : BitVec 11) (tj : BitVec 10) (l : Nat),
    s.chip.running = true ∧ powerRuns s = true ∧ now.toNat % 4000000 = 0 ∧ l = Nat.max (heldDemand { s with pwr := { s.pwr with tj := tj } }) (if powerCap s < avgW.toNat then Nat.min 3 (s.pwr.level.toNat + 1) else 0)) ∧
  (∃ (s : State) (now : Tick) (avg100W : BitVec 11),
    s.chip.running = true ∧ powerRuns s = true ∧ now.toNat % 400000000 = 0 ∧ s.pwr.level ≠ 0 ∧ s.pwr.last.all (fun x => decide (x + 400000000 ≤ now.toNat)) = true ∧ heldDemand s < s.pwr.level.toNat ∧ s.pwr.avgW.toNat ≤ powerCap s ∧ avg100W.toNat * levelTotal (s.pwr.level.toNat - 1) ≤ powerCap s * levelTotal s.pwr.level.toNat ∧ s.pwr.tj.toNat + 20 ≤ levelThreshold s.pwr.level.toNat) ∧
  (∃ (s : State),
    s.chip.running = true ∧ s.chip.brakePin = false) ∧
  (∃ (s : State),
    s.chip.running = false) ∧
  (∃ (s : State),
    s.chip.running = true) ∧
  (∃ (s : State),
    s.chip.running = true ∧ s.pwr.undervolt = false) ∧
  (∃ (s : State),
    s.chip.running = true) ∧
  (∃ (s : State) (watts : BitVec 32),
    s.chip.running = true ∧ powerRuns s = true ∧ mgmtUp s = true ∧ watts.toNat ≤ 1400) ∧
  (∃ (s : State),
    s.chip.running = true ∧ powerRuns s = true ∧ mgmtUp s = true) ∧
  (∃ (s : State),
    s.chip.running = true ∧ powerRuns s = true) ∧
  (∃ (s : State),
    s.chip.running = true ∧ powerRuns s = true ∧ s.pwr.tmLost = true ∧ s.pwr.orphaned = false) ∧
  (∃ (s : State) (watts : BitVec 32),
    s.chip.running = true ∧ powerRuns s = true ∧ mgmtUp s = true ∧ 1400 < watts.toNat) :=
  ⟨⟨{ b0 with fw := { booted := true } }, 4000000, 1401, 440, 3, by decide +kernel⟩,
   ⟨{ b0 with fw := { booted := true }, pwr := { level := 3 } }, 400000000, 100, by decide +kernel⟩,
   ⟨b0, by decide +kernel⟩,
   ⟨State.reset, by decide +kernel⟩,
   ⟨{ b0 with chip := { running := true, brakePin := true } }, by decide +kernel⟩,
   ⟨b0, by decide +kernel⟩,
   ⟨{ b0 with pwr := { undervolt := true } }, by decide +kernel⟩,
   ⟨{ b0 with fw := { booted := true }, pwr := { tmLost := true } }, 1400, by decide +kernel⟩,
   ⟨{ b0 with fw := { booted := true }, pwr := { tmLost := true, orphaned := true } }, by decide +kernel⟩,
   ⟨{ b0 with fw := { booted := true } }, by decide +kernel⟩,
   ⟨{ b0 with fw := { booted := true }, pwr := { tmLost := true } }, by decide +kernel⟩,
   ⟨{ b0 with fw := { booted := true }, pwr := { tmLost := true } }, 1401, by decide +kernel⟩⟩

theorem wit_StartUp :
  (∃ (s : State),
    s.chip.running = true ∧ s.fab.catalogue = true) ∧
  (∃ (s : State) (a : Announce),
    s.chip.running = true ∧ s.fab.catalogue = true ∧ a.node.toNat ≠ nodeId s) ∧
  (∃ (s : State),
    s.chip.running = true ∧ s.fab.catalogue = true) ∧
  (∃ (s : State) (c : Chan) (dma : Bytes) (inp : Bytes),
    AtRest s ∧ MbxRuns s c 0x25 dma inp) ∧
  (∃ (s : State),
    AtRest s ∧ bitAt s (mgtBase + 0x400) 0 = true ∧ mgmtRuns s = true ∧ s.hif.handed = []) ∧
  (∃ (s : State),
    s.chip.running = true ∧ bitAt s (mgtBase + 0x400) 1 = true ∧ s.fab.collector = true ∧ mgmtRuns s = true ∧ mgmtUp s = true) ∧
  (∃ (s : State) (a : Announce) (c : Nat) (p : Fin 88),
    s.chip.running = true ∧ s.fab.catalogue = true ∧ a.node.toNat / 8 = s.fab.rack.toNat ∧ c < 11 ∧ (a.modes[c]?).isSome = true ∧ a.modes[c]? ≠ s.fab.modes[c]? ∧ p.val / 8 = c) :=
  ⟨⟨{ b0 with fab := { catalogue := true } }, by decide +kernel⟩,
   ⟨{ b0 with fab := { catalogue := true } }, { node := 7, unitId := 3, domain := 0, modes := [0, 0, 0, 0, 0, 0, 0, 0, 0, 2, 2] }, by decide +kernel⟩,
   ⟨{ b0 with fab := { catalogue := true } }, by decide +kernel⟩,
   ⟨(cmd 0x25 [] { b1 with fab := { state := .standby, catalogue := true } }), 0, [], [], by decide +kernel⟩,
   ⟨setField (mgtBase + 0x400) 0 1 1 b0, by decide +kernel⟩,
   ⟨setField (mgtBase + 0x400) 1 1 1 { b0 with fab := { collector := true } }, by decide +kernel⟩,
   ⟨(setPort 87 {state := .up} { b0 with fab := { catalogue := true } }), { node := 7, unitId := 3, domain := 0, modes := [0, 0, 0, 0, 0, 0, 0, 0, 0, 2, 1] }, 10, 87, by decide +kernel⟩⟩

theorem wit_PlaneView :
  (∃ (s : State) (p : Port) (a : Advert),
    s.chip.running = true ∧ linkRuns s p = true ∧ a.domain = s.fab.domain ∧ (a.node.toNat ≠ nodeId s ∨ a.unitId ≠ s.fuses.serial) ∧ s.fab.db.all (fun b => b.node != a.node || decide (b.seq.toNat < a.seq.toNat)) = true) ∧
  (∃ (s : State),
    s.chip.running = true) ∧
  (∃ (s : State),
    s.chip.running = true) ∧
  (∃ (s : State),
    s.chip.running = true ∧ s.fab.catalogue = true ∧ ((List.range 88).filter (isFabricPort s)).all (portDone s) = true) ∧
  (∃ (s : State),
    s.chip.running = true ∧ s.fab.settled = true) ∧
  (∃ (s : State) (p : Port) (a : Advert),
    s.chip.running = true ∧ linkRuns s p = true ∧ a.domain ≠ s.fab.domain) :=
  ⟨⟨(setPort 80 {state := .up, peerNode := some 9} (setPort 72 {state := .up} b0)), 72, { node := 8, unitId := 5, domain := 0, seq := 1, state := 6, transit := true, links := [] }, by decide +kernel⟩,
   ⟨(setPort 72 {state := .up, peerNode := some 8} b0), by decide +kernel⟩,
   ⟨{ b0 with fab := { db := [{ node := 8, unitId := 5, domain := 0, seq := 1, state := 6, transit := true, links := [] }] } }, by decide +kernel⟩,
   ⟨{ b0 with fab := { catalogue := true, modes := [] } }, by decide +kernel⟩,
   ⟨{ b0 with fab := { settled := true, deadLinks := [(8, 3)] } }, by decide +kernel⟩,
   ⟨(setPort 72 {state := .up} b0), 72, { node := 8, unitId := 5, domain := 1, seq := 1, state := 6, transit := true, links := [] }, by decide +kernel⟩⟩

theorem wit_BootRows :
  (∃ (s : State) (d : Directory),
    s.chip.running = true ∧ s.fab.state = .reset ∧ s.fw.recovery = false ∧ coreSt s coreSec ≠ .held ∧ s.fw.flash.readable = true ∧ mgmtUp s = true ∧ s.fw.flash.dir = some d) ∧
  (∃ (s : State),
    s.chip.running = true ∧ s.fab.state = .sprout ∧ mgmtRuns s = true ∧ s.fab.catalogue = false ∧ s.fw.flash.readable = true ∧ mgmtUp s = true) ∧
  (∃ (s : State) (c : Chan) (dma : Bytes) (inp : Bytes),
    AtRest s ∧ MbxRuns s c 0x06 dma inp ∧ s.fw.staging = false ∧ mgmtUp s = true) ∧
  (∃ (s : State) (c : Chan) (dma : Bytes) (inp : Bytes),
    AtRest s ∧ MbxRuns s c 0x01 dma inp ∧ featureBusy s (s.fw.agreed.getD 0 &&& ~~~(BitVec.ofNat 64 (beField inp 4 8) &&& ownFeatures)) = false ∧ mbxFits s c 12 = true) ∧
  (∃ (s : State) (c : Chan) (dma : Bytes) (inp : Bytes),
    AtRest s ∧ MbxRuns s c 0x02 dma inp ∧ mbxFits s c 64 = true) ∧
  (∃ (s : State),
    s.chip.running = true ∧ s.fab.state = .reset ∧ s.fw.recovery = false ∧ coreSt s coreSec ≠ .held ∧ (s.fw.flash.readable = false ∨ mgmtUp s = false ∨ s.fw.flash.dir = none)) ∧
  (∃ (s : State),
    s.chip.running = true ∧ s.fab.state = .sprout ∧ mgmtRuns s = true ∧ (s.fw.flash.readable = false ∨ mgmtUp s = false)) :=
  ⟨⟨{ b0 with fw := { flash := { dir0 := some { seq := 1, active := false, validA := true, validB := false } } } }, { seq := 1, active := false, validA := true, validB := false }, by decide +kernel⟩,
   ⟨{ b0 with fab := { state := .sprout } }, by decide +kernel⟩,
   ⟨(cmd 0x06 [1] b1), 0, [], [1], by decide +kernel⟩,
   ⟨(cmd 0x01 [0, 0, 0, 0, 0, 0, 0, 0, 0, 0, 3, 0xFF] b1), 0, [], [0, 0, 0, 0, 0, 0, 0, 0, 0, 0, 3, 0xFF], by decide +kernel⟩,
   ⟨(cmd 0x02 [] b1), 0, [], [], by decide +kernel⟩,
   ⟨b0, by decide +kernel⟩,
   ⟨{ b0 with fab := { state := .sprout }, fw := { flash := { readable := false } } }, by decide +kernel⟩⟩

theorem wit_FirmwareUpdates :
  (∃ (s : State) (c : Chan) (inp : Bytes),
    AtRest s ∧ MbxRuns s c 0x03 [] inp ∧ s.fw.stage = 0 ∧ beField inp 8 4 ≤ slotSize ∧ mgmtUp s = true ∧ dmaOn s = true) ∧
  (∃ (s : State) (c : Chan) (dma : Bytes) (inp : Bytes),
    AtRest s ∧ MbxRuns s c 0x04 dma inp ∧ beField inp 0 1 = 1) ∧
  (∃ (s : State) (now : Tick),
    s.chip.running = true ∧ s.fw.stage = 1 ∧ s.fw.back = false ∧ checkSoon (advance now s) = false) ∧
  (∃ (s : State),
    s.chip.running = true ∧ 2 ≤ s.fw.stage ∧ s.fw.stage ≤ 5 ∧ s.fw.back = false) ∧
  (∃ (s : State),
    s.chip.running = true ∧ s.fw.stage = 1) ∧
  (∃ (s : State),
    s.chip.running = true ∧ s.fw.stage = 6 ∧ emergWord s = 0) ∧
  (∃ (s : State) (c : Chan) (dma : Bytes) (inp : Bytes),
    AtRest s ∧ MbxRuns s c 0x05 dma inp ∧ beField inp 0 1 ≤ 64 ∧ beField inp 0 1 ≤ manSvn s.fw.running ∧ s.fab.state = .ready ∧ s.fw.resetPending = false) ∧
  (∃ (s : State) (c : Chan) (dma : Bytes) (inp : Bytes),
    AtRest s ∧ MbxRuns s c 0x04 dma inp ∧ beField inp 0 1 ≠ 1) ∧
  (∃ (s : State),
    s.chip.running = true ∧ (s.fw.stage = 2 ∨ s.fw.stage = 3) ∧ s.fw.back = false ∧ stageWhole s (s.fw.stage - 1) = true) ∧
  (∃ (s : State),
    s.chip.running = true ∧ s.fw.stage = 4 ∧ s.fw.back = false ∧ stageWhole s 3 = true) ∧
  (∃ (s : State),
    s.chip.running = true ∧ s.fw.stage = 5 ∧ s.fw.back = false ∧ coreSt s corePower = .switching) ∧
  (∃ (s : State),
    s.chip.running = true ∧ 2 ≤ s.fw.stage ∧ s.fw.stage ≤ 5 ∧ s.fw.back = true) ∧
  (∃ (s : State) (c : Chan) (dma : Bytes) (inp : Bytes),
    AtRest s ∧ MbxRuns s c 0x05 dma inp ∧ beField inp 0 1 ≤ 64) :=
  ⟨⟨(setField (cxlBase + 4) 0 1 1 (cmd 0x03 [0, 0, 0, 0, 0, 0, 0, 0, 0, 0, 0, 2] b1)), 0, [0, 0, 0, 0, 0, 0, 0, 0, 0, 0, 0, 2], by decide +kernel⟩,
   ⟨(cmd 0x04 [1] b1), 0, [], [1], by decide +kernel⟩,
   ⟨{ b0 with fw := { stage := 1 } }, 5, by decide +kernel⟩,
   ⟨{ b0 with fw := { stage := 5, actChan := some 0 } }, by decide +kernel⟩,
   ⟨{ b0 with fw := { stage := 1, actChan := some 0 } }, by decide +kernel⟩,
   ⟨{ b0 with fw := { stage := 6 } }, by decide +kernel⟩,
   ⟨(cmd 0x05 [2] { b1 with fw := { booted := true, agreed := some 0x3FF, running := [0, 0, 0, 0, 0, 0, 0, 0, 2] } }), 0, [], [2], by decide +kernel⟩,
   ⟨(cmd 0x04 [0] b1), 0, [], [0], by decide +kernel⟩,
   ⟨(setCore coreSched .switching { b0 with fw := { stage := 2 } }), by decide +kernel⟩,
   ⟨(setCore 0 .switching (setCore 1 .switching (setCore 2 .switching (setCore 3 .switching { b0 with fw := { stage := 4 } })))), by decide +kernel⟩,
   ⟨(setCore corePower .switching { b0 with fw := { stage := 5 } }), by decide +kernel⟩,
   ⟨(setCore coreSched .switching { b0 with fw := { stage := 2, back := true } }), by decide +kernel⟩,
   ⟨(cmd 0x05 [2] b1), 0, [], [2], by decide +kernel⟩⟩

theorem wit_RecoveryRows :
  (∃ (s : State) (serial : BitVec 64),
    s.chip.running = true ∧ recoveryOn s = true ∧ (serial = 0 ∨ serial = s.fuses.serial)) ∧
  (∃ (s : State) (h : RecFrom) (kind : BitVec 8) (total : BitVec 64),
    s.chip.running = true ∧ recoveryOn s = true ∧ h.serial = s.fuses.serial ∧ s.fw.session.all (fun r => r.host == h.host) = true ∧ (kind = 2 ∨ (kind = 1 ∧ s.fw.recovery = true)) ∧ total.toNat ≤ slotSize) ∧
  (∃ (s : State) (h : RecFrom) (offset : BitVec 64) (bytes : Bytes) (r : Recovery),
    s.chip.running = true ∧ recoveryOn s = true ∧ s.fw.session = some r ∧ h.serial = s.fuses.serial ∧ r.host = h.host ∧ offset.toNat = s.fw.flash.object.length ∧ bytes ≠ [] ∧ bytes.length ≤ 1024 ∧ s.fw.flash.object.length + bytes.length ≤ r.total) ∧
  (∃ (s : State) (h : RecFrom) (r : Recovery),
    s.chip.running = true ∧ recoveryOn s = true ∧ s.fw.session = some r ∧ h.serial = s.fuses.serial ∧ r.host = h.host ∧ r.kind ≠ 1 ∧ s.fw.flash.object.length = r.total) ∧
  (∃ (s : State),
    s.chip.running = true) ∧
  (∃ (s : State),
    s.chip.running = true ∧ s.fab.collector = true ∧ mgmtRuns s = true ∧ mgmtUp s = true) ∧
  (∃ (s : State) (core : Fin 18),
    s.chip.running = true ∧ 5 ≤ core.val ∧ coreSt s core ≠ .held) ∧
  (∃ (s : State) (core : Fin 18),
    s.chip.running = true ∧ coreSt s core = .inReset) ∧
  (∃ (s : State) (h : RecFrom) (r : Recovery),
    s.chip.running = true ∧ recoveryOn s = true ∧ s.fw.session = some r ∧ h.serial = s.fuses.serial ∧ r.host = h.host ∧ r.kind = 1 ∧ s.fw.flash.object.length = r.total) ∧
  (∃ (s : State) (core : Fin 18),
    s.chip.running = true ∧ core.val < 4 ∧ coreSt s core ≠ .held) ∧
  (∃ (s : State) (core : Fin 18),
    s.chip.running = true ∧ core.val = coreSec ∧ coreSt s core ≠ .held) :=
  ⟨⟨{ b0 with fw := { recovery := true } }, 0, by decide +kernel⟩,
   ⟨{ b0 with fuses := { serial := 7 }, fw := { recovery := true, flash := { object := [1] } } }, ⟨1, 7⟩, 1, 4, by decide +kernel⟩,
   ⟨{ b0 with fuses := { serial := 7 }, fw := { recovery := true, session := some { host := 1, kind := 2, total := 4 }, flash := { object := [9] } } }, ⟨1, 7⟩, 1, [7, 8, 9], { host := 1, kind := 2, total := 4 }, by decide +kernel⟩,
   ⟨{ b0 with fuses := { serial := 7 }, fw := { recovery := true, session := some { host := 1, kind := 2, total := 1 }, flash := { object := [9] } } }, ⟨1, 7⟩, { host := 1, kind := 2, total := 1 }, by decide +kernel⟩,
   ⟨{ b0 with fw := { recovery := true, session := some { host := 1, kind := 2, total := 1 } } }, by decide +kernel⟩,
   ⟨{ b0 with fab := { collector := true } }, by decide +kernel⟩,
   ⟨{ b0 with fw := { expiries := [(17, [50, 60])] } }, 17, by decide +kernel⟩,
   ⟨(setCore 17 .inReset b0), 17, by decide +kernel⟩,
   ⟨{ b0 with fuses := { serial := 7 }, fw := { recovery := true, session := some { host := 1, kind := 1, total := 1 }, flash := { object := [9] } } }, ⟨1, 7⟩, { host := 1, kind := 1, total := 1 }, by decide +kernel⟩,
   ⟨(setCore 2 .held b0), 3, by decide +kernel⟩,
   ⟨b0, 4, by decide +kernel⟩⟩

theorem wit_RegisterRows :
  (∃ (s : State) (off : BitVec 26) (c : Nat),
    AtRest s ∧ barReach s = true ∧ s.fab.state ≠ .recovery ∧ off.toNat % 4 = 0 ∧ locate off.toNat = some (.mbx c, 0x08) ∧ (chan s c).busy = false) ∧
  (∃ (s : State) (off : BitVec 26),
    s.chip.running = true ∧ barReach s = true ∧ off.toNat % 4 = 0) ∧
  (∃ (s : State),
    AtRest s ∧ barReach s = true) ∧
  (∃ (s : State),
    AtRest s ∧ barReach s = true) ∧
  (∃ (s : State) (v : Fin 32),
    s.chip.running = true ∧ (vecOf s v).holdoff = true ∧ (vecOf s v).rose = true ∧ (vecOf s v).masked = false) ∧
  (∃ (s : State) (v : Fin 32),
    AtRest s ∧ (vecOf s v).holdoff = true ∧ (vecOf s v).rose = false ∧ v.val ≠ 0) ∧
  (∃ (s : State) (v : Fin 32),
    s.chip.running = true ∧ s.hif.cxl.up = true ∧ (vecOf s v).masked = true ∧ (vecOf s v).pba = true ∧ (vecOf s v).holdoff = false) ∧
  (∃ (s : State),
    AtRest s ∧ barReach s = true ∧ s.fab.state ≠ .recovery ∧ s.fab.catalogue = true ∧ s.hif.staging.length < 256) ∧
  (∃ (s : State) (off : BitVec 26) (size : Nat),
    AtRest s ∧ barReach s = true ∧ s.fab.state ≠ .recovery ∧ (size ≠ 4 ∨ off.toNat % 4 ≠ 0)) ∧
  (∃ (s : State) (off : BitVec 26) (size : Nat),
    s.chip.running = true ∧ barReach s = true ∧ (size ≠ 4 ∨ off.toNat % 4 ≠ 0)) :=
  ⟨⟨b1, BitVec.ofNat 26 (mbxBase 3 + 8), 3, by decide +kernel⟩,
   ⟨b1, 0x2C, by decide +kernel⟩,
   ⟨bump cntGlbWerrCnt b1, by decide +kernel⟩,
   ⟨{ b1 with time := { count := 0x500000007 } }, by decide +kernel⟩,
   ⟨(setVec 31 { masked := false, holdoff := true, rose := true } b1), 31, by decide +kernel⟩,
   ⟨(setVec 31 { masked := false, holdoff := true } b1), 31, by decide +kernel⟩,
   ⟨(setVec 31 { pba := true } b1), 31, by decide +kernel⟩,
   ⟨b1, by decide +kernel⟩,
   ⟨b1, 0x2E, 4, by decide +kernel⟩,
   ⟨b1, 0x2C, 8, by decide +kernel⟩⟩

theorem wit_CxlRows :
  (∃ (s : State),
    AtRest s ∧ s.home.host = []) ∧
  (∃ (s : State) (width : BitVec 4) (speed : BitVec 2),
    AtRest s ∧ s.fab.state ≠ .reset ∧ s.chip.perstN = true ∧ (tget {} s.chip.bridges 0).down = false ∧ (width = 1 ∨ width = 2 ∨ width = 4 ∨ width = 8) ∧ speed ≠ 3) ∧
  (∃ (s : State),
    s.chip.running = true ∧ s.hif.cxl.up = true) ∧
  (∃ (s : State),
    s.chip.running = true ∧ s.hif.cxl.up = true) ∧
  (∃ (s : State) (off : BitVec 32) (len : BitVec 32),
    s.chip.running = true ∧ s.hif.cxl.up = true ∧ off.toNat + len.toNat ≤ 24) ∧
  (∃ (s : State),
    s.chip.running = true ∧ s.hif.cxl.up = true) ∧
  (∃ (s : State) (log : BitVec 8),
    s.chip.running = true ∧ s.hif.cxl.up = true ∧ log.toNat < 4) ∧
  (∃ (s : State) (log : BitVec 8),
    s.chip.running = true ∧ s.hif.cxl.up = true ∧ log.toNat < 4) ∧
  (∃ (s : State),
    s.chip.running = true ∧ s.hif.cxl.up = true ∧ s.ten.idReady = true) :=
  ⟨⟨b1, by decide +kernel⟩,
   ⟨b1, 8, 2, by decide +kernel⟩,
   ⟨b1, by decide +kernel⟩,
   ⟨b1, by decide +kernel⟩,
   ⟨b1, 4, 20, by decide +kernel⟩,
   ⟨b1, by decide +kernel⟩,
   ⟨b1, 3, by decide +kernel⟩,
   ⟨b1, 3, by decide +kernel⟩,
   ⟨b1, by decide +kernel⟩⟩

theorem wit_CommitRows :
  (∃ (s : State) (n : Fin 8) (w : Nat),
    AtRest s ∧ barReach s = true ∧ s.fab.state ≠ .recovery ∧ s.fab.catalogue = true ∧ s.hif.staging ≠ [] ∧ s.hif.staging.all (stagedOk s) = true ∧ (List.range 8).find? (fun m => !(cmtSlot s m).pending) = some n.val ∧ w = (word s 0x60).toNat + 2 ^ 32 * (word s 0x64).toNat ∧ (w = 0 ∨ now s + 8000 ≤ w)) ∧
  (∃ (s : State),
    AtRest s ∧ barReach s = true ∧ s.fab.state ≠ .recovery ∧ s.fab.catalogue = true) ∧
  (∃ (s : State) (slot : Fin 8),
    AtRest s ∧ barReach s = true ∧ s.fab.state ≠ .recovery ∧ s.fab.catalogue = true ∧ (cmtSlot s slot).pending = true ∧ now s < (cmtSlot s slot).tick.toNat) ∧
  (∃ (s : State) (slot : Fin 8) (now : Tick) (v : Word),
    AtRest s ∧ (cmtSlot s slot).pending = true ∧ (cmtSlot s slot).tick ≤ now ∧ s.time.started = true ∧ s.time.count ≤ now ∧ ((∀ m ∈ List.range 8, m ≠ slot.val → (cmtSlot s m).pending = false)) ∧ (cmtSlot s slot).values = [(cxlBase + 0x104, v)]) ∧
  (∃ (s : State) (w : Nat),
    AtRest s ∧ barReach s = true ∧ s.fab.state ≠ .recovery ∧ s.fab.catalogue = true ∧ s.hif.staging ≠ [] ∧ s.hif.staging.all (stagedOk s) = true ∧ (List.range 8).any (fun m => !(cmtSlot s m).pending) = true ∧ w = (word s 0x60).toNat + 2 ^ 32 * (word s 0x64).toNat ∧ w ≠ 0 ∧ w < now s + 8000) ∧
  (∃ (s : State) (slot : Fin 8),
    AtRest s ∧ barReach s = true ∧ s.fab.state ≠ .recovery ∧ s.fab.catalogue = true ∧ ((cmtSlot s slot).pending = false ∨ (cmtSlot s slot).tick.toNat ≤ now s)) :=
  ⟨⟨{ b1 with hif := { cxl := { up := true }, staging := [(cxlBase + 0x104, 5)] } }, 0, 0, by decide +kernel⟩,
   ⟨{ b1 with hif := { cxl := { up := true }, staging := [(cxlBase + 0x104, 5)] } }, by decide +kernel⟩,
   ⟨(setCmt 7 { pending := true, tick := 9, values := [(cxlBase + 0x104, 5)] } b1), 7, by decide +kernel⟩,
   ⟨(setCmt 7 { pending := true, tick := 9, values := [(cxlBase + 0x104, 5)] } { b1 with time := { started := true } }), 7, 9, 5, by decide +kernel⟩,
   ⟨(setWord 0x60 7999 { b1 with hif := { cxl := { up := true }, staging := [(cxlBase + 0x104, 5)] } }), 7999, by decide +kernel⟩,
   ⟨(setCmt 7 { pending := true, tick := 0, values := [(cxlBase + 0x104, 5)] } b1), 7, by decide +kernel⟩⟩

theorem wit_EnableAndHello :
  (∃ (s : State),
    AtRest s ∧ barReach s = true ∧ s.fab.state ≠ .recovery ∧ s.fab.catalogue = true ∧ s.fab.joined = true) ∧
  (∃ (s : State) (p : APort),
    AtRest s ∧ barReach s = true ∧ s.fab.state ≠ .recovery ∧ s.fab.catalogue = true ∧ s.fab.joined = true ∧ (sess s p).state = .down) ∧
  (∃ (s : State) (p : APort),
    AtRest s ∧ barReach s = true ∧ s.fab.state ≠ .recovery ∧ s.fab.catalogue = true ∧ s.fab.joined = true ∧ bitAt s (epbBase p) 0 = false ∧ (sess s p).state = .down ∧ linkUp s p = true) ∧
  (∃ (s : State) (p : Port),
    s.chip.running = true ∧ barReach s = true ∧ s.fab.state ≠ .recovery ∧ s.fab.catalogue = true ∧ bitAt s (prtBase p) 0 = false ∧ (portSt s p).state = .disabled ∧ portHeld (portSt s p) = false ∧ linksOn s = true ∧ clusterMode s (p.val / 8) ≠ 0) ∧
  (∃ (s : State) (p : Port),
    s.chip.running = true ∧ barReach s = true ∧ s.fab.state ≠ .recovery ∧ s.fab.catalogue = true ∧ bitAt s (prtBase p) 0 = true) ∧
  (∃ (s : State) (p : APort) (m : AttMsg),
    AtRest s ∧ (sess s p).state = .hello ∧ m.opc = 0x3C ∧ helloAccepted s p m = true ∧ portBound s p = true) ∧
  (∃ (s : State) (p : APort) (m : AttMsg),
    AtRest s ∧ (sess s p).state = .hello ∧ m.opc = 0x3C ∧ helloAccepted s p m = false) ∧
  (∃ (s : State) (p : APort),
    s.chip.running = true ∧ (sess s p).state = .hello) ∧
  (∃ (s : State) (p : APort),
    AtRest s ∧ (sess s p).state = .hello) :=
  ⟨⟨b1, by decide +kernel⟩,
   ⟨(setWord (epbBase 71) 1 b1), 71, by decide +kernel⟩,
   ⟨(setPort 71 {state := .up} (setWord (epbBase 71) 0 b1)), 71, by decide +kernel⟩,
   ⟨(setWord (prtBase 72) 0 b1), 72, by decide +kernel⟩,
   ⟨(setWord (prtBase 72) 1 b1), 72, by decide +kernel⟩,
   ⟨(setSess 5 {up0 with state := .hello} b2), 5, { opc := 0x3C, payload := [1, 1, 0, 0, 0, 64, 0, 32, 0, 0, 0, 0, 0, 0, 0, 0] }, by decide +kernel⟩,
   ⟨(setSess 5 {up0 with state := .hello} b2), 5, { opc := 0x3C, payload := [2, 1, 0, 0, 0, 64, 0, 32, 0, 0, 0, 0, 0, 0, 0, 0] }, by decide +kernel⟩,
   ⟨(setSess 5 {up0 with state := .hello} b2), 5, by decide +kernel⟩,
   ⟨(setSess 5 {up0 with state := .hello} b2), 5, by decide +kernel⟩⟩

theorem wit_AttachCustody :
  (∃ (s : State) (p : APort) (msn : BitVec 16),
    AtRest s ∧ sessOpen s p = true ∧ (sess s p).unacked.any (fun u => u.1 == msn) = true) ∧
  (∃ (s : State) (p : APort) (status : BitVec 8),
    s.chip.running = true ∧ sessOpen s p = true ∧ (sess s p).halted = false ∧ status.toNat ≠ Status.fenced.code) ∧
  (∃ (s : State) (p : APort) (status : BitVec 8),
    AtRest s ∧ sessOpen s p = true ∧ status.toNat = Status.fenced.code) ∧
  (∃ (s : State) (p : APort),
    AtRest s ∧ sessOpen s p = true ∧ (sess s p).blocked = []) ∧
  (∃ (s : State) (p : APort),
    s.chip.running = true ∧ sessOpen s p = true ∧ (sess s p).nakSent = false) ∧
  (∃ (s : State) (p : APort),
    s.chip.running = true ∧ sessOpen s p = true ∧ (sess s p).halted = false) ∧
  (∃ (s : State) (p : APort),
    AtRest s ∧ sessOpen s p = true ∧ quarantined s (slotEp s p) = false ∧ s.home.accesses = [] ∧ s.trn.send = [] ∧ s.coll.ctxs = []) ∧
  (∃ (s : State) (p : APort),
    AtRest s ∧ sessOpen s p = true ∧ quarantined s (slotEp s p) = true ∧ s.home.accesses = []) ∧
  (∃ (s : State) (p : APort),
    AtRest s ∧ (sess s p).state = .fenced ∧ (sess s p).waitEnd = false ∧ s.home.accesses = []) :=
  ⟨⟨(setSess 5 {up0 with unacked := [(7, { opc := 0x20 }), (8, { opc := 0x20 }), (9, { opc := 0x20 })]} b2), 5, 8, by decide +kernel⟩,
   ⟨(setSess 5 {up0 with unacked := [(7, { opc := 0x20 }), (8, { opc := 0x20 }), (9, { opc := 0x20 })]} b2), 5, 0, by decide +kernel⟩,
   ⟨(setSess 5 {up0 with unacked := [(7, { opc := 0x20 }), (8, { opc := 0x20 }), (9, { opc := 0x20 })]} b2), 5, 13, by decide +kernel⟩,
   ⟨b2, 5, by decide +kernel⟩,
   ⟨(setSess 5 {up0 with rxMsn := 9} b2), 5, by decide +kernel⟩,
   ⟨(setSess 5 {up0 with unacked := [(7, { opc := 0x20 }), (8, { opc := 0x20 })]} b2), 5, by decide +kernel⟩,
   ⟨b2, 5, by decide +kernel⟩,
   ⟨{ b2 with trn := { b2.trn with quar := [5] } }, 5, by decide +kernel⟩,
   ⟨(setSess 5 {up0 with state := .fenced} b2), 5, by decide +kernel⟩⟩

theorem wit_RequestsTaken :
  (∃ (s : State) (p : APort) (m : AttMsg) (k : PageKey),
    s.chip.running = true ∧ arrival s p m = .take ∧ reqCheck s p 1 m = .done ∧ (sess s p).out = [] ∧ pagesOf (portTenant s p) m.addr.toNat m.len.toNat = [k] ∧ cacheFind s (p.val / 8) k = none ∧ (tableOf s (p.val / 8) k.tenant.toNat).isSome = true ∧ (missesOf s (p.val / 8)).length < 64) ∧
  (∃ (s : State) (p : APort) (m : AttMsg) (k : PageKey),
    s.chip.running = true ∧ arrival s p m = .take ∧ reqCheck s p 2 m = .done ∧ (sess s p).out = [] ∧ pagesOf (portTenant s p) m.addr.toNat m.len.toNat = [k] ∧ cacheFind s (p.val / 8) k = none ∧ (tableOf s (p.val / 8) k.tenant.toNat).isSome = true ∧ (missesOf s (p.val / 8)).length < 64) ∧
  (∃ (s : State) (p : APort) (m : AttMsg) (k : PageKey),
    s.chip.running = true ∧ arrival s p m = .take ∧ reqCheck s p 3 m = .done ∧ (sess s p).out = [] ∧ pagesOf (portTenant s p) m.addr.toNat m.len.toNat = [k] ∧ cacheFind s (p.val / 8) k = none ∧ (tableOf s (p.val / 8) k.tenant.toNat).isSome = true ∧ (missesOf s (p.val / 8)).length < 64) ∧
  (∃ (s : State) (p : APort) (m : AttMsg) (k : PageKey),
    s.chip.running = true ∧ arrival s p m = .take ∧ reqCheck s p 4 m = .done ∧ (sess s p).out = [] ∧ pagesOf (portTenant s p) m.addr.toNat m.len.toNat = [k] ∧ cacheFind s (p.val / 8) k = none ∧ (tableOf s (p.val / 8) k.tenant.toNat).isSome = true ∧ (missesOf s (p.val / 8)).length < 64) ∧
  (∃ (s : State) (p : APort) (m : AttMsg) (k : PageKey),
    s.chip.running = true ∧ arrival s p m = .take ∧ reqCheck s p 5 m = .done ∧ (sess s p).out = [] ∧ pagesOf (portTenant s p) m.addr.toNat m.len.toNat = [k] ∧ cacheFind s (p.val / 8) k = none ∧ (tableOf s (p.val / 8) k.tenant.toNat).isSome = true ∧ (missesOf s (p.val / 8)).length < 64) :=
  ⟨⟨b2, 5, { opc := 1, len := 64, addr := 0x1000000000000 }, pageKeyOf 1 (2 ^ 48), by decide +kernel⟩,
   ⟨b2, 5, { opc := 2, len := 2, addr := 0x1000000000000, payload := [1, 2] }, pageKeyOf 1 (2 ^ 48), by decide +kernel⟩,
   ⟨b2, 5, { opc := 3, len := 2, addr := 0x1000000000000, payload := [1, 2] }, pageKeyOf 1 (2 ^ 48), by decide +kernel⟩,
   ⟨b2, 5, { opc := 4, len := 8, addr := 0x1000000000000, atop := 1, payload := [1, 2, 3, 4, 5, 6, 7, 8] }, pageKeyOf 1 (2 ^ 48), by decide +kernel⟩,
   ⟨b2, 5, { opc := 5, len := 8, addr := 0x1000000000000, payload := [1, 2, 3, 4, 5, 6, 7, 8] }, pageKeyOf 1 (2 ^ 48), by decide +kernel⟩⟩

theorem wit_MovesMarksAndAnswers :
  (∃ (s : State) (p : APort) (m : AttMsg),
    AtRest s ∧ arrival s p m = .take ∧ (moveCheck s p m).1 = .done) ∧
  (∃ (s : State) (p : APort) (m : AttMsg),
    AtRest s ∧ arrival s p m = .take ∧ reqCheck s p 8 m = .done) ∧
  (∃ (s : State) (p : APort) (tag : BitVec 13) (r : OutReq),
    AtRest s ∧ (sess s p).state = .up ∧ (sess s p).out = [r] ∧ r.phase = .mark ∧ r.msg.opc = 8 ∧ r.msg.tag = tag ∧ r.gone = false ∧ (sess s p).blocked = [] ∧ 2 ≤ (sess s p).rspCrd ∧ (sess s p).unacked = []) ∧
  (∃ (s : State) (p : APort) (m : AttMsg) (r : InbReq),
    AtRest s ∧ arrival s p { m with opc := 0x30 } = .take ∧ (sess s p).state = .up ∧ (sess s p).inb = [r] ∧ r.tag = m.tag ∧ inbUnsent (sess s p) m.tag = false ∧ accOf s r.access = none) ∧
  (∃ (s : State) (p : APort) (m : AttMsg) (r : InbReq) (a : Access),
    AtRest s ∧ arrival s p { m with opc := 0x30 } = .take ∧ (sess s p).state = .up ∧ (sess s p).inb = [r] ∧ r.tag = m.tag ∧ r.opc = 0x28 ∧ r.locked = false ∧ inbUnsent (sess s p) m.tag = false ∧ accOf s r.access = some a ∧ a.left = 1 ∧ a.combine = none ∧ a.own = 0 ∧ a.reply = none) :=
  ⟨⟨b2, 5, { opc := 6, tag := 3, payload := copy0 }, by decide +kernel⟩,
   ⟨b2, 5, { opc := 8, tag := 77, scope := 2 }, by decide +kernel⟩,
   ⟨(setSess 5 {up0 with out := [{ id := 3, msg := { opc := 8, tag := 77 }, phase := .mark }]} b2), 5, 77, { id := 3, msg := { opc := 8, tag := 77 }, phase := .mark }, by decide +kernel⟩,
   ⟨(setSess 5 {up0 with inb := [{ tag := 9, opc := 0x29, access := 4, off := 0, len := 64 }]} b2), 5, { opc := 0x30, tag := 9 }, { tag := 9, opc := 0x29, access := 4, off := 0, len := 64 }, by decide +kernel⟩,
   ⟨(let s := lineAcc .read 1 [] b4; setSess 5 { up0 with inb := [{ tag := 9, opc := 0x28, access := 4, off := 2 ^ 44 + 128, len := 64 }] } { s with home := { s.home with accesses := s.home.accesses.map (fun a => { a with home := 5, cxl := false, frame := { a.frame with dst := 5 } }), hot := [{ home := 5, line := 2 ^ 44 + 128, lastSrc := 0, busy := [part0] }] } }), 5, { opc := 0x30, tag := 9, len := 64, payload := List.replicate 64 7 }, { tag := 9, opc := 0x28, access := 4, off := 2 ^ 44 + 128, len := 64 }, ((lineAcc .read 1 [] b4).home.accesses.map (fun a => { a with home := 5, cxl := false, frame := { a.frame with dst := 5 } })).headD { id := 0, home := 0, frame := { type := 1, src := 0, dst := 0 }, op := .read, left := 0 }, by decide +kernel⟩⟩

theorem wit_TranslationReads :
  (∃ (s : State) (c : ACluster) (m : Miss) (rest : List Miss),
    s.chip.running = true ∧ missesOf s c = m :: rest ∧ m.port / 8 = c.val ∧ ((∀ i ∈ List.range 8, (sess s (c.val * 8 + i)).out = []))) ∧
  (∃ (s : State) (h : HomePt) (ecc : Ecc) (f : Frame) (x : Nat),
    s.chip.running = true ∧ tget [] s.xlat.rgnMiss (HomePt.num h) = [f] ∧ regionAt s f.dst.toNat f.keyidx = some x ∧ sysReadFails s x ecc = false) ∧
  (∃ (s : State) (h : HomePt) (ecc : Ecc) (f : Frame) (r : RecvCtx),
    AtRest s ∧ tget [] s.xlat.rgnMiss (HomePt.num h) = [f] ∧ (match regionAt s f.dst.toNat f.keyidx with | some x => sysReadFails s x ecc | none => true) = true ∧ s.trn.recv = [r] ∧ r.sid = fwdSid f ∧ inSession r.ipsn f.psn = true ∧ r.e = f.psn ∧ r.held = [] ∧ r.seen = [] ∧ f.ord = false) ∧
  (∃ (s : State) (c : ACluster) (ecc : Ecc) (m : Miss) (rest : List Miss) (p : APort) (r : OutReq) (w : BitVec 64 × BitVec 64),
    AtRest s ∧ missesOf s c = m :: rest ∧ m.port / 8 = c.val ∧ p.val / 8 = c.val ∧ (sess s p).out = [r] ∧ (List.range 8).all (fun i => (c.val * 8 + i == p.val) || (sess s (c.val * 8 + i)).out.isEmpty) = true ∧ r.phase = .translate ∧ r.gone = false ∧ r.pages = [{ key := m.key }] ∧ (match bucketResult s c m.key ecc with | .ok v => v == w | .error _ => false) = true ∧ slotChecks s r.msg.opc.toNat [slotW w] = .done ∧ s.trn.send = [] ∧ 0 < ctxLimit s (unitOf s (BitVec.ofNat 16 (slotEp s p)) (BitVec.ofNat 12 (portTenant s p)))) ∧
  (∃ (s : State) (c : ACluster) (ecc : Ecc) (m : Miss) (rest : List Miss) (p : APort) (r : OutReq) (st : Status),
    AtRest s ∧ missesOf s c = m :: rest ∧ m.port / 8 = c.val ∧ p.val / 8 = c.val ∧ (sess s p).out = [r] ∧ (List.range 8).all (fun i => (c.val * 8 + i == p.val) || (sess s (c.val * 8 + i)).out.isEmpty) = true ∧ r.phase = .translate ∧ r.gone = false ∧ r.pages = [{ key := m.key }] ∧ (match bucketResult s c m.key ecc with | .ok _ => false | .error x => x == st) = true ∧ r.msg.opc ≠ 8 ∧ (sess s p).blocked = [] ∧ 2 ≤ (sess s p).rspCrd ∧ (sess s p).unacked = []) ∧
  (∃ (s : State) (h : HomePt) (ecc : Ecc) (f : Frame) (x : Nat) (r : RecvCtx),
    AtRest s ∧ tget [] s.xlat.rgnMiss (HomePt.num h) = [f] ∧ regionAt s f.dst.toNat f.keyidx = some x ∧ sysReadFails s x ecc = false ∧ keyCheck s f = .done ∧ epFenced s f.dst.toNat = false ∧ f.opc ≠ 0 ∧ f.opc.toNat < 0x50 ∧ s.trn.recv = [r] ∧ r.sid = fwdSid f ∧ inSession r.ipsn f.psn = true ∧ r.e = f.psn ∧ r.held = [] ∧ r.seen = [] ∧ f.ord = false ∧ s.mov.arriving = [] ∧ s.mov.holding = [] ∧ s.mov.oldPages = [] ∧ homeReach s (homeOf f) f = .done) ∧
  (∃ (s : State) (h : HomePt) (ecc : Ecc) (f : Frame) (x : Nat) (r : RecvCtx),
    AtRest s ∧ tget [] s.xlat.rgnMiss (HomePt.num h) = [f] ∧ regionAt s f.dst.toNat f.keyidx = some x ∧ sysReadFails s x ecc = false ∧ keyCheck s f = .accessDenied ∧ epFenced s f.dst.toNat = false ∧ s.trn.recv = [r] ∧ r.sid = fwdSid f ∧ inSession r.ipsn f.psn = true ∧ r.e = f.psn ∧ r.held = [] ∧ r.seen = [] ∧ f.ord = false) :=
  ⟨⟨b3, 0, { key := pageKeyOf 1 (2 ^ 48), port := 5 }, [], by decide +kernel⟩,
   ⟨{ b4 with xlat := { rgnMiss := [(72, [{ type := 0, src := 0x4801, dst := 0x4800, opc := 1, len := 64, tenant := 1, psn := 103, mid := midOf (2 ^ 44) 0 0 }])] } }, .mem, .clean, { type := 0, src := 0x4801, dst := 0x4800, opc := 1, len := 64, tenant := 1, psn := 103, mid := midOf (2 ^ 44) 0 0 }, 0x09000000, by decide +kernel⟩,
   ⟨{ b5 false with xlat := { rgnMiss := [(72, [{ type := 0, src := 0x4801, dst := 0x4800, opc := 1, len := 64, tenant := 1, psn := 103, mid := midOf (2 ^ 44) 0 0 }])] } }, .mem, .uncorrectable, { type := 0, src := 0x4801, dst := 0x4800, opc := 1, len := 64, tenant := 1, psn := 103, mid := midOf (2 ^ 44) 0 0 }, rcv false, by decide +kernel⟩,
   ⟨(setMisses 0 [{ key := pageKeyOf 1 (5 * 2 ^ 48), port := 5 }] (setSess 5 { up0 with out := [{ id := 3, msg := { opc := 2, tag := 9, len := 2, addr := 0x5000000000000, payload := [1, 2] }, phase := .translate, pages := [{ key := pageKeyOf 1 (5 * 2 ^ 48) }] }], nextOut := 4 } (b10 { b2 with ten := { b2.ten with shared := true } }))), 0, .corrected, { key := pageKeyOf 1 (5 * 2 ^ 48), port := 5 }, [], 5, { id := 3, msg := { opc := 2, tag := 9, len := 2, addr := 0x5000000000000, payload := [1, 2] }, phase := .translate, pages := [{ key := pageKeyOf 1 (5 * 2 ^ 48) }] }, (1 + 5 * 8 + 2 ^ 45, 7 + 5 * 2 ^ 12), by decide +kernel⟩,
   ⟨(setSess 5 { sess b3 5 with out := [{ id := 3, msg := { opc := 2, tag := 9, len := 2, addr := 0x1000000000000, payload := [1, 2] }, phase := .translate, pages := [{ key := pageKeyOf 1 (2 ^ 48) }] }], nextOut := 4 } b3), 0, .uncorrectable, { key := pageKeyOf 1 (2 ^ 48), port := 5 }, [], 5, { id := 3, msg := { opc := 2, tag := 9, len := 2, addr := 0x1000000000000, payload := [1, 2] }, phase := .translate, pages := [{ key := pageKeyOf 1 (2 ^ 48) }] }, .tierFailed, by decide +kernel⟩,
   ⟨{ b5 false with xlat := { rgnMiss := [(72, [{ type := 0, src := 0x4801, dst := 0x4800, opc := 1, len := 64, tenant := 1, psn := 103, mid := midOf (2 ^ 44) 0 0 }])] } }, .mem, .corrected, { type := 0, src := 0x4801, dst := 0x4800, opc := 1, len := 64, tenant := 1, psn := 103, mid := midOf (2 ^ 44) 0 0 }, 0x09000000, rcv false, by decide +kernel⟩,
   ⟨{ b5 false with xlat := { rgnMiss := [(72, [{ type := 0, src := 0x4801, dst := 0x4800, opc := 1, len := 64, tenant := 2, psn := 103, mid := midOf (2 ^ 44) 0 0 }])] }, trn := { b4.trn with recv := [{ rcv false with sid := ⟨0x4801, 0x4800, false, 2⟩ }] } }, .mem, .clean, { type := 0, src := 0x4801, dst := 0x4800, opc := 1, len := 64, tenant := 2, psn := 103, mid := midOf (2 ^ 44) 0 0 }, 0x09000000, { rcv false with sid := ⟨0x4801, 0x4800, false, 2⟩ }, by decide +kernel⟩⟩

theorem wit_MappingCommands :
  (∃ (s : State) (c : Chan) (dma : Bytes) (inp : Bytes) (b : Nat × Bytes) (k : Nat) (x : Nat),
    AtRest s ∧ MbxRuns s c 0x20 dma inp ∧ updOk s inp = true ∧ updBuckets inp = [b] ∧ tableCopies s (beField inp 0 2) = [(k, x)]) ∧
  (∃ (s : State) (c : Chan) (dma : Bytes) (inp : Bytes),
    s.chip.running = true ∧ MbxRuns s c 0x21 dma inp ∧ beField inp 0 2 < 0x5000 ∧ rgnTenantOk s (beField inp 0 2) (parseRegion (slice inp 4 32)) = true ∧ measFull s (beField inp 0 2) (beField inp 2 2) (parseRegion (slice inp 4 32)) = false) ∧
  (∃ (s : State) (c : Chan) (dma : Bytes) (inp : Bytes),
    AtRest s ∧ MbxRuns s c 0x21 dma inp ∧ beField inp 0 2 = memEp s ∧ rgnTenantOk s (beField inp 0 2) (parseRegion (slice inp 4 32)) = true ∧ measFull s (beField inp 0 2) (beField inp 2 2) (parseRegion (slice inp 4 32)) = false) ∧
  (∃ (s : State) (c : Chan) (dma : Bytes) (inp : Bytes),
    s.chip.running = true ∧ MbxRuns s c 0x22 dma inp ∧ beField inp 0 2 < 4096) ∧
  (∃ (s : State) (c : Chan),
    AtRest s ∧ draining s c = true ∧ (changeOf s c).map (·.nodes) = some [] ∧ oldLeft s (beField (chan s c).named 0 2) = false ∧ (chan s c).busy = true ∧ (chan s c).lost = false) ∧
  (∃ (s : State) (c : Chan),
    AtRest s ∧ draining s c = true ∧ (chan s c).busy = true ∧ (chan s c).lost = false) ∧
  (∃ (s : State) (c : Chan) (dma : Bytes) (inp : Bytes),
    AtRest s ∧ MbxRuns s c 0x21 dma inp ∧ beField inp 0 2 < 0x5000 ∧ rgnTenantOk s (beField inp 0 2) (parseRegion (slice inp 4 32)) = false) :=
  ⟨⟨(cmd 0x20 ([0, 1, 0, 1, 0, 0, 0, 0] ++ List.replicate 128 6) b2), 0, [], ([0, 1, 0, 1, 0, 0, 0, 0] ++ List.replicate 128 6), (0, List.replicate 128 6), 0, 0, by decide +kernel⟩,
   ⟨(cmd 0x21 ([0, 5, 0, 9] ++ rgn0) { b2 with ten := { b2.ten with shared := true } }), 0, [], ([0, 5, 0, 9] ++ rgn0), by decide +kernel⟩,
   ⟨(cmd 0x21 ([0x48, 0, 0, 9] ++ rgn0) { b2 with ten := { b2.ten with shared := true } }), 0, [], ([0x48, 0, 0, 9] ++ rgn0), by decide +kernel⟩,
   ⟨(cmd 0x22 [0, 1] b2), 0, [], [0, 1], by decide +kernel⟩,
   ⟨{ (cmd 0x22 [0, 1] b2) with xlat := { changes := [{ id := 0, nodes := [], kind := 1 }] } }, 0, by decide +kernel⟩,
   ⟨{ (cmd 0x22 [0, 1] b2) with xlat := { changes := [{ id := 0, nodes := [1], kind := 1 }] } }, 0, by decide +kernel⟩,
   ⟨(cmd 0x21 ([0x48, 0, 0, 9] ++ rgn0) b2), 0, [], ([0x48, 0, 0, 9] ++ rgn0), by decide +kernel⟩⟩

theorem wit_MappingConfirmations :
  (∃ (s : State) (c : Chan) (node : BitVec 11) (x : PendChange),
    AtRest s ∧ changeOf s c = some x ∧ x.nodes = [node.toNat] ∧ x.kind ≠ 1 ∧ (chan s c).busy = true ∧ (chan s c).lost = false) ∧
  (∃ (s : State) (e : Fin 16) (st : Status) (x : PendChange),
    s.chip.running = true ∧ changeOf s (4 + e.val) = some x ∧ (st = .done ∨ x.kind ≠ 3)) ∧
  (∃ (s : State) (c : Chan) (x : PendChange),
    AtRest s ∧ changeOf s c = some x ∧ x.nodes ≠ [] ∧ x.kind ≠ 1 ∧ (chan s c).busy = true ∧ (chan s c).lost = false) ∧
  (∃ (s : State) (w : BitVec 12) (b : Nat × Bytes) (k : Nat) (x : Nat),
    AtRest s ∧ tableCopies s w.toNat = [(k, x)] ∧ b.1 < 2 ^ k ∧ b.2.length = 128) ∧
  (∃ (s : State),
    s.chip.running = true) ∧
  (∃ (s : State) (c : Chan) (node : BitVec 11) (x : PendChange),
    s.chip.running = true ∧ changeOf s c = some x ∧ (x.kind = 1 ∨ x.nodes.any (fun q => !(q == node.toNat)) = true) ∧ (chan s c).busy = true ∧ (chan s c).lost = false) ∧
  (∃ (s : State) (c : Chan) (x : PendChange) (st : Status),
    AtRest s ∧ changeOf s c = some x ∧ x.kind = 0 ∧ st ≠ .done ∧ (chan s c).busy = true ∧ (chan s c).lost = false) ∧
  (∃ (s : State) (e : Fin 16) (m : Move) (j : BitVec 32) (it : Nat) (di : Nat) (st : Status) (x : PendChange),
    AtRest s ∧ s.mov.moves = [m] ∧ m.engine = some e.val ∧ m.origin = .almanac j it di ∧ m.phase = .draining ∧ changeOf s (4 + e.val) = some x ∧ x.kind = 3 ∧ (onNode s m.src = false ∨ heldFor s (movePageOf m) = []) ∧ s.mov.arrWait = [] ∧ st ≠ .done ∧ st ≠ .busy) ∧
  (∃ (s : State) (e : Fin 16) (m : Move) (x : PendChange),
    AtRest s ∧ s.mov.moves = [m] ∧ m.engine = some e.val ∧ m.phase = .draining ∧ changeOf s (4 + e.val) = some x ∧ x.kind = 3 ∧ (onNode s m.src = false ∨ heldFor s (movePageOf m) = []) ∧ s.mov.arrWait = []) ∧
  (∃ (s : State) (ep : BitVec 16) (i : BitVec 16) (d : Bytes) (x : Nat),
    AtRest s ∧ regionAt s ep.toNat i.toNat = some x ∧ d.length = 32 ∧ rgnTenantOk s ep.toNat (parseRegion d) = true ∧ measFull s ep.toNat i.toNat (parseRegion d) = false) ∧
  (∃ (s : State) (ep : BitVec 16) (d : Bytes),
    s.chip.running = true ∧ rgnTenantOk s ep.toNat (parseRegion (slice d 0 32)) = false) ∧
  (∃ (s : State),
    s.chip.running = true) ∧
  (∃ (s : State) (old : Nat) (new : Nat) (size : Nat) (w : BitVec 12) (key : BitVec 16) (tag : BitVec 32) (dkey : BitVec 16) (dtag : BitVec 32) (st : Status),
    AtRest s ∧ pageVerdict s w.toNat old new size key.toNat tag.toNat dkey.toNat dtag.toNat = st ∧ st ≠ .done) ∧
  (∃ (s : State) (old : Nat) (new : Nat) (size : Nat) (w : BitVec 12) (key : BitVec 16) (tag : BitVec 32) (dkey : BitVec 16) (dtag : BitVec 32),
    AtRest s ∧ pageVerdict s w.toNat old new size key.toNat tag.toNat dkey.toNat dtag.toNat = .done ∧ (onNode s old = false ∨ storesUnder s (oldMark old new size 0) = false)) ∧
  (∃ (s : State) (node : BitVec 11) (old : Nat) (new : Nat) (size : Nat) (off : Nat) (n : Nat),
    AtRest s ∧ onNode s old = false ∧ inTier s new = true ∧ marked s s.mov.arriving new (0x4800 + node.toNat) = true ∧ s.mov.arrWait = [] ∧ offOf new ≤ off ∧ off + n ≤ offOf new + size) :=
  ⟨⟨{ (cmd 0x20 [0, 1] b2) with xlat := { changes := [{ id := 0, nodes := [3], kind := 0 }] } }, 0, 3, { id := 0, nodes := [3], kind := 0 }, by decide +kernel⟩,
   ⟨{ (cmd 0x20 [0, 1] b2) with xlat := { changes := [{ id := 19, nodes := [3, 5], kind := 0 }] } }, 15, .done, { id := 19, nodes := [3, 5], kind := 0 }, by decide +kernel⟩,
   ⟨{ (cmd 0x20 [0, 1] b2) with xlat := { changes := [{ id := 0, nodes := [3], kind := 0 }] } }, 0, { id := 0, nodes := [3], kind := 0 }, by decide +kernel⟩,
   ⟨b2, 1, (0, List.replicate 128 7), 0, 0, by decide +kernel⟩,
   ⟨b2, by decide +kernel⟩,
   ⟨{ (cmd 0x20 [0, 1] b2) with xlat := { changes := [{ id := 0, nodes := [3, 9], kind := 0 }] } }, 0, 3, { id := 0, nodes := [3, 9], kind := 0 }, by decide +kernel⟩,
   ⟨{ (cmd 0x20 [0, 1] b2) with xlat := { changes := [{ id := 0, nodes := [3, 9], kind := 0 }] } }, 0, { id := 0, nodes := [3, 9], kind := 0 }, .busy, by decide +kernel⟩,
   ⟨{ b11 { mv0 with phase := .draining, desc := rel0, slot := (5 + 2 ^ 45, 7 + 2 ^ 8 + 0x4800 * 2 ^ 12) } with xlat := { changes := [{ id := 19, nodes := [1], kind := 3 }] } }, 15, { mv0 with phase := .draining, desc := rel0, slot := (5 + 2 ^ 45, 7 + 2 ^ 8 + 0x4800 * 2 ^ 12) }, 9, 0, 2, .accessDenied, { id := 19, nodes := [1], kind := 3 }, by decide +kernel⟩,
   ⟨{ b11 { mv0 with phase := .draining, desc := rel0, slot := (5 + 2 ^ 45, 7 + 2 ^ 8 + 0x4800 * 2 ^ 12) } with xlat := { changes := [{ id := 19, nodes := [1], kind := 3 }] } }, 15, { mv0 with phase := .draining, desc := rel0, slot := (5 + 2 ^ 45, 7 + 2 ^ 8 + 0x4800 * 2 ^ 12) }, { id := 19, nodes := [1], kind := 3 }, by decide +kernel⟩,
   ⟨{ b2 with ten := { b2.ten with shared := true } }, 0x4800, 9, rgn0, 0x09000000 + 288, by decide +kernel⟩,
   ⟨b2, 0x4800, rgn0, by decide +kernel⟩,
   ⟨b4, by decide +kernel⟩,
   ⟨b4, 0x4800 * 2 ^ 48 + 2 ^ 44, 0x4801 * 2 ^ 48 + 2 ^ 44, 2 ^ 20, 1, 0, 0, 0, 0, .accessDenied, by decide +kernel⟩,
   ⟨(setWord (winOff 0) 0 b4), 0x4800 * 2 ^ 48 + 2 ^ 44, 0x4801 * 2 ^ 48 + 2 ^ 44, 2 ^ 20, 1, 0, 0, 0, 0, by decide +kernel⟩,
   ⟨(tierWrite 1 128 [1, 2, 3] { b4 with mov := { arriving := [newMark (0x4800 * 2 ^ 48 + 2 ^ 44) (2 ^ 21) 0x4807] } }), 7, 0x4807 * 2 ^ 48 + 2 ^ 44, 0x4800 * 2 ^ 48 + 2 ^ 44, 2 ^ 21, 120, 20, by decide +kernel⟩⟩

theorem wit_HomePoints :
  (∃ (s : State) (line : BitVec 48) (l : HotLine) (p : Part) (a : Access),
    AtRest s ∧ s.home.hot = [l] ∧ l.home = hpMem ∧ l.line = line.toNat ∧ l.locked = false ∧ l.busy = [] ∧ l.wait = [p] ∧ lineOf p.off = l.line ∧ accOf s p.access = some a ∧ a.combine = none ∧ canIssue s hpMem a p = true ∧ s.home.queue = []) ∧
  (∃ (s : State) (k : Nat) (e : CombEntry) (p : Part) (a : Access),
    AtRest s ∧ s.home.comb = [e] ∧ e.num = k ∧ e.issued = false ∧ e.home = hpMem ∧ s.home.queue = [(hpMem, p)] ∧ s.home.hot = [] ∧ p.access = e.access ∧ accOf s e.access = some a ∧ a.combine = some k ∧ a.home = hpMem ∧ canIssue s hpMem a p = true ∧ 0 < hotLimit s hpMem ∧ noWait s = false) ∧
  (∃ (s : State) (line : BitVec 48) (l : HotLine) (p : Part) (a : Access),
    s.chip.running = true ∧ s.home.hot = [l] ∧ l.home = hpMem ∧ l.line = line.toNat ∧ l.busy = [p] ∧ lineOf p.off = l.line ∧ accOf s p.access = some a ∧ a.cxl = true ∧ a.op = .read ∧ a.left = 1 ∧ a.own = 0 ∧ a.combine = none ∧ a.status = .done ∧ a.data = [] ∧ a.frame.fpa = p.off ∧ spanOf a.frame = p.len ∧ 0 < p.len ∧ offsetOut s (p.off / 2 ^ 44) (p.off % 2 ^ 44) = false ∧ keysGone s (p.off / 2 ^ 44) (p.off % 2 ^ 44) = false ∧ poisoned s (p.off / 2 ^ 44) (p.off % 2 ^ 44) = false) ∧
  (∃ (s : State) (line : BitVec 48) (l : HotLine) (p : Part) (a : Access),
    AtRest s ∧ s.home.hot = [l] ∧ l.home = hpMem ∧ l.line = line.toNat ∧ l.busy = [p] ∧ l.wait = [] ∧ s.home.queue = [] ∧ lineOf p.off = l.line ∧ accOf s p.access = some a ∧ a.cxl = true ∧ a.op = .write ∧ a.left = 1 ∧ a.own = 0 ∧ a.combine = none ∧ a.status = .done ∧ a.frame.fpa = p.off ∧ a.frame.payload.length = p.len ∧ p.off / 2 ^ 44 = 1 ∧ a.frame.src.toNat < 0x4800 ∧ offsetOut s 1 (p.off % 2 ^ 44) = false ∧ keysGone s 1 (p.off % 2 ^ 44) = false ∧ poisoned s 1 (p.off % 2 ^ 44) = false) ∧
  (∃ (s : State) (data : Bytes) (x : HostAcc) (a : Access) (addr : Nat),
    AtRest s ∧ s.home.host = [x] ∧ x.isWrite = false ∧ x.locked = true ∧ accOf s x.part.access = some a ∧ a.op = .atomic ∧ dmaOn s = true ∧ hostAddr s (x.part.off % 2 ^ 44) x.part.len = some addr ∧ atomicNew a.frame.atop.toNat (slice data 0 x.part.len) a.frame.payload ≠ slice data 0 x.part.len) :=
  ⟨⟨(let s := lineAcc .read 1 [] b4; { s with home := { s.home with hot := [{ home := 72, line := 2 ^ 44 + 128, lastSrc := 0, wait := [part0] }] } }), 0x100000000080, { home := 72, line := 2 ^ 44 + 128, lastSrc := 0, wait := [part0] }, part0, (lineAcc .read 1 [] b4).home.accesses.headD { id := 0, home := 0, frame := { type := 1, src := 0, dst := 0 }, op := .read, left := 0 }, by decide +kernel⟩,
   ⟨(let s := lineAcc .read 1 [] (setWord cmbBase 0x100 b4); { s with home := { s.home with hot := [], queue := [(72, part0)], accesses := s.home.accesses.map (fun a => { a with combine := some 3 }), comb := [{ num := 3, home := 72, tenant := 0, fadd := false, addr := 2 ^ 44 + 128, atop := 0, access := 4, members := [] }] } }), 3, { num := 3, home := 72, tenant := 0, fadd := false, addr := 2 ^ 44 + 128, atop := 0, access := 4, members := [] }, part0, ((lineAcc .read 1 [] b4).home.accesses.map (fun a => { a with combine := some 3 })).headD { id := 0, home := 0, frame := { type := 1, src := 0, dst := 0 }, op := .read, left := 0 }, by decide +kernel⟩,
   ⟨(tierWrite 1 128 [1, 2, 3] (lineAcc .read 1 [] (cl b4))), 0x100000000080, { home := 72, line := 2 ^ 44 + 128, lastSrc := 0, busy := [part0] }, part0, (lineAcc .read 1 [] b4).home.accesses.headD { id := 0, home := 0, frame := { type := 1, src := 0, dst := 0 }, op := .read, left := 0 }, by decide +kernel⟩,
   ⟨(let s := lineAcc .write 2 (List.replicate 64 9) (cl b4); { s with home := { s.home with accesses := s.home.accesses.map (fun a => { a with frame := { a.frame with src := 5 } }) } }), 0x100000000080, { home := 72, line := 2 ^ 44 + 128, lastSrc := 0, busy := [part0] }, part0, ((lineAcc .write 2 (List.replicate 64 9) b4).home.accesses.map (fun a => { a with frame := { a.frame with src := 5 } })).headD { id := 0, home := 0, frame := { type := 1, src := 0, dst := 0 }, op := .read, left := 0 }, by decide +kernel⟩,
   ⟨(let s := lineAcc .atomic 4 [1, 0, 0, 0, 0, 0, 0, 0] (setWord (cxlBase + 4) 1 (setWord (cxlBase + 0x100) 1 (setWord (cxlBase + 0x108) 1 b4))); { s with home := { s.home with accesses := s.home.accesses.map (fun a => { a with home := 73, frame := { a.frame with atop := 1, len := 8 } }), host := [{ part := { access := 4, src := 0x4800, ord := false, off := 3 * 2 ^ 44 + 128, len := 8 }, locked := true, isWrite := false }] } }), [7, 0, 0, 0, 0, 0, 0, 0], { part := { access := 4, src := 0x4800, ord := false, off := 3 * 2 ^ 44 + 128, len := 8 }, locked := true, isWrite := false }, ((lineAcc .atomic 4 [1, 0, 0, 0, 0, 0, 0, 0] b4).home.accesses.map (fun a => { a with home := 73, frame := { a.frame with atop := 1, len := 8 } })).headD { id := 0, home := 0, frame := { type := 1, src := 0, dst := 0 }, op := .read, left := 0 }, 128, by decide +kernel⟩⟩

theorem wit_MemoryWindows :
  (∃ (s : State) (c : Chan) (dma : Bytes) (inp : Bytes),
    AtRest s ∧ MbxRuns s c 0x43 dma inp ∧ beField inp 0 1 < 16 ∧ beField inp 1 1 = 0 ∧ beField inp 2 2 < 4096 ∧ beField inp 6 4 + beField inp 14 4 ≤ 2 ^ 20) ∧
  (∃ (s : State) (dpa64 : BitVec 35) (ecc : Ecc) (w : Nat × Nat) (d : Region) (x : Nat) (f : Frame),
    AtRest s ∧ s.hif.cxl.up = true ∧ winAt s (dpa64.toNat * 64) = some w ∧ regionAt s (memEp s) (fieldOf s (winOff w.1) 16 16) = some x ∧ sysReadFails s x ecc = false ∧ readRegion s (memEp s) (fieldOf s (winOff w.1) 16 16) = some d ∧ d.admits (fieldOf s (winOff w.1) 4 12) d.keytag (if bitAt s (winOff w.1) 1 then 2 else 1) w.2 64 .r = true ∧ w.2 + 64 ≤ spaceLimit (if bitAt s (winOff w.1) 1 then 2 else 1) ∧ offsetOut s (if bitAt s (winOff w.1) 1 then 2 else 1) w.2 = false ∧ f = { type := tReq, cls := 2, dst := BitVec.ofNat 16 (memEp s), src := BitVec.ofNat 16 (memEp s), plane := s.fab.plane, tenant := BitVec.ofNat 12 (fieldOf s (winOff w.1) 4 12), opc := 1, len := 64, mid := midOf ((if bitAt s (winOff w.1) 1 then 2 else 1) * 2 ^ 44 + w.2) (fieldOf s (winOff w.1) 16 16) d.keytag, payload := [] } ∧ mayCut s (originRate s f) egMem f = false) ∧
  (∃ (s : State) (dpa64 : BitVec 35),
    s.chip.running = true ∧ s.hif.cxl.up = true ∧ winAt s (dpa64.toNat * 64) = none) ∧
  (∃ (s : State) (dpa64 : BitVec 35) (ecc : Ecc) (w : Nat × Nat) (d : Region) (x : Nat) (f : Frame),
    AtRest s ∧ s.hif.cxl.up = true ∧ winAt s (dpa64.toNat * 64) = some w ∧ regionAt s (memEp s) (fieldOf s (winOff w.1) 16 16) = some x ∧ sysReadFails s x ecc = false ∧ readRegion s (memEp s) (fieldOf s (winOff w.1) 16 16) = some d ∧ d.admits (fieldOf s (winOff w.1) 4 12) d.keytag (if bitAt s (winOff w.1) 1 then 2 else 1) w.2 64 .r = true ∧ w.2 + 64 ≤ spaceLimit (if bitAt s (winOff w.1) 1 then 2 else 1) ∧ offsetOut s (if bitAt s (winOff w.1) 1 then 2 else 1) w.2 = false ∧ f = { type := tReq, cls := 2, dst := BitVec.ofNat 16 (memEp s), src := BitVec.ofNat 16 (memEp s), plane := s.fab.plane, tenant := BitVec.ofNat 12 (fieldOf s (winOff w.1) 4 12), opc := 1, len := 64, mid := midOf ((if bitAt s (winOff w.1) 1 then 2 else 1) * 2 ^ 44 + w.2) (fieldOf s (winOff w.1) 16 16) d.keytag, payload := [] } ∧ mayCut s (originRate s f) egMem f = true ∧ (egOf s egMem).control = [] ∧ (egOf s egMem).lane = [] ∧ (List.range 32).all (fun q => (tget [] (egOf s egMem).queues q).isEmpty) = true ∧ s.sw.residue = [] ∧ s.sw.mirOpen = [] ∧ analysisPort s egMem = false ∧ openWindow s egMem = none ∧ ((∀ n ∈ List.range 8, bitAt s (mirOff n) 0 = false)) ∧ s.ten.tdmOn = false ∧ tdmAt s egMem = false ∧ egressUp s egMem = true ∧ hasRoom s f.tenant.toNat f.cells = true ∧ nextWindow s egMem (Machine.now s) = none ∧ homeReach s hpMem f = .done ∧ s.hif.cxl.wait = [] ∧ s.hif.cxl.arrived = []) ∧
  (∃ (s : State) (dpa64 : BitVec 35) (ecc : Ecc) (w : Nat × Nat) (d : Region) (x : Nat) (f : Frame) (data : Bytes),
    AtRest s ∧ s.hif.cxl.up = true ∧ winAt s (dpa64.toNat * 64) = some w ∧ regionAt s (memEp s) (fieldOf s (winOff w.1) 16 16) = some x ∧ sysReadFails s x ecc = false ∧ readRegion s (memEp s) (fieldOf s (winOff w.1) 16 16) = some d ∧ d.admits (fieldOf s (winOff w.1) 4 12) d.keytag (if bitAt s (winOff w.1) 1 then 2 else 1) w.2 64 .w = true ∧ w.2 + 64 ≤ spaceLimit (if bitAt s (winOff w.1) 1 then 2 else 1) ∧ offsetOut s (if bitAt s (winOff w.1) 1 then 2 else 1) w.2 = false ∧ d.meas = false ∧ f = { type := tReq, cls := 2, dst := BitVec.ofNat 16 (memEp s), src := BitVec.ofNat 16 (memEp s), plane := s.fab.plane, tenant := BitVec.ofNat 12 (fieldOf s (winOff w.1) 4 12), opc := 2, len := 64, mid := midOf ((if bitAt s (winOff w.1) 1 then 2 else 1) * 2 ^ 44 + w.2) (fieldOf s (winOff w.1) 16 16) d.keytag, payload := slice data 0 64 } ∧ mayCut s (originRate s f) egMem f = false) ∧
  (∃ (s : State) (dpa64 : BitVec 35) (ecc : Ecc) (w : Nat × Nat) (d : Region) (x : Nat) (f : Frame) (data : Bytes),
    AtRest s ∧ s.hif.cxl.up = true ∧ winAt s (dpa64.toNat * 64) = some w ∧ regionAt s (memEp s) (fieldOf s (winOff w.1) 16 16) = some x ∧ sysReadFails s x ecc = false ∧ readRegion s (memEp s) (fieldOf s (winOff w.1) 16 16) = some d ∧ d.admits (fieldOf s (winOff w.1) 4 12) d.keytag (if bitAt s (winOff w.1) 1 then 2 else 1) w.2 64 .w = true ∧ w.2 + 64 ≤ spaceLimit (if bitAt s (winOff w.1) 1 then 2 else 1) ∧ offsetOut s (if bitAt s (winOff w.1) 1 then 2 else 1) w.2 = false ∧ d.meas = false ∧ f = { type := tReq, cls := 2, dst := BitVec.ofNat 16 (memEp s), src := BitVec.ofNat 16 (memEp s), plane := s.fab.plane, tenant := BitVec.ofNat 12 (fieldOf s (winOff w.1) 4 12), opc := 2, len := 64, mid := midOf ((if bitAt s (winOff w.1) 1 then 2 else 1) * 2 ^ 44 + w.2) (fieldOf s (winOff w.1) 16 16) d.keytag, payload := slice data 0 64 } ∧ mayCut s (originRate s f) egMem f = true ∧ (egOf s egMem).control = [] ∧ (egOf s egMem).lane = [] ∧ (List.range 32).all (fun q => (tget [] (egOf s egMem).queues q).isEmpty) = true ∧ s.sw.residue = [] ∧ s.sw.mirOpen = [] ∧ analysisPort s egMem = false ∧ openWindow s egMem = none ∧ ((∀ n ∈ List.range 8, bitAt s (mirOff n) 0 = false)) ∧ s.ten.tdmOn = false ∧ tdmAt s egMem = false ∧ egressUp s egMem = true ∧ hasRoom s f.tenant.toNat f.cells = true ∧ nextWindow s egMem (Machine.now s) = none ∧ homeReach s hpMem f = .done ∧ s.hif.cxl.wait = [] ∧ s.hif.cxl.arrived = []) ∧
  (∃ (s : State) (dpa64 : BitVec 35),
    AtRest s ∧ s.hif.cxl.up = true ∧ winAt s (dpa64.toNat * 64) = none) ∧
  (∃ (s : State) (tier : Tier) (line : BitVec 37),
    AtRest s ∧ patrolOn s tier = true ∧ offsetOut s (match tier with | .stacks => 1 | .annex => 2) (line.toNat * 128) = false) ∧
  (∃ (s : State),
    AtRest s) :=
  ⟨⟨(cmd 0x43 [15, 0, 0, 1, 0, 2, 0, 0, 0, 3, 0, 0, 0, 4, 0, 0, 0, 5] b1), 0, [], [15, 0, 0, 1, 0, 2, 0, 0, 0, 3, 0, 0, 0, 4, 0, 0, 0, 5], by decide +kernel⟩,
   ⟨(setEg 88 { busyTo := 1 } b4), 2, .clean, (0, 128), parseRegion rgn0, 0x09000000, { type := tReq, cls := 2, dst := 0x4800, src := 0x4800, plane := b4.fab.plane, tenant := 1, opc := 1, len := 64, mid := midOf (1 * 2 ^ 44 + 128) 0 0, payload := [] }, by decide +kernel⟩,
   ⟨b4, 0x700000000, by decide +kernel⟩,
   ⟨{ b4 with ten := { b4.ten with shared := true } }, 2, .clean, (0, 128), parseRegion rgn0, 0x09000000, { type := tReq, cls := 2, dst := 0x4800, src := 0x4800, plane := b4.fab.plane, tenant := 1, opc := 1, len := 64, mid := midOf (1 * 2 ^ 44 + 128) 0 0, payload := [] }, by decide +kernel⟩,
   ⟨(setEg 88 { busyTo := 1 } { b4 with ten := { b4.ten with shared := true } }), 2, .clean, (0, 128), parseRegion rgn0, 0x09000000, { type := tReq, cls := 2, dst := 0x4800, src := 0x4800, plane := b4.fab.plane, tenant := 1, opc := 2, len := 64, mid := midOf (1 * 2 ^ 44 + 128) 0 0, payload := List.replicate 64 9 }, List.replicate 64 9, by decide +kernel⟩,
   ⟨{ b4 with ten := { b4.ten with shared := true } }, 2, .clean, (0, 128), parseRegion rgn0, 0x09000000, { type := tReq, cls := 2, dst := 0x4800, src := 0x4800, plane := b4.fab.plane, tenant := 1, opc := 2, len := 64, mid := midOf (1 * 2 ^ 44 + 128) 0 0, payload := List.replicate 64 9 }, List.replicate 64 9, by decide +kernel⟩,
   ⟨b4, 0x700000000, by decide +kernel⟩,
   ⟨setWord anxBase 3 b4, .annex, 9, by decide +kernel⟩,
   ⟨b4, by decide +kernel⟩⟩

theorem wit_HeldForms :
  (∃ (s : State) (f : Frame) (r : RecvCtx),
    AtRest s ∧ Served s f ∧ f.opc = 0x50 ∧ f.ord = true ∧ f.dst.toNat = memEp s ∧ s.trn.recv = [r] ∧ r.sid = fwdSid f ∧ inSession r.ipsn f.psn = true ∧ r.e = f.psn ∧ r.held = [] ∧ r.seen = [] ∧ r.succ = false ∧ r.refused = [] ∧ r.bad = [] ∧ homeReach s (homeOf f) f = .done) ∧
  (∃ (s : State) (f : Frame) (r : RecvCtx),
    AtRest s ∧ Served s f ∧ f.opc = 0x51 ∧ f.ord = true ∧ f.dst.toNat = memEp s ∧ s.trn.recv = [r] ∧ r.sid = fwdSid f ∧ inSession r.ipsn f.psn = true ∧ r.e = f.psn ∧ r.held = [] ∧ r.seen = [] ∧ r.succ = false ∧ r.refused = [] ∧ r.bad = [] ∧ homeReach s (homeOf f) f = .done) ∧
  (∃ (s : State) (f : Frame) (r : RecvCtx),
    AtRest s ∧ Served s f ∧ f.opc = 0x52 ∧ f.ord = true ∧ f.dst.toNat = memEp s ∧ s.trn.recv = [r] ∧ r.sid = fwdSid f ∧ inSession r.ipsn f.psn = true ∧ r.e = f.psn ∧ r.held = [] ∧ r.seen = [] ∧ r.succ = false ∧ r.refused = [] ∧ r.bad = [] ∧ homeReach s (homeOf f) f = .done) ∧
  (∃ (s : State) (f : Frame) (r : RecvCtx),
    AtRest s ∧ Served s f ∧ f.opc = 0x53 ∧ f.ord = true ∧ f.dst.toNat = memEp s ∧ s.trn.recv = [r] ∧ r.sid = fwdSid f ∧ inSession r.ipsn f.psn = true ∧ r.e = f.psn ∧ r.held = [] ∧ r.seen = [] ∧ r.succ = false ∧ r.refused = [] ∧ r.bad = [] ∧ homeReach s (homeOf f) f = .done) :=
  ⟨⟨(b5 true), (fr 0 0x50 103 true (midOf (2 ^ 44) 0 0) [1, 2]), rcv true, by decide +kernel⟩,
   ⟨(b5 true), (fr 0 0x51 103 true (midOf (2 ^ 44) 0 0) [1, 2]), rcv true, by decide +kernel⟩,
   ⟨(b5 true), ({ (fr 0 0x52 103 true (midOf (2 ^ 44) 0 0) [1, 0, 0, 0, 0, 0, 0, 0]) with atop := 1 } : Frame).seal, rcv true, by decide +kernel⟩,
   ⟨(b5 true), (fr 0 0x53 103 true (midOf (2 ^ 44) 0 0) [1, 0, 0, 0, 0, 0, 0, 0]), rcv true, by decide +kernel⟩⟩

theorem wit_FramesAtTheTarget :
  (∃ (s : State) (f : Frame) (r : RecvCtx),
    AtRest s ∧ Served s f ∧ (f.opc = 2 ∨ f.opc = 1 ∨ f.opc = 3 ∨ f.opc = 4 ∨ f.opc = 5) ∧ RecvCtx.knows f.psn r = false ∧ s.trn.recv = [r] ∧ r.sid = fwdSid f ∧ inSession r.ipsn f.psn = true ∧ r.refused = [] ∧ rgnCached s f = false) ∧
  (∃ (s : State) (f : Frame) (r : RecvCtx),
    AtRest s ∧ Served s f ∧ (f.opc = 2 ∨ f.opc = 1 ∨ f.opc = 3 ∨ f.opc = 4 ∨ f.opc = 5) ∧ f.ord = true ∧ s.trn.recv = [r] ∧ r.sid = fwdSid f ∧ inSession r.ipsn f.psn = true ∧ 0 < psnDiff f.psn r.e ∧ psnDiff f.psn r.e < 1024 ∧ r.held = [] ∧ r.seen = [] ∧ r.refused = [] ∧ rgnCached s f = true ∧ keyCheck s f = .done) ∧
  (∃ (s : State) (f : Frame) (r : RecvCtx),
    AtRest s ∧ Served s f ∧ f.opc = 0 ∧ f.ord = false ∧ s.trn.recv = [r] ∧ r.sid = fwdSid f ∧ inSession r.ipsn f.psn = true ∧ r.e = f.psn ∧ r.seen = [] ∧ r.ackDue = []) ∧
  (∃ (s : State) (f : Frame) (i : StreamId),
    AtRest s ∧ Taken s tOpen f ∧ quarantined s f.dst.toNat = false ∧ epFenced s f.dst.toNat = false ∧ beField f.payload 4 1 = 0x20 ∧ s.trn.recv = [] ∧ i = ⟨f.src, f.dst, (beField f.payload 6 2).testBit 15, BitVec.ofNat 12 (bitsOf (beField f.payload 6 2) 0 12)⟩ ∧ 0 < ctxLimit s (recvUnit s { sid := i, ipsn := 0, e := 0, host := f.space == 3 }) ∧ f.payload.length = 16 ∧ controlCells s < 8192) ∧
  (∃ (s : State) (f : Frame) (r : RecvCtx),
    AtRest s ∧ Taken s tClose f ∧ s.trn.send = [] ∧ s.trn.recv = [r] ∧ r.sid = fwdSid f ∧ inSession r.ipsn f.psn = true ∧ controlCells s < 8192) ∧
  (∃ (s : State) (i : StreamId) (r : RecvCtx),
    AtRest s ∧ s.trn.send = [] ∧ s.trn.recv = [r] ∧ r.sid = i ∧ r.ackDue ≠ [] ∧ inSession r.ipsn r.e = true ∧ controlCells s < 8192) ∧
  (∃ (s : State) (f : Frame) (r : RecvCtx),
    AtRest s ∧ Served s f ∧ (f.opc = 2 ∨ f.opc = 1 ∨ f.opc = 3 ∨ f.opc = 4 ∨ f.opc = 5) ∧ f.ord = false ∧ s.trn.recv = [r] ∧ r.sid = fwdSid f ∧ inSession r.ipsn f.psn = true ∧ r.e = f.psn ∧ r.held = [] ∧ r.seen = [] ∧ r.refused = [] ∧ rgnCached s f = true ∧ keyCheck s f = .done ∧ s.mov.arriving = [] ∧ s.mov.holding = [] ∧ s.mov.oldPages = [] ∧ homeReach s (homeOf f) f = .done) ∧
  (∃ (s : State) (f : Frame) (r : RecvCtx),
    AtRest s ∧ Served s f ∧ (f.opc = 2 ∨ f.opc = 1 ∨ f.opc = 3 ∨ f.opc = 4 ∨ f.opc = 5) ∧ f.ord = false ∧ s.trn.recv = [r] ∧ r.sid = fwdSid f ∧ inSession r.ipsn f.psn = true ∧ r.e = f.psn ∧ r.held = [] ∧ r.seen = [] ∧ r.refused = [] ∧ rgnCached s f = true ∧ keyCheck s f = .accessDenied) ∧
  (∃ (s : State) (f : Frame),
    AtRest s ∧ 8 ≤ f.type.toNat ∧ isLocalEp s f.dst.toNat = true ∧ f.hcrcOk = true ∧ f.crcOk = true) :=
  ⟨⟨(b5 false), (fr 0 2 103 false (midOf (2 ^ 44) 0 0) [1, 2]), rcv false, by decide +kernel⟩,
   ⟨{ b5 true with xlat := { rgnCache := [(9, [(0x4800, 0, 1)])] } }, (fr 0 2 108 true (midOf (2 ^ 44) 0 0) [1, 2]), rcv true, by decide +kernel⟩,
   ⟨(b5 false), (fr 0 0 103 false 0 []), rcv false, by decide +kernel⟩,
   ⟨b4, (fr 4 0 0x10000 false 0 [0, 1, 0, 0, 0x20, 0x0F, 0x80, 1, 0, 0, 0, 0, 0, 0, 0, 0]), ⟨0x4801, 0x4800, true, 1⟩, by decide +kernel⟩,
   ⟨(b5 false), (fr 6 0 103 false 0 []), rcv false, by decide +kernel⟩,
   ⟨{ b4 with trn := { b4.trn with recv := [{ rcv false with ackDue := [(101, false)] }] } }, ⟨0x4801, 0x4800, false, 1⟩, { rcv false with ackDue := [(101, false)] }, by decide +kernel⟩,
   ⟨{ b5 false with xlat := { rgnCache := [(9, [(0x4800, 0, 1)])] } }, (fr 0 2 103 false (midOf (2 ^ 44) 0 0) [1, 2]), rcv false, by decide +kernel⟩,
   ⟨{ b5 false with xlat := { rgnCache := [(9, [(0x4800, 1, 1)])] } }, (fr 0 2 103 false (midOf (2 ^ 44) 1 0) [1, 2]), rcv false, by decide +kernel⟩,
   ⟨(b5 false), (fr 9 2 103 false (midOf (2 ^ 44) 0 0) [1, 2]), by decide +kernel⟩⟩

theorem wit_FramesAtTheSource :
  (∃ (s : State) (f : Frame) (c : SendCtx) (x : Sent) (r : FabReq),
    AtRest s ∧ Taken s tRsp f ∧ s.trn.send = [c] ∧ c.sid = revSid f ∧ c.state = .opened ∧ c.starved = false ∧ c.waiting = [] ∧ c.unacked = [x] ∧ x.psn = f.psn ∧ s.trn.reqs = [r] ∧ r.id = x.req ∧ r.origin = .record ∧ r.ended = false ∧ r.left = 1 ∧ c.rspDue = []) ∧
  (∃ (s : State) (f : Frame) (c : SendCtx) (x : Sent) (r : FabReq),
    AtRest s ∧ Taken s tAck f ∧ s.trn.send = [c] ∧ c.sid = revSid f ∧ c.state = .opened ∧ c.starved = false ∧ c.waiting = [] ∧ c.unacked = [x] ∧ x.psn = f.psn ∧ s.trn.reqs = [r] ∧ r.id = x.req ∧ r.origin = .record ∧ r.ended = false ∧ r.left = 1 ∧ inSession c.ipsn (f.psn + 1) = true ∧ x.frame.opc = 2) ∧
  (∃ (s : State) (f : Frame) (c : SendCtx) (x : Sent) (r : FabReq),
    AtRest s ∧ Taken s tNak f ∧ s.trn.send = [c] ∧ c.sid = revSid f ∧ c.state = .opened ∧ c.starved = false ∧ c.waiting = [] ∧ c.unacked = [x] ∧ x.psn = f.psn ∧ s.trn.reqs = [r] ∧ r.id = x.req ∧ r.origin = .record ∧ r.ended = false ∧ r.left = 1 ∧ f.status = 0x0D) ∧
  (∃ (s : State) (f : Frame) (c : SendCtx),
    AtRest s ∧ Taken s tOpenAck f ∧ s.trn.send = [c] ∧ c.sid = revSid f ∧ c.state = .opening ∧ c.starved = false ∧ c.waiting = [] ∧ c.unacked = [] ∧ f.status = 0) ∧
  (∃ (s : State) (id : Nat) (r : FabReq) (c : SendCtx) (x : Sent),
    AtRest s ∧ s.trn.send = [c] ∧ c.unacked = [x] ∧ x.req = id ∧ c.waiting = [] ∧ reqOf s id = some r ∧ sameAttempt s r none = false ∧ r.attempt < 6 ∧ hasRoom s x.frame.tenant.toNat x.frame.cells = true ∧ x.frame.cls = 2) ∧
  (∃ (s : State) (id : Nat) (r : FabReq),
    AtRest s ∧ s.trn.send = [] ∧ s.trn.reqs = [r] ∧ r.id = id ∧ r.ended = false ∧ r.origin = .record) ∧
  (∃ (s : State) (f : Frame) (c : SendCtx) (x : Sent) (r : FabReq) (copy : Ecc),
    AtRest s ∧ Taken s tNak f ∧ s.trn.send = [c] ∧ c.sid = revSid f ∧ c.state = .opened ∧ c.starved = false ∧ c.waiting = [] ∧ c.unacked = [x] ∧ x.psn = f.psn ∧ s.trn.reqs = [r] ∧ r.id = x.req ∧ r.origin = .record ∧ r.ended = false ∧ r.left = 1 ∧ f.status = 0x05 ∧ copy ≠ .uncorrectable ∧ sameAttempt s r (some f.psn) = false) ∧
  (∃ (s : State) (f : Frame) (c : SendCtx) (x : Sent) (r : FabReq),
    AtRest s ∧ Taken s tNak f ∧ s.trn.send = [c] ∧ c.sid = revSid f ∧ c.state = .opened ∧ c.starved = false ∧ c.waiting = [] ∧ c.unacked = [x] ∧ x.psn = f.psn ∧ s.trn.reqs = [r] ∧ r.id = x.req ∧ r.origin = .record ∧ r.ended = false ∧ r.left = 1 ∧ f.status = 0x05) :=
  ⟨⟨(b6 1), (fr 1 1 102 false 0 [1, 2, 3, 4, 5, 6, 7, 8]), { snd with unacked := [un 1] }, un 1, fq 1, by decide +kernel⟩,
   ⟨(b6 2), (fr 2 0 102 false 0 []), { snd with unacked := [un 2] }, un 2, fq 2, by decide +kernel⟩,
   ⟨(b6 2), ({ (fr 3 0 102 false 0 []) with status := 0x0D } : Frame).seal, { snd with unacked := [un 2] }, un 2, fq 2, by decide +kernel⟩,
   ⟨(b7 .opening), (fr 5 0 100 false 0 [0, 0, 0, 100, 0x20, 0x0F, 0, 1, 0, 0, 0, 0, 0, 0, 0, 0]), { snd with state := .opening }, by decide +kernel⟩,
   ⟨(b8 (b6 2)), 4, fq 2, { snd with unacked := [un 2] }, un 2, by decide +kernel⟩,
   ⟨{ b4 with trn := { b4.trn with reqs := [fq 2] } }, 4, fq 2, by decide +kernel⟩,
   ⟨(b8 (b6 2)), ({ (fr 3 0 102 false 0 []) with status := 5 } : Frame).seal, { snd with unacked := [un 2] }, un 2, fq 2, .clean, by decide +kernel⟩,
   ⟨(b8 (b6 2)), ({ (fr 3 0 102 false 0 []) with status := 5 } : Frame).seal, { snd with unacked := [un 2] }, un 2, fq 2, by decide +kernel⟩⟩

theorem wit_SessionTimers :
  (∃ (s : State) (i : StreamId) (c : SendCtx) (e : Nat),
    AtRest s ∧ sendsIn s i .opening = [c] ∧ (s.trn.openAt.filter (fun x => decide (now s < x + tickUs))).length < 16 ∧ egressFor s (openFrame s c) = some e ∧ controlCells s + (openFrame s c).cells ≤ 8192) ∧
  (∃ (s : State) (i : StreamId) (c : SendCtx) (e : Nat),
    AtRest s ∧ sendsIn s i .closing = [c] ∧ egressFor s (closeFrame s c.sid c.next) = some e ∧ controlCells s + (closeFrame s c.sid c.next).cells ≤ 8192) ∧
  (∃ (s : State) (i : StreamId) (c : SendCtx),
    AtRest s ∧ s.trn.send = [c] ∧ c.sid = i ∧ c.starved = false ∧ SendCtx.idle c = true ∧ controlCells s < 8192) ∧
  (∃ (s : State) (i : StreamId) (c : SendCtx),
    AtRest s ∧ s.trn.send = [c] ∧ c.sid = i ∧ c.starved = false ∧ c.state = .closing ∧ c.unacked = [] ∧ c.waiting = []) :=
  ⟨⟨(b8 (b7 .opening)), ⟨0x4800, 0x4801, false, 1⟩, { snd with state := .opening }, 72, by decide +kernel⟩,
   ⟨(b8 (b7 .closing)), ⟨0x4800, 0x4801, false, 1⟩, { snd with state := .closing }, 72, by decide +kernel⟩,
   ⟨(b7 .opened), ⟨0x4800, 0x4801, false, 1⟩, snd, by decide +kernel⟩,
   ⟨(b7 .closing), ⟨0x4800, 0x4801, false, 1⟩, { snd with state := .closing }, by decide +kernel⟩⟩

theorem wit_Quarantine :
  (∃ (s : State) (e : BitVec 16),
    AtRest s ∧ e.toNat < 0x5000 ∧ s.trn.send = [] ∧ s.coll.ctxs = []) ∧
  (∃ (s : State) (e : BitVec 16),
    AtRest s ∧ e.toNat < 0x5000) ∧
  (∃ (s : State),
    s.chip.running = true) ∧
  (∃ (s : State) (c : Chan) (dma : Bytes) (inp : Bytes),
    AtRest s ∧ MbxRuns s c 0x23 dma inp ∧ beField inp 0 2 < 0x5000 ∧ s.trn.send = [] ∧ s.coll.ctxs = []) ∧
  (∃ (s : State) (c : Chan) (dma : Bytes) (inp : Bytes),
    AtRest s ∧ MbxRuns s c 0x24 dma inp ∧ beField inp 0 2 < 0x5000) :=
  ⟨⟨(b5 false), 0x4801, by decide +kernel⟩,
   ⟨{ b2 with trn := { b2.trn with quar := [5, 6] } }, 5, by decide +kernel⟩,
   ⟨(b8 b4), by decide +kernel⟩,
   ⟨(cmd 0x23 [0x48, 1, 1] (let s := b5 false; { s with fab := { s.fab with db := [{ node := 8, unitId := 5, domain := 0, seq := 1, state := 6, transit := true, links := [] }] } })), 0, [], [0x48, 1, 1], by decide +kernel⟩,
   ⟨(cmd 0x24 [0, 5, 1] { b2 with trn := { b2.trn with quar := [5, 6] } }), 0, [], [0, 5, 1], by decide +kernel⟩⟩

theorem wit_Switching :
  (∃ (s : State) (p : Port) (f : Frame) (line : LineIn),
    s.chip.running = true ∧ (portSt s p).state = .up ∧ isFabricPort s p = true ∧ f.hcrcOk = true ∧ ((portSt s p).enc = false ∨ encOk (portSt s p) line = true) ∧ ((portSt s p).late = true ∨ (portSt s p).delin = true ∨ line.idle = true ∨ regains f = true) ∧ s.ten.shared = true ∧ f.red = true ∧ f.dst.toNat = memEp s) ∧
  (∃ (s : State) (p : Port) (f : Frame) (line : LineIn) (e : Nat),
    AtRest s ∧ (portSt s p).state = .up ∧ isFabricPort s p = true ∧ f.hcrcOk = true ∧ ((portSt s p).enc = false ∨ encOk (portSt s p) line = true) ∧ (portSt s p).late = false ∧ ((portSt s p).delin = true ∨ line.idle = true ∨ regains f = true) ∧ s.ten.shared = true ∧ f.red = false ∧ f.cls = 0 ∧ 1 < f.ttl.toNat ∧ epNode s f.dst.toNat ≠ some (nodeId s) ∧ egressFor s (({ f with ttl := f.ttl - 1 } : Frame).reseal) = some e ∧ controlCells s + f.cells ≤ 8192 ∧ ((∀ n ∈ List.range 8, bitAt s (mirOff n) 0 = false))) ∧
  (∃ (s : State),
    AtRest s) ∧
  (∃ (s : State) (e : Egress) (now : Tick) (cells : Ecc) (f : Frame) (rest : List Frame),
    AtRest s ∧ egressUp s e = true ∧ swcOn s = true ∧ s.ten.tdmOn = false ∧ (egOf s e).control = f :: rest ∧ f.type ≠ tCtl ∧ cells ≠ .uncorrectable ∧ isCxlReq s f = false ∧ (egOf s e).busyTo ≤ Machine.now (advance now s) ∧ analysisPort s e = false) ∧
  (∃ (s : State) (p : Port) (now : Tick) (cells : Ecc) (f : Frame),
    s.chip.running = true ∧ tdmAt s p = true ∧ egressUp s p = true ∧ swcOn s = true ∧ s.time.started = true ∧ s.time.count ≤ now ∧ slotOwner s p now.toNat = 0x80 ∧ (egOf s p).control.find? (fun g => g.type == tCtl) = some f ∧ f.size * 400 ≤ (egOf s p).tokens ∧ f.size * 400 ≤ 1638400 ∧ now.toNat + sendTicks s p f ≤ slotRunEnd s p now.toNat ∧ cells ≠ .uncorrectable ∧ (egOf s p).busyTo ≤ now.toNat ∧ analysisPort s p = false) ∧
  (∃ (s : State) (c : Chan) (dma : Bytes) (inp : Bytes),
    AtRest s ∧ MbxRuns s c 0x50 dma inp ∧ beField inp 0 1 < 8 ∧ slice inp 1 3 = [0, 0, 0] ∧ mirOk (beField inp 4 4) (beField inp 12 4) = true ∧ (beField inp 4 4).testBit 0 = false) ∧
  (∃ (s : State) (e : Egress) (now : Tick) (f : Frame) (rest : List Frame),
    AtRest s ∧ egressUp s e = true ∧ swcOn s = true ∧ s.ten.tdmOn = false ∧ (egOf s e).control = f :: rest ∧ f.type ≠ tCtl ∧ (egOf s e).busyTo ≤ Machine.now (advance now s) ∧ analysisPort s e = false) ∧
  (∃ (s : State) (now : Tick) (cells : Ecc) (q : Nat) (d : Table Nat) (g : Frame) (f : Frame),
    AtRest s ∧ swcOn s = true ∧ s.ten.tdmOn = false ∧ (egOf s egMem).control = [] ∧ (egOf s egMem).lane = [] ∧ openWindow s egMem = none ∧ s.sw.residue = [] ∧ drrPick s (egOf s egMem) (headOf s egMem) = some (q, d) ∧ (tget [] (egOf s egMem).queues q).head? = some g ∧ nextWindow s egMem (Machine.now (advance now s)) = none ∧ cells ≠ .uncorrectable ∧ s.hif.cxl.wait = [f] ∧ unmarked f = unmarked g ∧ homeReach s hpMem f = .done ∧ (egOf s egMem).busyTo ≤ Machine.now (advance now s) ∧ analysisPort s egMem = false) :=
  ⟨⟨(b8 b4), 72, ({ (fr 0 0x40 5 false 0 []) with red := true } : Frame).seal, ⟨false, 0, false⟩, by decide +kernel⟩,
   ⟨(setPort 73 { state := .up, width := 0 } (b8 b4)), 73, ({ (fr 2 0 5 false 0 []) with dst := 0x4801, cls := 0 } : Frame).seal, ⟨false, 0, false⟩, 72, by decide +kernel⟩,
   ⟨(setEg 72 { control := [fr 2 0 5 false 0 [], fr 2 0 6 false 0 []] } (b8 b4)), by decide +kernel⟩,
   ⟨(setEg 72 { control := [fr 2 0 5 false 0 [], fr 2 0 6 false 0 []] } (b8 b4)), 72, 9, .corrected, fr 2 0 5 false 0 [], [fr 2 0 6 false 0 []], by decide +kernel⟩,
   ⟨(let s := setWord (swcBase + 0x1000 + 9 * 0x40) 0x80 (setEg 72 { control := [fr 2 0 5 false 0 [], fr 7 0 6 false 0 []] } (b8 b4)); { s with ten := { s.ten with tdmOn := true } }), 72, 9, .clean, fr 7 0 6 false 0 [], by decide +kernel⟩,
   ⟨(cmd 0x50 [7, 0, 0, 0, 0, 0, 0, 4, 0, 0, 0, 5, 0, 0, 0, 6] b1), 0, [], [7, 0, 0, 0, 0, 0, 0, 4, 0, 0, 0, 5, 0, 0, 0, 6], by decide +kernel⟩,
   ⟨(setEg 72 { control := [fr 2 0 5 false 0 [], fr 2 0 6 false 0 []] } (b8 b4)), 72, 9, fr 2 0 5 false 0 [], [fr 2 0 6 false 0 []], by decide +kernel⟩,
   ⟨(let f : Frame := { type := tReq, cls := 2, dst := 0x4800, src := 0x4800, plane := b4.fab.plane, tenant := 1, opc := 1, len := 64, mid := midOf (1 * 2 ^ 44 + 128) 0 0, payload := [] }; setEg 88 { queues := [(3, [f])] } { b8 b4 with hif := { b4.hif with cxl := { b4.hif.cxl with wait := [f] } } }), 9, .clean, 3, (match (let s := setEg 88 { queues := [(3, [{ type := tReq, cls := 2, dst := 0x4800, src := 0x4800, plane := b4.fab.plane, tenant := 1, opc := 1, len := 64, mid := midOf (1 * 2 ^ 44 + 128) 0 0, payload := [] }])] } (b8 b4); drrPick s (egOf s 88) (headOf s 88)) with | some x => x.2 | none => []), { type := tReq, cls := 2, dst := 0x4800, src := 0x4800, plane := b4.fab.plane, tenant := 1, opc := 1, len := 64, mid := midOf (1 * 2 ^ 44 + 128) 0 0, payload := [] }, { type := tReq, cls := 2, dst := 0x4800, src := 0x4800, plane := b4.fab.plane, tenant := 1, opc := 1, len := 64, mid := midOf (1 * 2 ^ 44 + 128) 0 0, payload := [] }, by decide +kernel⟩⟩

theorem wit_AlmanacLoading :
  (∃ (s : State) (c : Chan) (dma : Bytes) (inp : Bytes),
    s.chip.running = true ∧ MbxRuns s c 0x30 dma inp ∧ beField inp 0 4 = 0x414C4D4E ∧ ((parseAlm inp).format = 1 ∨ (parseAlm inp).format = 2) ∧ almDigestOk inp = true ∧ almFields s inp (parseAlm inp) = true ∧ almRights s (parseAlm inp) = true ∧ almFits s (parseAlm inp) = true ∧ almWindowsFree s (parseAlm inp) = true ∧ almColls (parseAlm inp) = [] ∧ now s + 400000 ≤ (parseAlm inp).start ∧ mbxFits s c 4 = true) ∧
  (∃ (s : State) (c : Chan) (dma : Bytes) (inp : Bytes),
    s.chip.running = true ∧ MbxRuns s c 0x31 dma inp ∧ (almOf s (BitVec.ofNat 32 (beField inp 0 4))).isSome = true) ∧
  (∃ (s : State) (job : BitVec 32) (now : Tick) (a : Almanac),
    s.chip.running = true ∧ almOf s job = some a ∧ a.state = .loaded ∧ s.time.started = true ∧ s.time.count ≤ now ∧ a.start + shiftAt a a.start ≤ now.toNat) ∧
  (∃ (s : State) (job : BitVec 32) (now : Tick) (a : Almanac),
    s.chip.running = true ∧ almOf s job = some a ∧ a.state = .running ∧ (a.iters = 0 ∨ a.iter + 1 < a.iters) ∧ s.time.started = true ∧ s.time.count ≤ now ∧ a.start + (a.iter + 1) * a.period + shiftAt a (a.start + (a.iter + 1) * a.period) ≤ now.toNat) ∧
  (∃ (s : State) (job : BitVec 32) (now : Tick) (a : Almanac),
    s.chip.running = true ∧ almOf s job = some a ∧ a.state = .running ∧ a.iters = a.iter + 1 ∧ s.time.started = true ∧ s.time.count ≤ now ∧ a.start + (a.iter + 1) * a.period + shiftAt a (a.start + (a.iter + 1) * a.period) ≤ now.toNat) :=
  ⟨⟨(cmd 0x30 img0 { b4 with ten := { b4.ten with ten := [(0, { state := .active, tenant := 1 })] } }), 0, [], img0, by decide +kernel⟩,
   ⟨(cmd 0x31 [0, 0, 0, 9] (b9 (alm0 0 0 0 []))), 0, [], [0, 0, 0, 9], by decide +kernel⟩,
   ⟨(b9 { alm0 0 0 0 [] with state := .loaded }), 9, 8, { alm0 0 0 0 [] with state := .loaded }, by decide +kernel⟩,
   ⟨(b9 (alm0 0 0 0 [])), 9, 4000, (alm0 0 0 0 []), by decide +kernel⟩,
   ⟨(b9 { alm0 0 0 0 [] with iters := 1 }), 9, 4000, { alm0 0 0 0 [] with iters := 1 }, by decide +kernel⟩⟩

theorem wit_AlmanacEntries :
  (∃ (s : State) (job : BitVec 32) (idx : Nat) (now : Tick) (a : Almanac) (e : AlmEntry),
    AtRest s ∧ almOf s job = some a ∧ a.state = .running ∧ a.entries[idx]? = some e ∧ e.type = 1 ∧ idx ∉ a.fired ∧ s.time.started = true ∧ s.time.count ≤ now ∧ dueAt a a.iter e.offset ≤ now.toNat ∧ turnOpen (advance now s) true (dueAt a a.iter e.offset) (a.first + idx) = true ∧ e.guard = 0 ∧ (s.time.servo ≠ .unlocked ∨ isFabricPort s (e.bits 0 7) = false)) ∧
  (∃ (s : State) (now : Tick),
    AtRest s ∧ s.time.started = true ∧ s.time.count ≤ now ∧ commitDue (advance now s) = false) ∧
  (∃ (s : State) (job : BitVec 32) (idx : Nat) (now : Tick) (a : Almanac) (e : AlmEntry) (k : Nat) (x : Ctx),
    AtRest s ∧ almOf s job = some a ∧ a.state = .running ∧ a.entries[idx]? = some e ∧ e.type = 2 ∧ idx ∉ a.fired ∧ s.time.started = true ∧ s.time.count ≤ now ∧ dueAt a a.iter e.offset ≤ now.toNat ∧ turnOpen (advance now s) false (dueAt a a.iter e.offset) (a.first + idx) = true ∧ e.guard = 0 ∧ ctxsOf s a.tenant (beField (a.descs.getD (e.bits 0 12) []) 4 4) = [(k, x)] ∧ ctxOf s k = x ∧ x.alm = some a.job ∧ x.slots = [] ∧ x.waitData = []) ∧
  (∃ (s : State) (job : BitVec 32) (idx : Nat) (now : Tick) (a : Almanac) (e : AlmEntry) (lines : List (Nat × Ecc)) (p : Nat) (bs : Bytes) (d : Bytes) (x : McastPort),
    AtRest s ∧ almOf s job = some a ∧ a.state = .running ∧ a.entries[idx]? = some e ∧ e.type = 3 ∧ idx ∉ a.fired ∧ s.time.started = true ∧ s.time.count ≤ now ∧ dueAt a a.iter e.offset ≤ now.toNat ∧ turnOpen (advance now s) false (dueAt a a.iter e.offset) (a.first + idx) = true ∧ e.guard = 0 ∧ a.descs.getD (e.bits 0 12) [] = d ∧ bitsSet 72 (beField d 4 9) = [p] ∧ x = { tenant := a.tenant, job := a.job, iter := a.iter, idx := e.bits 0 12, desc := d, port := p } ∧ x.bound s = true ∧ mcastReady s x = true ∧ ownsStacks s a.tenant.toNat (beField d 16 8) (beField d 24 8) = true ∧ ownRead s (beField d 16 8) (beField d 24 8) lines = some bs ∧ s.trn.send = [] ∧ 0 < ctxLimit s (unitOf s (BitVec.ofNat 16 (memEp s)) a.tenant) ∧ controlCells s < 8192 ∧ (deviceStore (.multicast x) a.tenant (slotEp s p) (fvaAt (slotEp s p) (beField d 32 8)) (beField d 40 2) (beField d 42 4) bs 1 false (bs.length / 2 ^ 21 + 2) s).isSome = true) ∧
  (∃ (s : State) (job : BitVec 32) (idx : Nat) (now : Tick) (a : Almanac) (e : AlmEntry),
    AtRest s ∧ almOf s job = some a ∧ a.state = .running ∧ a.entries[idx]? = some e ∧ e.type = 4 ∧ idx ∉ a.fired ∧ s.time.started = true ∧ s.time.count ≤ now ∧ dueAt a a.iter e.offset ≤ now.toNat ∧ turnOpen (advance now s) false (dueAt a a.iter e.offset) (a.first + idx) = true ∧ e.guard = 0 ∧ (parseMove (a.descs.getD (e.bits 0 12) [])).plane = some s.fab.plane.toNat) ∧
  (∃ (s : State) (job : BitVec 32) (idx : Nat) (now : Tick) (a : Almanac) (e : AlmEntry),
    s.chip.running = true ∧ almOf s job = some a ∧ a.state = .running ∧ a.entries[idx]? = some e ∧ e.type = 0 ∧ idx ∉ a.fired ∧ s.time.started = true ∧ s.time.count ≤ now ∧ dueAt a a.iter e.offset ≤ now.toNat ∧ turnOpen (advance now s) false (dueAt a a.iter e.offset) (a.first + idx) = true ∧ e.guard = 0) ∧
  (∃ (s : State) (job : BitVec 32) (idx : Nat) (now : Tick) (a : Almanac) (e : AlmEntry) (lines : List (Nat × Ecc)) (d : Bytes),
    AtRest s ∧ almOf s job = some a ∧ a.state = .running ∧ a.entries[idx]? = some e ∧ e.type = 3 ∧ idx ∉ a.fired ∧ s.time.started = true ∧ s.time.count ≤ now ∧ dueAt a a.iter e.offset ≤ now.toNat ∧ turnOpen (advance now s) false (dueAt a a.iter e.offset) (a.first + idx) = true ∧ e.guard = 0 ∧ a.descs.getD (e.bits 0 12) [] = d ∧ ownsStacks s a.tenant.toNat (beField d 16 8) (beField d 24 8) = true ∧ ownRead s (beField d 16 8) (beField d 24 8) lines = none) ∧
  (∃ (s : State) (job : BitVec 32) (idx : Nat) (now : Tick) (a : Almanac) (e : AlmEntry) (lines : List (Nat × Ecc)) (p : Nat) (bs : Bytes) (d : Bytes) (x : McastPort),
    AtRest s ∧ almOf s job = some a ∧ a.state = .running ∧ a.entries[idx]? = some e ∧ e.type = 3 ∧ idx ∉ a.fired ∧ s.time.started = true ∧ s.time.count ≤ now ∧ dueAt a a.iter e.offset ≤ now.toNat ∧ turnOpen (advance now s) false (dueAt a a.iter e.offset) (a.first + idx) = true ∧ e.guard = 0 ∧ a.descs.getD (e.bits 0 12) [] = d ∧ bitsSet 72 (beField d 4 9) = [p] ∧ x = { tenant := a.tenant, job := a.job, iter := a.iter, idx := e.bits 0 12, desc := d, port := p } ∧ x.bound s = true ∧ mcastReady s x = false ∧ ownsStacks s a.tenant.toNat (beField d 16 8) (beField d 24 8) = true ∧ ownRead s (beField d 16 8) (beField d 24 8) lines = some bs) :=
  ⟨⟨(b9 (alm0 1 0 0x6400000105 [])), 9, 0, 8, (alm0 1 0 0x6400000105 []), { type := 1, guard := 0, offset := 8, arg := 0x6400000105 }, by decide +kernel⟩,
   ⟨{ b4 with sw := { wins := [{ port := 5, tenant := 1, job := 9, close := 7 }, { port := 5, tenant := 1, job := 9, close := 20, isOpen := false }] } }, 8, by decide +kernel⟩,
   ⟨{ b9 (alm0 2 0 0x7000 [[1, 0, 0, 0, 0, 0, 0, 4]]) with coll := { ctxs := [(6, { state := .idle, tenant := 1, handle := 4, alm := some 9 })] } }, 9, 0, 8, (alm0 2 0 0x7000 [[1, 0, 0, 0, 0, 0, 0, 4]]), { type := 2, guard := 0, offset := 8, arg := 0x7000 }, 6, { state := .idle, tenant := 1, handle := 4, alm := some 9 }, by decide +kernel⟩,
   ⟨(b10 { b9 (alm0 3 0 0 [mc0]) with ten := { b4.ten with shared := true } }), 9, 0, 8, (alm0 3 0 0 [mc0]), { type := 3, guard := 0, offset := 8, arg := 0 }, [(0, .corrected)], 5, [0], mc0, { tenant := 1, job := 9, iter := 0, idx := 0, desc := mc0, port := 5 }, by decide +kernel⟩,
   ⟨(b9 (alm0 4 0 0 [copy0])), 9, 0, 8, (alm0 4 0 0 [copy0]), { type := 4, guard := 0, offset := 8, arg := 0 }, by decide +kernel⟩,
   ⟨(b9 (alm0 0 0 0 [])), 9, 0, 8, (alm0 0 0 0 []), { type := 0, guard := 0, offset := 8, arg := 0 }, by decide +kernel⟩,
   ⟨(b10 { b9 (alm0 3 0 0 [mc0]) with ten := { b4.ten with shared := true } }), 9, 0, 8, (alm0 3 0 0 [mc0]), { type := 3, guard := 0, offset := 8, arg := 0 }, [(0, .uncorrectable)], mc0, by decide +kernel⟩,
   ⟨(let s := b10 { b9 (alm0 3 0 0 [mc0]) with ten := { b4.ten with shared := true } }; setEg 5 { queues := [((queueFor s 1).1, [fr 0 2 5 false 0 []])] } s), 9, 0, 8, (alm0 3 0 0 [mc0]), { type := 3, guard := 0, offset := 8, arg := 0 }, [], 5, [0], mc0, { tenant := 1, job := 9, iter := 0, idx := 0, desc := mc0, port := 5 }, by decide +kernel⟩⟩

theorem wit_ReadinessAndSlips :
  (∃ (s : State) (job : BitVec 32) (idx : Nat) (now : Tick) (a : Almanac) (e : AlmEntry) (ecc : Ecc),
    s.chip.running = true ∧ almOf s job = some a ∧ a.state = .running ∧ a.entries[idx]? = some e ∧ e.type = 5 ∧ idx ∉ a.fired ∧ s.time.started = true ∧ s.time.count ≤ now ∧ dueAt a a.iter e.offset ≤ now.toNat ∧ turnOpen (advance now s) false (dueAt a a.iter e.offset) (a.first + idx) = true ∧ a.attempts = [] ∧ a.held = [] ∧ evalCheck s a a.iter e ecc = .holds) ∧
  (∃ (s : State) (job : BitVec 32) (idx : Nat) (now : Tick) (a : Almanac) (e : AlmEntry) (ecc : Ecc),
    s.chip.running = true ∧ almOf s job = some a ∧ a.state = .running ∧ a.entries[idx]? = some e ∧ e.type = 5 ∧ idx ∉ a.fired ∧ s.time.started = true ∧ s.time.count ≤ now ∧ dueAt a a.iter e.offset ≤ now.toNat ∧ turnOpen (advance now s) false (dueAt a a.iter e.offset) (a.first + idx) = true ∧ a.attempts = [] ∧ a.held = [] ∧ evalCheck s a a.iter e ecc = .no ∧ 0 < slipLimitOf s a ∧ a.slipKeys = [] ∧ coreSt s coreSched = .running ∧ a.quanta = []) ∧
  (∃ (s : State) (bs : Bytes) (m : SlipMsg) (a : Almanac),
    s.chip.running = true ∧ parseSlip bs = some m ∧ almOf s m.job = some a ∧ (m.iter.toNat, m.guard.toNat, m.attempt.toNat) ∉ a.slipKeys) ∧
  (∃ (s : State) (job : BitVec 32) (now : Tick) (a : Almanac) (q : Nat × Nat),
    s.chip.running = true ∧ almOf s job = some a ∧ a.quanta = [q] ∧ q.1 ≤ now.toNat ∧ s.time.started = true ∧ s.time.count ≤ now) ∧
  (∃ (s : State) (job : BitVec 32) (idx : Nat) (a : Almanac) (e : AlmEntry) (found : HeldReads) (i : Nat) (c : AlmEntry),
    s.chip.running = true ∧ almOf s job = some a ∧ a.held = [(i, idx)] ∧ a.entries[idx]? = some e ∧ a.entries.find? (fun x => x.type == 5 && x.guard == e.guard) = some c ∧ evalCheck s a i c found.word = .holds) ∧
  (∃ (s : State) (bs : Bytes) (m : SlipMsg),
    s.chip.running = true ∧ parseSlip bs = some m ∧ almOf s m.job = none ∧ (m.job, m.iter.toNat, m.guard.toNat, m.attempt.toNat) ∉ s.time.slips) :=
  ⟨⟨{ b9 (alm0 5 3 1 []) with mov := { doneDesc := [(9, 0, 0, .done)] } }, 9, 0, 8, (alm0 5 3 1 []), { type := 5, guard := 3, offset := 8, arg := 1 }, .clean, by decide +kernel⟩,
   ⟨(b9 { alm0 5 3 1 [] with members := [] }), 9, 0, 8, { alm0 5 3 1 [] with members := [] }, { type := 5, guard := 3, offset := 8, arg := 1 }, .clean, by decide +kernel⟩,
   ⟨(b9 (alm0 0 0 0 [])), slipBytes { job := 9, iter := 0, guard := 3, attempt := 1, tEff := 30000, shiftAfter := 50000 }, { job := 9, iter := 0, guard := 3, attempt := 1, tEff := 30000, shiftAfter := 50000 }, (alm0 0 0 0 []), by decide +kernel⟩,
   ⟨(b9 { alm0 0 0 0 [] with quanta := [(7, 50000)] }), 9, 8, { alm0 0 0 0 [] with quanta := [(7, 50000)] }, (7, 50000), by decide +kernel⟩,
   ⟨{ b9 { alm0 4 3 0 [copy0] with held := [(0, 0)] } with mov := { doneDesc := [(9, 0, 0, .done)] } }, 9, 0, { alm0 4 3 0 [copy0] with held := [(0, 0)] }, { type := 4, guard := 3, offset := 8, arg := 0 }, ⟨.clean, [], .clean⟩, 0, { type := 5, guard := 3, offset := 4, arg := 1 }, by decide +kernel⟩,
   ⟨(b9 (alm0 0 0 0 [])), slipBytes { job := 7, iter := 0, guard := 3, attempt := 1, tEff := 30000, shiftAfter := 50000 }, { job := 7, iter := 0, guard := 3, attempt := 1, tEff := 30000, shiftAfter := 50000 }, by decide +kernel⟩⟩

theorem wit_CollectiveMessages :
  (∃ (s : State) (p : APort) (m : AttMsg) (k : Nat) (x : Ctx) (mb : MemberSt) (mo : MemberSt),
    AtRest s ∧ arrival s p m = .take ∧ portBound s p = true ∧ collFormat m = true ∧ AttChunk m = 0xFFFFFFFF ∧ bitOf (parseDesc m.payload).planes s.fab.plane.toNat = true ∧ leafOf s (collTenant s p) (AttHandle m) = some (k, x) ∧ ctxOf s k = x ∧ x.memberAt p = some mb ∧ x.state = .idle ∧ x.digest = none ∧ x.members = [mb, mo] ∧ mb.desc = [] ∧ mo.desc = [] ∧ mo.index ≠ mb.index ∧ descBad s x (parseDesc m.payload) = false ∧ (parseDesc m.payload).shiftOk = true ∧ progLoaded s x.tenant (parseDesc m.payload).program = true ∧ x.waitKid = [] ∧ x.waitDesc = []) ∧
  (∃ (s : State) (p : APort) (m : AttMsg) (k : Nat) (x : Ctx) (mb : MemberSt),
    AtRest s ∧ arrival s p m = .take ∧ portBound s p = true ∧ collFormat m = true ∧ leafOf s (collTenant s p) (AttHandle m) = some (k, x) ∧ ctxOf s k = x ∧ x.memberAt p = some mb ∧ (sess s p).out = [] ∧ x.state = .active ∧ x.agreed = true ∧ x.members = [mb] ∧ mb.desc ≠ [] ∧ mb.bad = false ∧ x.waitDesc = [] ∧ x.waitData = [] ∧ x.seen = [] ∧ x.slots = [] ∧ s.arr.landing = [] ∧ m.atop.toNat = (parseDesc mb.desc).op ∧ AttChunk m < (parseDesc mb.desc).chunks ∧ (parseDesc mb.desc).planeOf (AttChunk m) = s.fab.plane.toNat ∧ chunkLenOk (parseDesc mb.desc) (AttChunk m) m.payload = true ∧ (parseDesc mb.desc).op ≠ 3 ∧ (refOf s x).reduces = true ∧ (refOf s x).arrival = false ∧ (refOf s x).onPlane (AttChunk m) < x.freed + (refOf s x).window) ∧
  (∃ (s : State) (p : APort) (m : AttMsg),
    AtRest s ∧ arrival s p m = .take ∧ portBound s p = true ∧ collFormat m = true ∧ m.atop = 0x10 ∧ bitOf (parseDesc m.payload).planes s.fab.plane.toNat = true ∧ fvaOk (parseDesc m.payload).fva = true ∧ ((parseDesc m.payload).fva.testBit 63 && bitsOf (parseDesc m.payload).fva 60 3 != s.fab.plane.toNat) = false ∧ (match listFrames s (collTenant s p) (parseDesc m.payload) 3 (parseDesc m.payload).fva (2 * (parseDesc m.payload).members) with | .ok [_] => true | _ => false) = true ∧ s.trn.send = [] ∧ 0 < ctxLimit s (unitOf s (BitVec.ofNat 16 (memEp s)) (collTenant s p)) ∧ controlCells s < 8192) ∧
  (∃ (s : State) (p : APort) (m : AttMsg) (k : Nat) (x : Ctx),
    AtRest s ∧ arrival s p m = .take ∧ portBound s p = true ∧ collFormat m = true ∧ m.atop = 0x11 ∧ ctxsOf s (collTenant s p) (AttHandle m) = [(k, x)] ∧ x.alm = none ∧ x.state = .idle ∧ ctxOf s k = x ∧ x.waitDesc = [] ∧ otherHosts s x.ids = []) :=
  ⟨⟨(bc cx b2), 5, (cm 6 0xFFFFFFFF dsc0), 6, cx, { port := 5, index := 0 }, { port := 6, index := 1 }, by decide +kernel⟩,
   ⟨(bc cAct b2), 5, (cm 6 0 (List.replicate 512 1)), 6, cAct, { port := 5, index := 0, desc := dsc0 }, by decide +kernel⟩,
   ⟨(b10 { b2 with ten := { b2.ten with shared := true } }), 5, (cm 0x10 0xFFFFFFFE dscOpen), by decide +kernel⟩,
   ⟨(bc cx b2), 5, (cm 0x11 0xFFFFFFFE []), 6, cx, by decide +kernel⟩⟩

theorem wit_CollectiveFrames :
  (∃ (s : State) (f : Frame) (r : RecvCtx) (k : Nat) (x : Ctx),
    AtRest s ∧ f.opc = 0x40 ∧ Served s f ∧ f.ord = false ∧ f.first = true ∧ f.last = true ∧ s.trn.recv = [r] ∧ r.sid = fwdSid f ∧ inSession r.ipsn f.psn = true ∧ r.e = f.psn ∧ r.held = [] ∧ r.seen = [] ∧ r.ackDue = [] ∧ r.refused = [] ∧ collFeatOk s f r.feat = true ∧ ctxsOf s f.tenant f.handle = [(k, x)] ∧ parentCtx s f = some (k, x) ∧ ctxOf s k = x ∧ x.isLeaf = false ∧ x.slots = [] ∧ takesPartial s x f.chunk = true) ∧
  (∃ (s : State) (f : Frame) (r : RecvCtx) (k : Nat) (x : Ctx) (j : Kid),
    AtRest s ∧ f.opc = 0x41 ∧ Served s f ∧ f.ord = false ∧ f.first = true ∧ f.last = true ∧ s.trn.recv = [r] ∧ r.sid = fwdSid f ∧ inSession r.ipsn f.psn = true ∧ r.e = f.psn ∧ r.held = [] ∧ r.seen = [] ∧ r.ackDue = [] ∧ r.refused = [] ∧ collFeatOk s f r.feat = true ∧ f.dst.toNat = memEp s ∧ ctxsOf s f.tenant f.handle = [(k, x)] ∧ coverCtx s f = some (k, x) ∧ ctxOf s k = x ∧ x.state = .active ∧ x.members = [] ∧ x.kids = [j] ∧ j.node ≠ nodeId s ∧ x.isRoot = false ∧ x.doneDown = false ∧ x.ref ≠ [] ∧ s.trn.send = [] ∧ 0 < ctxLimit s (unitOf s (BitVec.ofNat 16 (memEp s)) f.tenant) ∧ controlCells s < 8192) ∧
  (∃ (s : State) (f : Frame) (r : RecvCtx) (k : Nat) (x : Ctx),
    AtRest s ∧ f.opc = 0x42 ∧ Served s f ∧ f.ord = false ∧ f.first = true ∧ f.last = true ∧ s.trn.recv = [r] ∧ r.sid = fwdSid f ∧ inSession r.ipsn f.psn = true ∧ r.e = f.psn ∧ r.held = [] ∧ r.seen = [] ∧ r.ackDue = [] ∧ r.refused = [] ∧ collFeatOk s f r.feat = true ∧ leafOf s f.tenant f.handle = some (k, x) ∧ ctxOf s k = x ∧ (parseDesc x.descr).reduces = false ∧ x.waitData = [] ∧ x.state = .active ∧ x.seq = BitVec.ofNat 32 f.chunk) ∧
  (∃ (s : State) (f : Frame) (r : RecvCtx) (k : Nat) (x : Ctx),
    AtRest s ∧ f.opc = 0x43 ∧ Served s f ∧ f.ord = false ∧ f.first = true ∧ f.last = true ∧ s.trn.recv = [r] ∧ r.sid = fwdSid f ∧ inSession r.ipsn f.psn = true ∧ r.e = f.psn ∧ r.held = [] ∧ r.seen = [] ∧ r.ackDue = [] ∧ r.refused = [] ∧ collFeatOk s f r.feat = true ∧ parentCtx s f = some (k, x) ∧ ctxOf s k = x ∧ x.state = .idle ∧ x.waitKid = [] ∧ x.waitDesc = [] ∧ x.members.any (fun m => m.desc.isEmpty) = true) ∧
  (∃ (s : State) (f : Frame) (r : RecvCtx) (k : Nat) (x : Ctx),
    AtRest s ∧ f.opc = 0x44 ∧ Served s f ∧ f.ord = false ∧ f.first = true ∧ f.last = true ∧ s.trn.recv = [r] ∧ r.sid = fwdSid f ∧ inSession r.ipsn f.psn = true ∧ r.e = f.psn ∧ r.held = [] ∧ r.seen = [] ∧ r.ackDue = [] ∧ r.refused = [] ∧ collFeatOk s f r.feat = true ∧ coverCtx s f = some (k, x) ∧ ctxOf s k = x ∧ x.seq.toNat = beField f.payload 0 4 ∧ x.state = .active ∧ x.doneDown = false ∧ x.kids = [] ∧ x.isLeaf = true ∧ x.ref ≠ [] ∧ membersDone s x = false) ∧
  (∃ (s : State) (f : Frame) (r : RecvCtx) (k : Nat) (x : Ctx),
    AtRest s ∧ f.opc = 0x42 ∧ Served s f ∧ f.ord = false ∧ f.first = true ∧ f.last = true ∧ s.trn.recv = [r] ∧ r.sid = fwdSid f ∧ inSession r.ipsn f.psn = true ∧ r.e = f.psn ∧ r.held = [] ∧ r.seen = [] ∧ r.ackDue = [] ∧ r.refused = [] ∧ collFeatOk s f r.feat = true ∧ leafOf s f.tenant f.handle = some (k, x) ∧ ctxOf s k = x ∧ (parseDesc x.descr).reduces = false ∧ x.waitData = [] ∧ (x.ran = false ∨ 0 < psnDiff (BitVec.ofNat 32 f.chunk) x.seq) ∧ (x.state ≠ .active ∨ x.seq ≠ BitVec.ofNat 32 f.chunk)) ∧
  (∃ (s : State) (f : Frame) (r : RecvCtx) (k : Nat) (x : Ctx),
    AtRest s ∧ f.opc = 0x42 ∧ Served s f ∧ f.ord = false ∧ f.first = true ∧ f.last = true ∧ s.trn.recv = [r] ∧ r.sid = fwdSid f ∧ inSession r.ipsn f.psn = true ∧ r.e = f.psn ∧ r.held = [] ∧ r.seen = [] ∧ r.ackDue = [] ∧ r.refused = [] ∧ collFeatOk s f r.feat = true ∧ ctxsOf s f.tenant f.handle = [(k, x)] ∧ leafOf s f.tenant f.handle = some (k, x) ∧ coverCtx s f = some (k, x) ∧ ctxOf s k = x ∧ (parseDesc x.descr).reduces = true ∧ x.waitData = [] ∧ x.slots = [] ∧ x.state = .active ∧ x.seq = BitVec.ofNat 32 f.chunk) :=
  ⟨⟨(bc cInt (b5 false)), (cf 0x40 0 2 3 (List.replicate 8 1)), rcv false, 6, cInt, by decide +kernel⟩,
   ⟨(let s := bc cInt (b5 false); { s with ten := { s.ten with shared := true } }), (cf 0x41 0 0 3 (List.replicate 8 1)), rcv false, 6, cInt, ⟨1, 2, 3, false⟩, by decide +kernel⟩,
   ⟨(bc { cAct with ref := mcast0.take 40, descr := mcast0 } (b5 false)), (cf 0x42 1 1 1 [0, 0, 0, 0, 0, 0, 0, 200]), rcv false, 6, { cAct with ref := mcast0.take 40, descr := mcast0 }, by decide +kernel⟩,
   ⟨(bc { cx with kids := [⟨1, 2, 3, false⟩] } (b5 false)), (cf 0x43 0 2 3 [1, 2, 3, 4, 5, 6, 7, 8, 0, 0, 0, 9, 0, 0, 0, 0]), rcv false, 6, { cx with kids := [⟨1, 2, 3, false⟩] }, by decide +kernel⟩,
   ⟨(bc { cAct with role := .leaf, parent := some 2 } (b5 false)), (cf 0x44 0 0 1 [0, 0, 0, 1]), rcv false, 6, { cAct with role := .leaf, parent := some 2 }, by decide +kernel⟩,
   ⟨(bc { cAct with ref := mcast0.take 40, descr := mcast0 } (b5 false)), (cf 0x42 2 1 1 [0, 0, 0, 0, 0, 0, 0, 200]), rcv false, 6, { cAct with ref := mcast0.take 40, descr := mcast0 }, by decide +kernel⟩,
   ⟨(bc { cAct with role := .leaf, parent := some 2 } (b5 false)), (cf 0x42 1 0 1 [0, 0, 0, 0, 0, 0, 0, 200]), rcv false, 6, { cAct with role := .leaf, parent := some 2 }, by decide +kernel⟩⟩

set_option maxRecDepth 20000 in
theorem wit_TreeMessages :
  (∃ (s : State) (f : Frame) (ids : List (BitVec 16)) (n : TNode) (g : Nat),
    AtRest s ∧ Taken s tCtl f ∧ f.opc = 0x45 ∧ listDigest ids = slice f.payload 40 8 ∧ ctxsOf s f.tenant f.handle = [] ∧ (parseDesc f.payload).fieldsOk = true ∧ (parseDesc f.payload).members = ids.length ∧ ids.all (fun e => e.toNat / 72 != s.fab.rack.toNat || (portBound s (e.toNat % 72) && portTenant s (e.toNat % 72) == f.tenant.toNat)) = true ∧ hosted s (parseDesc f.payload) ids = [n] ∧ collCtlOk f = true ∧ collOn s (parseDesc f.payload) = true ∧ s.ten.shared = true ∧ ctxUsed s none < 4096 ∧ (ctxOf s 0).state = .free ∧ (parseDesc f.payload).reduces = true ∧ celSetFor s f.tenant.toNat = some g ∧ (parseDesc f.payload).win64k ≤ celFree s g ∧ controlCells s < 8192) ∧
  (∃ (s : State) (f : Frame) (o : TreeOpenSt),
    AtRest s ∧ Taken s tCtl f ∧ f.opc = 0x46 ∧ s.coll.opens = [o] ∧ o.tenant = f.tenant ∧ o.handle.toNat = f.handle ∧ o.listed = true ∧ o.wait = [f.src.toNat - 0x4800] ∧ collCtlOk f = true) ∧
  (∃ (s : State) (f : Frame) (k : Nat) (x : Ctx),
    AtRest s ∧ Taken s tCtl f ∧ f.opc = 0x47 ∧ collCtlOk f = true ∧ ctxsOf s f.tenant f.handle = [(k, x)] ∧ x.alm = none ∧ x.state = .idle ∧ ctxOf s k = x ∧ x.waitDesc = []) ∧
  (∃ (s : State) (ten : BitVec 12) (h : BitVec 32) (o : TreeOpenSt),
    AtRest s ∧ s.coll.opens = [o] ∧ o.tenant = ten ∧ o.handle = h ∧ o.wait ≠ [] ∧ o.listed = true) ∧
  (∃ (s : State) (f : Frame),
    s.chip.running = true ∧ f.opc = 0x48 ∧ collCtlOk f = true ∧ ctxsOf s f.tenant f.handle = []) ∧
  (∃ (s : State) (f : Frame) (k : Nat) (x : Ctx),
    AtRest s ∧ Taken s tCtl f ∧ f.opc = 0x48 ∧ collCtlOk f = true ∧ ctxsOf s f.tenant f.handle = [(k, x)] ∧ ctxOf s k = x ∧ x.state = .active ∧ x.seq.toNat = beField f.payload 0 4 ∧ x.members = [] ∧ x.waitData = [] ∧ (x.parent.toList ++ x.kids.map (·.node)).all (fun n => n == nodeId s) = true) ∧
  (∃ (s : State) (c : Fin 4096) (x : Ctx),
    AtRest s ∧ ctxOf s c = x ∧ ctxsOf s x.tenant x.handle.toNat = [(c.val, x)] ∧ x.state = .active ∧ x.members = [] ∧ x.waitData = [] ∧ (x.parent.toList ++ x.kids.map (·.node)).all (fun n => n == nodeId s) = true) ∧
  (∃ (s : State) (c : Fin 4096),
    AtRest s ∧ ((ctxOf s c).state = .mismatch ∨ (ctxOf s c).state = .aborted) ∧ (ctxOf s c).waitDesc = [] ∧ (ctxOf s c).waitKid = []) :=
  ⟨⟨(b10 { b4 with ten := { b4.ten with shared := true }, fab := { b4.fab with rack := 1 } }), ({ tf 0x45 (dsc0.take 40 ++ [237, 90, 218, 56, 252, 99, 117, 88] ++ List.replicate 16 0) with src := 0x4800, dst := 0x4808 } : Frame).seal, [5, 77], ⟨1, 1, [], some (0, 1)⟩, 0, by decide +kernel⟩,
   ⟨{ b4 with coll := { opens := [opn] } }, (tf 0x46 [0]), opn, by decide +kernel⟩,
   ⟨(bc cx b4), (tf 0x47 []), 6, cx, by decide +kernel⟩,
   ⟨{ b4 with coll := { opens := [opn] } }, 1, 4, opn, by decide +kernel⟩,
   ⟨b4, (tf 0x48 [0, 0, 0, 1]), by decide +kernel⟩,
   ⟨(bc { cInt with parent := none, kids := [] } b4), ({ tf 0x48 [0, 0, 0, 1] with status := 10 } : Frame).seal, 6, { cInt with parent := none, kids := [] }, by decide +kernel⟩,
   ⟨(bc { cInt with parent := none, kids := [] } b4), 6, { cInt with parent := none, kids := [] }, by decide +kernel⟩,
   ⟨(bc { cAct with state := .aborted } b4), 6, by decide +kernel⟩⟩

theorem wit_ReductionArray :
  (∃ (s : State) (c : Fin 4096) (k : BitVec 32) (land : Ecc) (up : CelReads) (x : Ctx) (u : Slot),
    AtRest s ∧ ctxOf s c = x ∧ x.state = .active ∧ x.isLeaf = true ∧ (refOf s x).reduces = true ∧ x.slots = [u] ∧ u.chunk = k.toNat ∧ u.out = none ∧ ctxsOf s x.tenant x.handle.toNat = [(c.val, x)] ∧ x.waitData = [] ∧ (refOf s x).arrival = false ∧ u.sum = none ∧ u.landed.length = x.members.length ∧ land ≠ .uncorrectable ∧ up.mat ≠ .uncorrectable ∧ (x.agreed = false ∨ released x (refOf s x) k.toNat = false)) ∧
  (∃ (s : State) (c : Fin 4096) (k : BitVec 32) (land : Ecc) (up : CelReads) (x : Ctx) (u : Slot),
    AtRest s ∧ ctxOf s c = x ∧ x.state = .active ∧ x.isLeaf = true ∧ (refOf s x).reduces = true ∧ x.slots = [u] ∧ u.chunk = k.toNat ∧ u.out = none ∧ ctxsOf s x.tenant x.handle.toNat = [(c.val, x)] ∧ x.waitData = [] ∧ (refOf s x).arrival = false ∧ u.sum = none ∧ u.landed.length = x.members.length ∧ land ≠ .uncorrectable ∧ up.mat ≠ .uncorrectable ∧ x.isRoot = true ∧ x.agreed = true ∧ released x (refOf s x) k.toNat = true ∧ x.outs + 1 < planeN s x ∧ s.trn.send = []) ∧
  (∃ (s : State) (c : Fin 4096) (k : BitVec 32) (land : Ecc) (up : CelReads) (x : Ctx) (u : Slot) (n : Nat),
    AtRest s ∧ ctxOf s c = x ∧ x.state = .active ∧ x.isLeaf = true ∧ (refOf s x).reduces = true ∧ x.slots = [u] ∧ u.chunk = k.toNat ∧ u.out = none ∧ ctxsOf s x.tenant x.handle.toNat = [(c.val, x)] ∧ x.waitData = [] ∧ (refOf s x).arrival = false ∧ u.sum = none ∧ u.landed.length = x.members.length ∧ land ≠ .uncorrectable ∧ up.mat ≠ .uncorrectable ∧ x.isRoot = false ∧ x.parent = some n ∧ n ≠ nodeId s ∧ x.agreed = true ∧ released x (refOf s x) k.toNat = true ∧ (refOf s x).onPlane k.toNat < creditOf s c x ∧ s.trn.send = []) ∧
  (∃ (s : State) (c : Fin 4096) (k : BitVec 32) (land : Ecc) (up : CelReads) (x : Ctx) (u : Slot) (n : Nat) (y : Ctx),
    AtRest s ∧ ctxOf s c = x ∧ x.state = .active ∧ x.isLeaf = true ∧ (refOf s x).reduces = true ∧ x.slots = [u] ∧ u.chunk = k.toNat ∧ u.out = none ∧ (refOf s x).arrival = false ∧ u.sum = none ∧ u.landed.length = x.members.length ∧ land ≠ .uncorrectable ∧ up.mat ≠ .uncorrectable ∧ n ≠ c.val ∧ ctxsOf s x.tenant x.handle.toNat = [(c.val, x), (n, y)] ∧ ctxOf s n = y ∧ y.isLeaf = false ∧ y.state = .active ∧ y.kids.any (fun j => j.lo == x.lo && j.hi == x.hi) = true ∧ x.isRoot = false ∧ x.parent = some (nodeId s) ∧ x.waitData = [] ∧ x.agreed = true ∧ released x (refOf s x) k.toNat = true ∧ (refOf s x).onPlane k.toNat < y.freed + (refOf s x).window ∧ refBytes s x = x.ref ∧ y.slots = []) ∧
  (∃ (s : State) (c : Fin 4096) (k : BitVec 32) (land : Ecc) (up : CelReads) (x : Ctx) (u : Slot) (n : Nat) (y : Ctx) (v : Slot) (bs : Bytes),
    AtRest s ∧ ctxOf s c = x ∧ x.state = .active ∧ x.isLeaf = true ∧ (refOf s x).reduces = true ∧ x.slots = [u] ∧ u.chunk = k.toNat ∧ u.out = none ∧ (refOf s x).arrival = false ∧ u.sum = none ∧ u.landed.length = x.members.length ∧ land ≠ .uncorrectable ∧ up.mat ≠ .uncorrectable ∧ n ≠ c.val ∧ ctxsOf s x.tenant x.handle.toNat = [(c.val, x), (n, y)] ∧ ctxOf s n = y ∧ y.isLeaf = false ∧ y.state = .active ∧ y.kids.any (fun j => j.lo == x.lo && j.hi == x.hi) = true ∧ x.isRoot = false ∧ x.parent = some (nodeId s) ∧ x.waitData = [] ∧ x.agreed = true ∧ released x (refOf s x) k.toNat = true ∧ (refOf s x).onPlane k.toNat < y.freed + (refOf s x).window ∧ refBytes s x = x.ref ∧ up.up = .uncorrectable ∧ y.slots = [v] ∧ v.chunk = k.toNat ∧ v.out = none ∧ v.part = some bs ∧ (y.celSet.bind (fun g => bankOf s g ((refOf s x).onPlane k.toNat % Nat.max 1 (refOf s x).window))).isSome = true) ∧
  (∃ (s : State) (c : Fin 4096) (k : BitVec 32) (land : Ecc) (cel : Ecc) (up : CelReads) (x : Ctx) (u : Slot),
    AtRest s ∧ ctxOf s c = x ∧ x.state = .active ∧ x.isLeaf = true ∧ (refOf s x).reduces = true ∧ x.slots = [u] ∧ u.chunk = k.toNat ∧ u.out = none ∧ ctxsOf s x.tenant x.handle.toNat = [(c.val, x)] ∧ x.waitData = [] ∧ (refOf s x).arrival = true ∧ u.landed ≠ [] ∧ u.taken + (u.landed.take 32).length ≠ x.members.length ∧ land ≠ .uncorrectable ∧ up.mat ≠ .uncorrectable ∧ (u.sum = none ∨ cel ≠ .uncorrectable)) ∧
  (∃ (s : State) (c : Fin 4096) (k : BitVec 32) (land : Ecc) (cel : Ecc) (up : CelReads) (x : Ctx) (u : Slot),
    AtRest s ∧ ctxOf s c = x ∧ x.state = .active ∧ x.isLeaf = true ∧ (refOf s x).reduces = true ∧ x.slots = [u] ∧ u.chunk = k.toNat ∧ u.out = none ∧ ctxsOf s x.tenant x.handle.toNat = [(c.val, x)] ∧ x.waitData = [] ∧ (refOf s x).arrival = true ∧ u.landed ≠ [] ∧ u.taken + (u.landed.take 32).length = x.members.length ∧ land ≠ .uncorrectable ∧ up.mat ≠ .uncorrectable ∧ (u.sum = none ∨ cel ≠ .uncorrectable) ∧ (x.agreed = false ∨ released x (refOf s x) k.toNat = false)) ∧
  (∃ (s : State) (c : Fin 4096) (k : BitVec 32) (x : Ctx) (u : Slot),
    AtRest s ∧ ctxOf s c = x ∧ x.state = .active ∧ x.isLeaf = true ∧ (refOf s x).reduces = true ∧ x.slots = [u] ∧ u.chunk = k.toNat ∧ u.out = none ∧ (if (refOf s x).arrival then u.landed ≠ [] else u.landed.length = x.members.length)) ∧
  (∃ (s : State) (c : Fin 4096) (k : BitVec 32) (land : Ecc) (x : Ctx) (u : Slot),
    AtRest s ∧ ctxOf s c = x ∧ x.state = .active ∧ x.isLeaf = true ∧ (refOf s x).reduces = true ∧ x.slots = [u] ∧ u.chunk = k.toNat ∧ u.out = none ∧ land ≠ .uncorrectable ∧ (refOf s x).arrival = true ∧ u.landed ≠ [] ∧ u.sum.isSome = true ∧ (x.celSet.bind (fun g => bankOf s g ((refOf s x).onPlane k.toNat % Nat.max 1 (refOf s x).window))).isSome = true) ∧
  (∃ (s : State) (c : Fin 4096) (k : BitVec 32) (x : Ctx),
    AtRest s ∧ ctxOf s c = x ∧ (x.state ≠ .active ∨ x.isLeaf = false ∨ (x.slot k.toNat).out.isSome = true ∨ (x.slot k.toNat).landed = []) ∧ x.members ≠ []) ∧
  (∃ (s : State) (g : Fin 32) (w : Landing) (pre : List Landing) (post : List Landing),
    AtRest s ∧ s.arr.landing = pre ++ w :: post ∧ w.group = g.val ∧ w.granted = false ∧ pre.all (fun v => v.group != g.val || v.granted) = true ∧ post.all (fun v => v.group != g.val || v.granted) = true ∧ landUsed s g + w.bytes ≤ 524288 ∧ s.coll.ctxs.all (fun x => (ctxOf s x.1).waitData.isEmpty) = true) ∧
  (∃ (s : State) (g : Fin 32) (w : Landing) (pre : List Landing) (post : List Landing),
    AtRest s ∧ s.arr.landing = pre ++ w :: post ∧ w.group = g.val ∧ w.granted = false ∧ pre.all (fun v => v.group != g.val || v.granted) = true ∧ 524288 < landUsed s g + w.bytes ∧ s.coll.ctxs.all (fun x => (ctxOf s x.1).waitData.isEmpty) = true) ∧
  (∃ (s : State) (g : Fin 32) (w : Landing) (c : Fin 4096) (x : Ctx) (mb : MemberSt) (id : Nat) (k : Nat) (b : Bool) (o : OutReq),
    AtRest s ∧ s.arr.landing = [w] ∧ w.group = g.val ∧ w.granted = false ∧ w.ctx = c.val ∧ w.chunk = k ∧ w.bytes = 512 ∧ s.coll.ctxs = [(c.val, x)] ∧ x.state = .active ∧ x.isLeaf = true ∧ x.agreed = true ∧ x.members = [mb] ∧ x.waitData = [(mb.index, id, k, b)] ∧ outOf s mb.port id = some o ∧ (refOf s x).reduces = true ∧ ((refOf s x).arrival = false ∨ b = true) ∧ (refOf s x).onPlane k < x.freed + (refOf s x).window ∧ (x.slot k).landed = [] ∧ x.slots = []) ∧
  (∃ (s : State) (c : Chan) (dma : Bytes) (inp : Bytes),
    AtRest s ∧ MbxRuns s c 0x32 dma inp ∧ beField inp 0 1 ≠ 0 ∧ slice inp 1 3 = [0, 0, 0] ∧ progFormat (inp.drop 4) = true ∧ (slotOfTenant s (bitsOf (beField (inp.drop 4) 8 2) 0 12)).isSome = true ∧ progOf s (beField inp 0 1) = none ∧ (s.ten.shared = true ∨ progsOf s (bitsOf (beField (inp.drop 4) 8 2) 0 12) < 255 / Nat.max 1 (admittedN s)) ∧ (beField (inp.drop 4) 6 1 = 0 ∨ (match celSetFor s (bitsOf (beField (inp.drop 4) 8 2) 0 12) with | some g => decide (0 < celFree s g) | none => false) = true)) ∧
  (∃ (s : State) (c : Chan) (dma : Bytes) (inp : Bytes),
    AtRest s ∧ MbxRuns s c 0x32 dma inp ∧ (beField inp 0 1 = 0 ∨ allZero ((inp.drop 1).take 3) = false ∨ progFormat (inp.drop 4) = false)) ∧
  (∃ (s : State) (c : Chan) (dma : Bytes) (inp : Bytes),
    AtRest s ∧ MbxRuns s c 0x32 dma inp ∧ beField inp 0 1 ≠ 0 ∧ slice inp 1 3 = [0, 0, 0] ∧ progFormat (inp.drop 4) = true ∧ slotOfTenant s (bitsOf (beField (inp.drop 4) 8 2) 0 12) = none) ∧
  (∃ (s : State) (c : Chan) (dma : Bytes) (inp : Bytes),
    AtRest s ∧ MbxRuns s c 0x32 dma inp ∧ beField inp 0 1 ≠ 0 ∧ slice inp 1 3 = [0, 0, 0] ∧ progFormat (inp.drop 4) = true ∧ (slotOfTenant s (bitsOf (beField (inp.drop 4) 8 2) 0 12)).isSome = true ∧ (progOf s (beField inp 0 1)).isSome = true) ∧
  (∃ (s : State) (c : Chan) (dma : Bytes) (inp : Bytes),
    AtRest s ∧ MbxRuns s c 0x33 dma inp ∧ beField inp 0 1 ≠ 0 ∧ progRefs s (beField inp 0 1) = 0) ∧
  (∃ (s : State) (c : Chan) (dma : Bytes) (inp : Bytes),
    AtRest s ∧ MbxRuns s c 0x33 dma inp ∧ (beField inp 0 1 = 0 ∨ 0 < progRefs s (beField inp 0 1))) ∧
  (∃ (s : State) (b : Fin 64),
    AtRest s ∧ bitAt s celBase 1 = true ∧ b.val ∉ s.arr.bankOut ∧ tget 0 s.arr.bankUe b < 15) ∧
  (∃ (s : State) (b : Fin 64),
    AtRest s ∧ bitAt s celBase 1 = true ∧ b.val ∉ s.arr.bankOut ∧ 15 ≤ tget 0 s.arr.bankUe b) ∧
  (∃ (s : State) (b : Fin 64) (c : Fin 4096) (x : Ctx),
    AtRest s ∧ bitAt s celBase 1 = true ∧ b.val ∉ s.arr.bankOut ∧ 15 ≤ tget 0 s.arr.bankUe b ∧ ctxOf s c = x ∧ x.state = .active ∧ x.celSet = some (b.val / 4)) ∧
  (∃ (s : State) (b : Fin 64),
    AtRest s ∧ bitAt s celBase 1 = true ∧ b.val ∉ s.arr.bankOut) ∧
  (∃ (s : State) (b : Fin 64) (ecc : Ecc),
    AtRest s ∧ (ecc = .clean ∨ bitAt s celBase 1 = false ∨ b.val ∈ s.arr.bankOut)) :=
  ⟨⟨(bc { cAct with alm := some 9, ref := dsc0.take 36 ++ [0, 0, 0, 1], members := [{ port := 5, index := 0, desc := dsc0 }, { port := 6, index := 1, desc := dsc0 }], slots := [{ chunk := 0, landed := [(1, List.replicate 512 2), (0, List.replicate 512 1)] }] } b4), 6, 0, .clean, ⟨.clean, .clean, .clean⟩, { cAct with alm := some 9, ref := dsc0.take 36 ++ [0, 0, 0, 1], members := [{ port := 5, index := 0, desc := dsc0 }, { port := 6, index := 1, desc := dsc0 }], slots := [{ chunk := 0, landed := [(1, List.replicate 512 2), (0, List.replicate 512 1)] }] }, { chunk := 0, landed := [(1, List.replicate 512 2), (0, List.replicate 512 1)] }, by decide +kernel⟩,
   ⟨(bc { cAct with ref := (dsc0.take 8 ++ [0, 0, 0, 0, 2, 0] ++ (dsc0.drop 14).take 26), members := [{ port := 5, index := 0, desc := dsc0 }, { port := 6, index := 1, desc := dsc0 }], slots := [{ chunk := 0, landed := [(1, List.replicate 512 2), (0, List.replicate 512 1)] }] } b4), 6, 0, .clean, ⟨.clean, .clean, .clean⟩, { cAct with ref := (dsc0.take 8 ++ [0, 0, 0, 0, 2, 0] ++ (dsc0.drop 14).take 26), members := [{ port := 5, index := 0, desc := dsc0 }, { port := 6, index := 1, desc := dsc0 }], slots := [{ chunk := 0, landed := [(1, List.replicate 512 2), (0, List.replicate 512 1)] }] }, { chunk := 0, landed := [(1, List.replicate 512 2), (0, List.replicate 512 1)] }, by decide +kernel⟩,
   ⟨(bc { cAct with role := .leaf, parent := some 2,  ref := dsc0.take 40, members := [{ port := 5, index := 0, desc := dsc0 }, { port := 6, index := 1, desc := dsc0 }], slots := [{ chunk := 0, landed := [(1, List.replicate 512 2), (0, List.replicate 512 1)] }] } b4), 6, 0, .clean, ⟨.clean, .clean, .clean⟩, { cAct with role := .leaf, parent := some 2,  ref := dsc0.take 40, members := [{ port := 5, index := 0, desc := dsc0 }, { port := 6, index := 1, desc := dsc0 }], slots := [{ chunk := 0, landed := [(1, List.replicate 512 2), (0, List.replicate 512 1)] }] }, { chunk := 0, landed := [(1, List.replicate 512 2), (0, List.replicate 512 1)] }, 2, by decide +kernel⟩,
   ⟨(let x : Ctx := { cAct with role := .leaf, parent := some 0,  ref := dsc0.take 40, members := [{ port := 5, index := 0, desc := dsc0 }, { port := 6, index := 1, desc := dsc0 }], slots := [{ chunk := 0, landed := [(1, List.replicate 512 2), (0, List.replicate 512 1)] }] }; let y : Ctx := { cInt with kids := [⟨0, 0, 1, true⟩, ⟨1, 2, 3, true⟩] }; { b4 with coll := { ctxs := [(6, x), (7, y)] } }), 6, 0, .clean, ⟨.clean, .clean, .clean⟩, { cAct with role := .leaf, parent := some 0,  ref := dsc0.take 40, members := [{ port := 5, index := 0, desc := dsc0 }, { port := 6, index := 1, desc := dsc0 }], slots := [{ chunk := 0, landed := [(1, List.replicate 512 2), (0, List.replicate 512 1)] }] }, { chunk := 0, landed := [(1, List.replicate 512 2), (0, List.replicate 512 1)] }, 7, { cInt with kids := [⟨0, 0, 1, true⟩, ⟨1, 2, 3, true⟩] }, by decide +kernel⟩,
   ⟨(let x : Ctx := { cAct with role := .leaf, parent := some 0,  ref := dsc0.take 40, members := [{ port := 5, index := 0, desc := dsc0 }, { port := 6, index := 1, desc := dsc0 }], slots := [{ chunk := 0, landed := [(1, List.replicate 512 2), (0, List.replicate 512 1)] }] }; let y : Ctx := { cInt with kids := [⟨0, 0, 1, true⟩, ⟨1, 2, 3, true⟩], slots := [{ chunk := 0, part := some (List.replicate 512 1) }] }; { b4 with coll := { ctxs := [(6, x), (7, y)] } }), 6, 0, .clean, ⟨.clean, .uncorrectable, .clean⟩, { cAct with role := .leaf, parent := some 0,  ref := dsc0.take 40, members := [{ port := 5, index := 0, desc := dsc0 }, { port := 6, index := 1, desc := dsc0 }], slots := [{ chunk := 0, landed := [(1, List.replicate 512 2), (0, List.replicate 512 1)] }] }, { chunk := 0, landed := [(1, List.replicate 512 2), (0, List.replicate 512 1)] }, 7, { cInt with kids := [⟨0, 0, 1, true⟩, ⟨1, 2, 3, true⟩], slots := [{ chunk := 0, part := some (List.replicate 512 1) }] }, { chunk := 0, part := some (List.replicate 512 1) }, List.replicate 512 1, by decide +kernel⟩,
   ⟨(bc { cAct with ref := (dsc0.take 24 ++ [1] ++ (dsc0.drop 25).take 15), members := [{ port := 5, index := 0, desc := dsc0 }, { port := 6, index := 1, desc := dsc0 }], slots := [{ chunk := 0, landed := [(1, List.replicate 512 2)] }] } b4), 6, 0, .clean, .clean, ⟨.clean, .clean, .clean⟩, { cAct with ref := (dsc0.take 24 ++ [1] ++ (dsc0.drop 25).take 15), members := [{ port := 5, index := 0, desc := dsc0 }, { port := 6, index := 1, desc := dsc0 }], slots := [{ chunk := 0, landed := [(1, List.replicate 512 2)] }] }, { chunk := 0, landed := [(1, List.replicate 512 2)] }, by decide +kernel⟩,
   ⟨(bc { cAct with alm := some 9, ref := dsc0.take 24 ++ [1] ++ (dsc0.drop 25).take 11 ++ [0, 0, 0, 1], members := [{ port := 5, index := 0, desc := dsc0 }, { port := 6, index := 1, desc := dsc0 }], slots := [{ chunk := 0, landed := [(1, List.replicate 512 2)], taken := 1, sum := some (List.replicate 128 3) }] } b4), 6, 0, .clean, .clean, ⟨.clean, .clean, .clean⟩, { cAct with alm := some 9, ref := dsc0.take 24 ++ [1] ++ (dsc0.drop 25).take 11 ++ [0, 0, 0, 1], members := [{ port := 5, index := 0, desc := dsc0 }, { port := 6, index := 1, desc := dsc0 }], slots := [{ chunk := 0, landed := [(1, List.replicate 512 2)], taken := 1, sum := some (List.replicate 128 3) }] }, { chunk := 0, landed := [(1, List.replicate 512 2)], taken := 1, sum := some (List.replicate 128 3) }, by decide +kernel⟩,
   ⟨(bc { cAct with alm := some 9, ref := dsc0.take 36 ++ [0, 0, 0, 1], members := [{ port := 5, index := 0, desc := dsc0 }, { port := 6, index := 1, desc := dsc0 }], slots := [{ chunk := 0, landed := [(1, List.replicate 512 2), (0, List.replicate 512 1)] }] } b4), 6, 0, { cAct with alm := some 9, ref := dsc0.take 36 ++ [0, 0, 0, 1], members := [{ port := 5, index := 0, desc := dsc0 }, { port := 6, index := 1, desc := dsc0 }], slots := [{ chunk := 0, landed := [(1, List.replicate 512 2), (0, List.replicate 512 1)] }] }, { chunk := 0, landed := [(1, List.replicate 512 2), (0, List.replicate 512 1)] }, by decide +kernel⟩,
   ⟨(bc { cAct with ref := (dsc0.take 24 ++ [1] ++ (dsc0.drop 25).take 15), members := [{ port := 5, index := 0, desc := dsc0 }, { port := 6, index := 1, desc := dsc0 }], slots := [{ chunk := 0, landed := [(1, List.replicate 512 2)], taken := 1, sum := some (List.replicate 128 3) }] } b4), 6, 0, .clean, { cAct with ref := (dsc0.take 24 ++ [1] ++ (dsc0.drop 25).take 15), members := [{ port := 5, index := 0, desc := dsc0 }, { port := 6, index := 1, desc := dsc0 }], slots := [{ chunk := 0, landed := [(1, List.replicate 512 2)], taken := 1, sum := some (List.replicate 128 3) }] }, { chunk := 0, landed := [(1, List.replicate 512 2)], taken := 1, sum := some (List.replicate 128 3) }, by decide +kernel⟩,
   ⟨(bc { cAct with alm := some 9, ref := dsc0.take 36 ++ [0, 0, 0, 1], members := [{ port := 5, index := 0, desc := dsc0 }, { port := 6, index := 1, desc := dsc0 }], slots := [{ chunk := 3 }] } b4), 6, 0, { cAct with alm := some 9, ref := dsc0.take 36 ++ [0, 0, 0, 1], members := [{ port := 5, index := 0, desc := dsc0 }, { port := 6, index := 1, desc := dsc0 }], slots := [{ chunk := 3 }] }, by decide +kernel⟩,
   ⟨{ b4 with arr := { landing := [⟨31, 6, 1, 512, true⟩, ⟨31, 6, 0, 1024, false⟩, ⟨30, 6, 0, 1024, false⟩] } }, 31, ⟨31, 6, 0, 1024, false⟩, [⟨31, 6, 1, 512, true⟩], [⟨30, 6, 0, 1024, false⟩], by decide +kernel⟩,
   ⟨{ b4 with arr := { landing := [⟨31, 6, 1, 524288, true⟩, ⟨31, 6, 0, 1024, false⟩, ⟨31, 7, 0, 512, false⟩] } }, 31, ⟨31, 6, 0, 1024, false⟩, [⟨31, 6, 1, 524288, true⟩], [⟨31, 7, 0, 512, false⟩], by decide +kernel⟩,
   ⟨(let s := bc { cAct with waitData := [(0, 3, 0, true)] } b2; let s := setSess 5 { up0 with out := [{ id := 3, msg := cm 6 0 (List.replicate 512 1), phase := .coll }] } s; { s with arr := { landing := [⟨31, 6, 0, 512, false⟩] } }), 31, ⟨31, 6, 0, 512, false⟩, 6, { cAct with waitData := [(0, 3, 0, true)] }, { port := 5, index := 0, desc := dsc0 }, 3, 0, true, { id := 3, msg := cm 6 0 (List.replicate 512 1), phase := .coll }, by decide +kernel⟩,
   ⟨(cmd 0x32 ([9, 0, 0, 0] ++ prog0) { b4 with ten := { b4.ten with shared := true, ten := [(0, { state := .active, tenant := 1 })] } }), 0, [], ([9, 0, 0, 0] ++ prog0), by decide +kernel⟩,
   ⟨(cmd 0x32 ([9, 1, 0, 0] ++ prog0) { b4 with ten := { b4.ten with shared := true, ten := [(0, { state := .active, tenant := 1 })] } }), 0, [], ([9, 1, 0, 0] ++ prog0), by decide +kernel⟩,
   ⟨(cmd 0x32 ([9, 0, 0, 0] ++ prog0) { b4 with ten := { b4.ten with shared := true } }), 0, [], ([9, 0, 0, 0] ++ prog0), by decide +kernel⟩,
   ⟨(cmd 0x32 ([9, 0, 0, 0] ++ prog0) (let s := { b4 with ten := { b4.ten with shared := true, ten := [(0, { state := .active, tenant := 1 })] } }; { s with arr := { programs := [(9, some (parseProg prog0 none))] } })), 0, [], ([9, 0, 0, 0] ++ prog0), by decide +kernel⟩,
   ⟨(cmd 0x33 [9] { b4 with arr := { programs := [(9, some (parseProg prog0 none))] } }), 0, [], [9], by decide +kernel⟩,
   ⟨(cmd 0x33 [9] (bc { cAct with ref := dsc0.take 19 ++ [9] ++ (dsc0.drop 20).take 20 } { b4 with arr := { programs := [(9, some (parseProg prog0 none))] } })), 0, [], [9], by decide +kernel⟩,
   ⟨(setWord celBase 2 b4), 63, by decide +kernel⟩,
   ⟨{ (setWord celBase 2 b4) with arr := { bankUe := [(63, 15)] } }, 63, by decide +kernel⟩,
   ⟨(bc cAct { (setWord celBase 2 b4) with arr := { bankUe := [(3, 15)] } }), 3, 6, cAct, by decide +kernel⟩,
   ⟨(setWord celBase 2 b4), 63, by decide +kernel⟩,
   ⟨(setWord celBase 2 b4), 63, .clean, by decide +kernel⟩⟩

theorem wit_MovesRun :
  (∃ (s : State) (e : Fin 16) (m : Move),
    AtRest s ∧ engineMove s e = none ∧ bitAt s movBase 0 = true ∧ nextMove s e = some m ∧ moveOf s m.id = some m ∧ moveStartCheck s m = .done) ∧
  (∃ (s : State) (e : Fin 16) (m : Move) (c : Chan),
    AtRest s ∧ engineMove s e = none ∧ bitAt s movBase 0 = true ∧ nextMove s e = some m ∧ m.origin = .chan c ∧ (chan s c).busy = true ∧ (chan s c).lost = false ∧ moveStartCheck s m ≠ .done) ∧
  (∃ (s : State) (e : Fin 16),
    AtRest s ∧ ((engineMove s e).isSome = true ∨ bitAt s movBase 0 = false ∨ nextMove s e = none)) ∧
  (∃ (s : State) (e : Fin 16) (m : Move) (tables : Ecc × Ecc) (j : BitVec 32) (it : Nat) (di : Nat) (wa : BitVec 64 × BitVec 64) (wb : BitVec 64 × BitVec 64) (x : Nat) (y : Nat) (n : Nat),
    AtRest s ∧ s.mov.moves = [m] ∧ m.engine = some e.val ∧ m.phase = .start ∧ moveFenced s m = false ∧ (parseMove m.desc).op = 0x21 ∧ (match moveSlot s (pageKeyOf m.tenant.toNat ((parseMove m.desc).src + m.pos)) tables.1 with | .ok w => w == wa | .error _ => false) = true ∧ (match moveSlot s (pageKeyOf m.tenant.toNat ((parseMove m.desc).dst + m.pos)) tables.2 with | .ok w => w == wb | .error _ => false) = true ∧ n = Nat.min ((parseMove m.desc).len - m.pos) (Nat.min (2 ^ 21 - ((parseMove m.desc).src + m.pos) % 2 ^ 21) (2 ^ 21 - ((parseMove m.desc).dst + m.pos) % 2 ^ 21)) ∧ x = slotFpa wa ((parseMove m.desc).src + m.pos) ∧ y = slotFpa wb ((parseMove m.desc).dst + m.pos) ∧ pageCheck s m (some wa) (some wb) x y n = .done ∧ mustWait s (parseMove m.desc) x y n = false ∧ underMove s s.mov.holding y n = false ∧ 0 < n ∧ n % 128 = 0 ∧ inTier s x = true ∧ inTier s y = true ∧ measuredAt s (parseMove m.desc).dkey = none ∧ (List.range (n / 128)).all (fun i => !offsetOut s (spaceOf x) (offOf x + 128 * i) && !poisoned s (spaceOf x) (offOf x + 128 * i)) = true ∧ (List.range (n / 128)).all (fun i => !offsetOut s (spaceOf y) (offOf y + 128 * i)) = true ∧ m.origin = .almanac j it di ∧ (parseMove m.desc).len ≤ m.pos + n) ∧
  (∃ (s : State) (e : Fin 16) (m : Move) (tables : Ecc × Ecc) (wa : BitVec 64 × BitVec 64) (wb : BitVec 64 × BitVec 64) (x : Nat) (y : Nat) (n : Nat),
    AtRest s ∧ s.mov.moves = [m] ∧ m.engine = some e.val ∧ m.phase = .start ∧ moveFenced s m = false ∧ (parseMove m.desc).op = 0x21 ∧ (match moveSlot s (pageKeyOf m.tenant.toNat ((parseMove m.desc).src + m.pos)) tables.1 with | .ok w => w == wa | .error _ => false) = true ∧ (match moveSlot s (pageKeyOf m.tenant.toNat ((parseMove m.desc).dst + m.pos)) tables.2 with | .ok w => w == wb | .error _ => false) = true ∧ n = Nat.min ((parseMove m.desc).len - m.pos) (Nat.min (2 ^ 21 - ((parseMove m.desc).src + m.pos) % 2 ^ 21) (2 ^ 21 - ((parseMove m.desc).dst + m.pos) % 2 ^ 21)) ∧ x = slotFpa wa ((parseMove m.desc).src + m.pos) ∧ y = slotFpa wb ((parseMove m.desc).dst + m.pos) ∧ pageCheck s m (some wa) (some wb) x y n = .done ∧ mustWait s (parseMove m.desc) x y n = false ∧ underMove s s.mov.holding y n = false ∧ 0 < n ∧ n % 128 = 0 ∧ inTier s x = true ∧ inTier s y = true ∧ measuredAt s (parseMove m.desc).dkey = none ∧ (List.range (n / 128)).all (fun i => !offsetOut s (spaceOf x) (offOf x + 128 * i) && !poisoned s (spaceOf x) (offOf x + 128 * i)) = true ∧ (List.range (n / 128)).all (fun i => !offsetOut s (spaceOf y) (offOf y + 128 * i)) = true ∧ m.pos + n < (parseMove m.desc).len) ∧
  (∃ (s : State) (e : Fin 16) (m : Move) (tables : Ecc × Ecc) (wa : BitVec 64 × BitVec 64) (wb : BitVec 64 × BitVec 64) (x : Nat) (y : Nat) (n : Nat) (c : Chan),
    AtRest s ∧ s.mov.moves = [m] ∧ m.engine = some e.val ∧ m.phase = .start ∧ moveFenced s m = false ∧ (parseMove m.desc).op = 0x21 ∧ (match moveSlot s (pageKeyOf m.tenant.toNat ((parseMove m.desc).src + m.pos)) tables.1 with | .ok w => w == wa | .error _ => false) = true ∧ (match moveSlot s (pageKeyOf m.tenant.toNat ((parseMove m.desc).dst + m.pos)) tables.2 with | .ok w => w == wb | .error _ => false) = true ∧ n = Nat.min ((parseMove m.desc).len - m.pos) (Nat.min (2 ^ 21 - ((parseMove m.desc).src + m.pos) % 2 ^ 21) (2 ^ 21 - ((parseMove m.desc).dst + m.pos) % 2 ^ 21)) ∧ x = slotFpa wa ((parseMove m.desc).src + m.pos) ∧ y = slotFpa wb ((parseMove m.desc).dst + m.pos) ∧ pageCheck s m (some wa) (some wb) x y n = .done ∧ mustWait s (parseMove m.desc) x y n = false ∧ underMove s s.mov.holding y n = false ∧ 0 < n ∧ n % 128 = 0 ∧ inTier s x = true ∧ inTier s y = true ∧ measuredAt s (parseMove m.desc).dkey = none ∧ (List.range (n / 128)).all (fun i => !offsetOut s (spaceOf x) (offOf x + 128 * i) && !poisoned s (spaceOf x) (offOf x + 128 * i)) = true ∧ (List.range (n / 128)).all (fun i => !offsetOut s (spaceOf y) (offOf y + 128 * i)) = true ∧ m.origin = .chan c ∧ (chan s c).busy = true ∧ (chan s c).lost = false ∧ (parseMove m.desc).len ≤ m.pos + n) ∧
  (∃ (s : State) (e : Fin 16) (m : Move) (tables : Ecc × Ecc) (j : BitVec 32) (it : Nat) (di : Nat) (wa : BitVec 64 × BitVec 64) (wb : BitVec 64 × BitVec 64) (x : Nat) (y : Nat) (n : Nat) (i : Nat),
    AtRest s ∧ s.mov.moves = [m] ∧ m.engine = some e.val ∧ m.phase = .start ∧ moveFenced s m = false ∧ (parseMove m.desc).op = 0x21 ∧ (match moveSlot s (pageKeyOf m.tenant.toNat ((parseMove m.desc).src + m.pos)) tables.1 with | .ok w => w == wa | .error _ => false) = true ∧ (match moveSlot s (pageKeyOf m.tenant.toNat ((parseMove m.desc).dst + m.pos)) tables.2 with | .ok w => w == wb | .error _ => false) = true ∧ n = Nat.min ((parseMove m.desc).len - m.pos) (Nat.min (2 ^ 21 - ((parseMove m.desc).src + m.pos) % 2 ^ 21) (2 ^ 21 - ((parseMove m.desc).dst + m.pos) % 2 ^ 21)) ∧ x = slotFpa wa ((parseMove m.desc).src + m.pos) ∧ y = slotFpa wb ((parseMove m.desc).dst + m.pos) ∧ pageCheck s m (some wa) (some wb) x y n = .done ∧ mustWait s (parseMove m.desc) x y n = false ∧ underMove s s.mov.holding y n = false ∧ 0 < n ∧ n % 128 = 0 ∧ inTier s x = true ∧ inTier s y = true ∧ measuredAt s (parseMove m.desc).dkey = none ∧ (List.range (n / 128)).all (fun i => !offsetOut s (spaceOf x) (offOf x + 128 * i) && !poisoned s (spaceOf x) (offOf x + 128 * i)) = true ∧ (List.range (n / 128)).all (fun i => !offsetOut s (spaceOf y) (offOf y + 128 * i)) = true ∧ m.origin = .almanac j it di ∧ i < n / 128) ∧
  (∃ (s : State) (e : Fin 16) (m : Move) (tables : Ecc × Ecc) (wa : BitVec 64 × BitVec 64) (wb : BitVec 64 × BitVec 64) (x : Nat) (y : Nat) (n : Nat),
    AtRest s ∧ s.mov.moves = [m] ∧ m.engine = some e.val ∧ m.phase = .start ∧ moveFenced s m = false ∧ (parseMove m.desc).op = 0x21 ∧ (match moveSlot s (pageKeyOf m.tenant.toNat ((parseMove m.desc).src + m.pos)) tables.1 with | .ok w => w == wa | .error _ => false) = true ∧ (match moveSlot s (pageKeyOf m.tenant.toNat ((parseMove m.desc).dst + m.pos)) tables.2 with | .ok w => w == wb | .error _ => false) = true ∧ n = Nat.min ((parseMove m.desc).len - m.pos) (Nat.min (2 ^ 21 - ((parseMove m.desc).src + m.pos) % 2 ^ 21) (2 ^ 21 - ((parseMove m.desc).dst + m.pos) % 2 ^ 21)) ∧ x = slotFpa wa ((parseMove m.desc).src + m.pos) ∧ y = slotFpa wb ((parseMove m.desc).dst + m.pos) ∧ pageCheck s m (some wa) (some wb) x y n = .done ∧ mustWait s (parseMove m.desc) x y n = false ∧ epOf x ≠ memEp s ∧ s.trn.send = []) ∧
  (∃ (s : State) (e : Fin 16) (m : Move) (tables : Ecc × Ecc),
    AtRest s ∧ s.mov.moves = [m] ∧ m.engine = some e.val ∧ m.phase = .start ∧ moveFenced s m = false ∧ (match moveSlot s (pageKeyOf m.tenant.toNat ((parseMove m.desc).src + m.pos)) tables.1 with | .ok _ => false | .error x => x == .unmapped) = true ∧ s.mov.faults = []) ∧
  (∃ (s : State) (e : Fin 16) (m : Move) (tables : Ecc × Ecc) (j : BitVec 32) (it : Nat) (di : Nat) (wa : BitVec 64 × BitVec 64) (wb : BitVec 64 × BitVec 64) (x : Nat) (y : Nat) (n : Nat),
    AtRest s ∧ s.mov.moves = [m] ∧ m.engine = some e.val ∧ m.phase = .start ∧ moveFenced s m = false ∧ (parseMove m.desc).op = 0x21 ∧ (match moveSlot s (pageKeyOf m.tenant.toNat ((parseMove m.desc).src + m.pos)) tables.1 with | .ok w => w == wa | .error _ => false) = true ∧ (match moveSlot s (pageKeyOf m.tenant.toNat ((parseMove m.desc).dst + m.pos)) tables.2 with | .ok w => w == wb | .error _ => false) = true ∧ n = Nat.min ((parseMove m.desc).len - m.pos) (Nat.min (2 ^ 21 - ((parseMove m.desc).src + m.pos) % 2 ^ 21) (2 ^ 21 - ((parseMove m.desc).dst + m.pos) % 2 ^ 21)) ∧ x = slotFpa wa ((parseMove m.desc).src + m.pos) ∧ y = slotFpa wb ((parseMove m.desc).dst + m.pos) ∧ m.origin = .almanac j it di ∧ pageCheck s m (some wa) (some wb) x y n ≠ .done) ∧
  (∃ (s : State) (e : Fin 16) (m : Move) (j : BitVec 32) (it : Nat) (di : Nat),
    AtRest s ∧ s.mov.moves = [m] ∧ m.engine = some e.val ∧ m.phase = .start ∧ moveFenced s m = true ∧ m.origin = .almanac j it di) ∧
  (∃ (s : State) (e : Fin 16) (m : Move) (tables : Ecc × Ecc) (wa : BitVec 64 × BitVec 64) (wb : BitVec 64 × BitVec 64) (x : Nat) (y : Nat) (n : Nat),
    AtRest s ∧ s.mov.moves = [m] ∧ m.engine = some e.val ∧ m.phase = .start ∧ moveFenced s m = false ∧ (parseMove m.desc).op = 0x21 ∧ (match moveSlot s (pageKeyOf m.tenant.toNat ((parseMove m.desc).src + m.pos)) tables.1 with | .ok w => w == wa | .error _ => false) = true ∧ (match moveSlot s (pageKeyOf m.tenant.toNat ((parseMove m.desc).dst + m.pos)) tables.2 with | .ok w => w == wb | .error _ => false) = true ∧ n = Nat.min ((parseMove m.desc).len - m.pos) (Nat.min (2 ^ 21 - ((parseMove m.desc).src + m.pos) % 2 ^ 21) (2 ^ 21 - ((parseMove m.desc).dst + m.pos) % 2 ^ 21)) ∧ x = slotFpa wa ((parseMove m.desc).src + m.pos) ∧ y = slotFpa wb ((parseMove m.desc).dst + m.pos) ∧ pageCheck s m (some wa) (some wb) x y n = .done ∧ mustWait s (parseMove m.desc) x y n = true) ∧
  (∃ (s : State) (e : Fin 16) (m : Move) (tables : Ecc × Ecc) (wa : BitVec 64 × BitVec 64) (wb : BitVec 64 × BitVec 64) (x : Nat) (y : Nat) (n : Nat),
    AtRest s ∧ s.mov.moves = [m] ∧ m.engine = some e.val ∧ m.phase = .start ∧ moveFenced s m = false ∧ (parseMove m.desc).op = 0x21 ∧ (match moveSlot s (pageKeyOf m.tenant.toNat ((parseMove m.desc).src + m.pos)) tables.1 with | .ok w => w == wa | .error _ => false) = true ∧ (match moveSlot s (pageKeyOf m.tenant.toNat ((parseMove m.desc).dst + m.pos)) tables.2 with | .ok w => w == wb | .error _ => false) = true ∧ n = Nat.min ((parseMove m.desc).len - m.pos) (Nat.min (2 ^ 21 - ((parseMove m.desc).src + m.pos) % 2 ^ 21) (2 ^ 21 - ((parseMove m.desc).dst + m.pos) % 2 ^ 21)) ∧ x = slotFpa wa ((parseMove m.desc).src + m.pos) ∧ y = slotFpa wb ((parseMove m.desc).dst + m.pos) ∧ pageCheck s m (some wa) (some wb) x y n = .done ∧ mustWait s (parseMove m.desc) x y n = false ∧ underMove s s.mov.holding y n = true ∧ 0 < n ∧ n % 128 = 0 ∧ inTier s x = true ∧ (List.range (n / 128)).all (fun i => !offsetOut s (spaceOf x) (offOf x + 128 * i) && !poisoned s (spaceOf x) (offOf x + 128 * i)) = true) ∧
  (∃ (s : State) (e : Fin 16) (m : Move) (tables : Ecc × Ecc) (wa : BitVec 64 × BitVec 64) (x : Nat) (y : Nat) (n : Nat) (i : Nat) (k : Nat),
    AtRest s ∧ s.mov.moves = [m] ∧ m.engine = some e.val ∧ m.phase = .start ∧ moveFenced s m = false ∧ (parseMove m.desc).op = 0x20 ∧ (match moveSlot s (pageKeyOf m.tenant.toNat ((parseMove m.desc).src + m.pos)) tables.1 with | .ok w => w == wa | .error _ => false) = true ∧ n = (if (slotW wa).big then 2 ^ 30 else 2 ^ 21) ∧ x = slotFpa wa ((parseMove m.desc).src + m.pos) ∧ y = ((parseMove m.desc).dst + m.pos) ∧ pageCheck s m (some wa) none x y n = .done ∧ mustWait s (parseMove m.desc) x y n = false ∧ s.home.pcOut = [] ∧ s.home.poison = [] ∧ bitAt s stkBase 0 = true ∧ bitAt s anxBase 0 = true ∧ inTier s x = true ∧ inTier s y = true ∧ storesUnder s (oldMark x y n 0) = false ∧ i + k ≤ n) ∧
  (∃ (s : State) (e : Fin 16) (m : Move) (tables : Ecc × Ecc) (far : List Nat) (wa : BitVec 64 × BitVec 64) (x : Nat) (y : Nat) (n : Nat),
    AtRest s ∧ s.mov.moves = [m] ∧ m.engine = some e.val ∧ m.phase = .start ∧ moveFenced s m = false ∧ (parseMove m.desc).op = 0x20 ∧ (match moveSlot s (pageKeyOf m.tenant.toNat ((parseMove m.desc).src + m.pos)) tables.1 with | .ok w => w == wa | .error _ => false) = true ∧ n = (if (slotW wa).big then 2 ^ 30 else 2 ^ 21) ∧ x = slotFpa wa ((parseMove m.desc).src + m.pos) ∧ y = ((parseMove m.desc).dst + m.pos) ∧ pageCheck s m (some wa) none x y n = .done ∧ mustWait s (parseMove m.desc) x y n = false ∧ far = (([x, y].filter (fun g => !onNode s g)).map (fun g => epOf g - 0x4800)).eraseDups ∧ (far ≠ [] ∨ (onNode s x = true ∧ storesUnder s (oldMark x y n 0) = true))) ∧
  (∃ (s : State) (e : Fin 16) (m : Move) (i : Nat) (k : Nat),
    AtRest s ∧ s.mov.moves = [m] ∧ m.engine = some e.val ∧ m.phase = .draining ∧ drained s e m = true ∧ (parseMove m.desc).op = 0x20 ∧ s.home.pcOut = [] ∧ s.home.poison = [] ∧ bitAt s stkBase 0 = true ∧ bitAt s anxBase 0 = true ∧ inTier s m.src = true ∧ inTier s m.dst = true ∧ m.n % 128 = 0 ∧ 0 < m.n ∧ i + k ≤ m.n) ∧
  (∃ (s : State) (e : Fin 16) (m : Move),
    AtRest s ∧ s.mov.moves = [m] ∧ m.engine = some e.val ∧ m.phase = .draining ∧ drained s e m = false) ∧
  (∃ (s : State) (e : Fin 16) (m : Move),
    AtRest s ∧ s.mov.moves = [m] ∧ m.engine = some e.val ∧ m.phase = .copied) ∧
  (∃ (s : State) (e : Fin 16) (m : Move) (j : BitVec 32) (it : Nat) (di : Nat),
    AtRest s ∧ s.mov.moves = [m] ∧ m.engine = some e.val ∧ m.origin = .almanac j it di ∧ m.phase = .flipping ∧ (match changeOf s (4 + e.val) with | some x => x.nodes.isEmpty | none => true) = true ∧ onNode s m.src = true ∧ heldFor s (movePageOf m) = [] ∧ s.mov.arrWait = [] ∧ (parseMove m.desc).len ≤ m.pos + m.n) ∧
  (∃ (s : State) (e : Fin 16) (m : Move),
    AtRest s ∧ s.mov.moves = [m] ∧ m.engine = some e.val ∧ m.phase = .flipping ∧ (match changeOf s (4 + e.val) with | some x => x.nodes.isEmpty | none => true) = true ∧ onNode s m.src = true ∧ heldFor s (movePageOf m) = [] ∧ s.mov.arrWait = [] ∧ m.pos + m.n < (parseMove m.desc).len) ∧
  (∃ (s : State) (e : Fin 16) (m : Move) (h : HeldStore) (g : Frame),
    AtRest s ∧ s.mov.moves = [m] ∧ m.engine = some e.val ∧ m.phase = .flipping ∧ (match changeOf s (4 + e.val) with | some x => x.nodes.isEmpty | none => true) = true ∧ onNode s m.src = true ∧ onNode s m.dst = true ∧ s.mov.held = [h] ∧ heldFor s (movePageOf m) = [h] ∧ h.sent = false ∧ g = { h.frame with mid := midOf ((m.dst + (h.frame.fpa - m.src % 2 ^ 48)) % 2 ^ 48) 0 0 } ∧ homeReach s (homeOf g) g = .done) ∧
  (∃ (s : State) (e : Fin 16) (m : Move),
    AtRest s ∧ s.mov.moves = [m] ∧ m.engine = some e.val ∧ m.phase = .flipping ∧ (match changeOf s (4 + e.val) with | some x => x.nodes.isEmpty | none => true) = true ∧ onNode s m.src = false) ∧
  (∃ (s : State) (e : Fin 16) (m : Move) (x : PendChange),
    AtRest s ∧ s.mov.moves = [m] ∧ m.engine = some e.val ∧ changeOf s (4 + e.val) = some x ∧ x.nodes ≠ []) ∧
  (∃ (s : State) (e : Fin 16) (m : Move) (j : BitVec 32) (it : Nat) (di : Nat) (x : PendChange) (i : Nat) (k : Nat),
    AtRest s ∧ s.mov.moves = [m] ∧ m.engine = some e.val ∧ m.origin = .almanac j it di ∧ m.phase = .flipping ∧ changeOf s (4 + e.val) = some x ∧ x.nodes ≠ [] ∧ (onNode s m.src = false ∨ heldFor s (movePageOf m) = []) ∧ s.mov.arrWait = [] ∧ i + k ≤ m.n) ∧
  (∃ (s : State) (e : Fin 16) (m : Move) (j : BitVec 32) (it : Nat) (di : Nat) (x : PendChange),
    AtRest s ∧ s.mov.moves = [m] ∧ m.engine = some e.val ∧ m.origin = .almanac j it di ∧ m.phase = .draining ∧ changeOf s (4 + e.val) = some x ∧ x.nodes ≠ [] ∧ (onNode s m.src = false ∨ heldFor s (movePageOf m) = []) ∧ s.mov.arrWait = []) ∧
  (∃ (s : State) (e : Fin 16) (m : Move),
    AtRest s ∧ s.mov.moves = [m] ∧ m.engine = some e.val ∧ (match changeOf s (4 + e.val) with | some x => x.nodes.isEmpty | none => true) = true) ∧
  (∃ (s : State) (p : PageMove) (rest : List PageMove) (off : Nat) (n : Nat),
    AtRest s ∧ s.mov.oldPages = p :: rest ∧ oldInUse s p = false ∧ heldFor s p = [] ∧ (p.page / 2 ^ 44 = 1 ∨ p.page / 2 ^ 44 = 2) ∧ p.page % 2 ^ 44 ≤ off ∧ off + n ≤ p.page % 2 ^ 44 + p.size) ∧
  (∃ (s : State) (p : PageMove) (rest : List PageMove) (a : Nat),
    AtRest s ∧ s.mov.oldPages = p :: rest ∧ oldInUse s p = false ∧ heldFor s p = [] ∧ p.page / 2 ^ 44 = 3 ∧ dmaOn s = true ∧ hostAddr s (p.page % 2 ^ 44) p.size = some a) ∧
  (∃ (s : State),
    AtRest s ∧ s.mov.oldPages.all (fun p => oldInUse s p || !(heldFor s p).isEmpty) = true) :=
  ⟨⟨(setWord movBase 1 (b11 { mv0 with engine := none })), 15, { mv0 with engine := none }, by decide +kernel⟩,
   ⟨(setChan 0 { busy := true, started := true, opcode := 0x40 } (setWord movBase 1 (b11 { mv0 with engine := none, tenant := 9, origin := .chan 0 }))), 15, { mv0 with engine := none, tenant := 9, origin := .chan 0 }, 0, by decide +kernel⟩,
   ⟨(setWord movBase 1 (b11 mv0)), 15, by decide +kernel⟩,
   ⟨(tierWrite 1 0 [1, 2, 3] (b11 mv0)), 15, mv0, (.clean, .corrected), 9, 0, 2, (5 + 2 ^ 45, 7 + 2 ^ 8 + 0x4800 * 2 ^ 12), (5 + 2 ^ 45, 7 + 2 ^ 8 + 0x4800 * 2 ^ 12), 0x4800 * 2 ^ 48 + 2 ^ 44, 0x4800 * 2 ^ 48 + 2 ^ 44 + 0x1000, 128, by decide +kernel⟩,
   ⟨(tierWrite 1 (2 ^ 21 - 128) [1, 2, 3] (b12 { mv0 with desc := copy1 })), 15, { mv0 with desc := copy1 }, (.clean, .corrected), (5 + 2 ^ 45, 7 + 2 ^ 8 + 0x4800 * 2 ^ 12), (5 + 2 ^ 45, 7 + 2 ^ 8 + 0x4800 * 2 ^ 12), 0x4800 * 2 ^ 48 + 2 ^ 44 + 2 ^ 21 - 128, 0x4800 * 2 ^ 48 + 2 ^ 44, 128, by decide +kernel⟩,
   ⟨(setChan 2 { busy := true, started := true, opcode := 0x40 } (b11 { mv0 with origin := .chan 2 })), 15, { mv0 with origin := .chan 2 }, (.clean, .corrected), (5 + 2 ^ 45, 7 + 2 ^ 8 + 0x4800 * 2 ^ 12), (5 + 2 ^ 45, 7 + 2 ^ 8 + 0x4800 * 2 ^ 12), 0x4800 * 2 ^ 48 + 2 ^ 44, 0x4800 * 2 ^ 48 + 2 ^ 44 + 0x1000, 128, 2, by decide +kernel⟩,
   ⟨(tierWrite 1 0 [1, 2, 3] (b11 mv0)), 15, mv0, (.clean, .corrected), 9, 0, 2, (5 + 2 ^ 45, 7 + 2 ^ 8 + 0x4800 * 2 ^ 12), (5 + 2 ^ 45, 7 + 2 ^ 8 + 0x4800 * 2 ^ 12), 0x4800 * 2 ^ 48 + 2 ^ 44, 0x4800 * 2 ^ 48 + 2 ^ 44 + 0x1000, 128, 0, by decide +kernel⟩,
   ⟨(sysWrite 0 (leBytes 8 (5 + 2 ^ 45) ++ leBytes 8 (7 + 2 ^ 8 + 0x4808 * 2 ^ 12)) (b11 mv0)), 15, mv0, (.clean, .corrected), (5 + 2 ^ 45, 7 + 2 ^ 8 + 0x4808 * 2 ^ 12), (5 + 2 ^ 45, 7 + 2 ^ 8 + 0x4808 * 2 ^ 12), 0x4808 * 2 ^ 48 + 2 ^ 44, 0x4808 * 2 ^ 48 + 2 ^ 44 + 0x1000, 128, by decide +kernel⟩,
   ⟨(sysWrite 0 (List.replicate 16 0) (b11 mv0)), 15, mv0, (.clean, .clean), by decide +kernel⟩,
   ⟨(sysWrite 0x09000000 (List.replicate 32 0) (b11 mv0)), 15, mv0, (.clean, .corrected), 9, 0, 2, (5 + 2 ^ 45, 7 + 2 ^ 8 + 0x4800 * 2 ^ 12), (5 + 2 ^ 45, 7 + 2 ^ 8 + 0x4800 * 2 ^ 12), 0x4800 * 2 ^ 48 + 2 ^ 44, 0x4800 * 2 ^ 48 + 2 ^ 44 + 0x1000, 128, by decide +kernel⟩,
   ⟨(b11 { mv0 with tenant := 9 }), 15, { mv0 with tenant := 9 }, 9, 0, 2, by decide +kernel⟩,
   ⟨(let s := b11 mv0; { s with mov := { s.mov with arriving := [{ page := 2 ^ 44, size := 2 ^ 21, new := 0 }] } }), 15, mv0, (.clean, .corrected), (5 + 2 ^ 45, 7 + 2 ^ 8 + 0x4800 * 2 ^ 12), (5 + 2 ^ 45, 7 + 2 ^ 8 + 0x4800 * 2 ^ 12), 0x4800 * 2 ^ 48 + 2 ^ 44, 0x4800 * 2 ^ 48 + 2 ^ 44 + 0x1000, 128, by decide +kernel⟩,
   ⟨(let s := b11 mv0; { s with mov := { s.mov with holding := [{ page := 2 ^ 44 + 0x1000, size := 2 ^ 21, new := 0 }] } }), 15, mv0, (.clean, .corrected), (5 + 2 ^ 45, 7 + 2 ^ 8 + 0x4800 * 2 ^ 12), (5 + 2 ^ 45, 7 + 2 ^ 8 + 0x4800 * 2 ^ 12), 0x4800 * 2 ^ 48 + 2 ^ 44, 0x4800 * 2 ^ 48 + 2 ^ 44 + 0x1000, 128, by decide +kernel⟩,
   ⟨(tierWrite 1 0 [1, 2, 3] (b12 mv1)), 15, mv1, (.clean, .clean), (5 + 2 ^ 45, 7 + 2 ^ 8 + 0x4800 * 2 ^ 12), 0x4800 * 2 ^ 48 + 2 ^ 44, 0x4800 * 2 ^ 48 + 2 ^ 44 + 2 ^ 21, 2 ^ 21, 0, 8, by decide +kernel⟩,
   ⟨(b12 { mv0 with desc := rel0 }), 15, { mv0 with desc := rel0 }, (.clean, .clean), [1], (5 + 2 ^ 45, 7 + 2 ^ 8 + 0x4800 * 2 ^ 12), 0x4800 * 2 ^ 48 + 2 ^ 44, 0x4801 * 2 ^ 48 + 2 ^ 44, 2 ^ 21, by decide +kernel⟩,
   ⟨(tierWrite 1 0 [1, 2, 3] (b12 { mv1 with phase := .draining })), 15, { mv1 with phase := .draining }, 0, 8, by decide +kernel⟩,
   ⟨{ b12 { mv1 with phase := .draining } with xlat := { changes := [{ id := 19, nodes := [1], kind := 3 }] } }, 15, { mv1 with phase := .draining }, by decide +kernel⟩,
   ⟨(b11 { mv0 with phase := .copied, desc := rel0, slot := (5 + 2 ^ 45, 7 + 2 ^ 8 + 0x4800 * 2 ^ 12) }), 15, { mv0 with phase := .copied, desc := rel0, slot := (5 + 2 ^ 45, 7 + 2 ^ 8 + 0x4800 * 2 ^ 12) }, by decide +kernel⟩,
   ⟨{ b11 { mv0 with phase := .flipping, desc := rel0, slot := (5 + 2 ^ 45, 7 + 2 ^ 8 + 0x4800 * 2 ^ 12) } with xlat := { changes := [{ id := 19, nodes := [], kind := 0 }] } }, 15, { mv0 with phase := .flipping, desc := rel0, slot := (5 + 2 ^ 45, 7 + 2 ^ 8 + 0x4800 * 2 ^ 12) }, 9, 0, 2, by decide +kernel⟩,
   ⟨{ b11 { mv0 with phase := .flipping, desc := (rel0.take 29 ++ [0x40] ++ rel0.drop 30), slot := (5 + 2 ^ 45, 7 + 2 ^ 8 + 0x4800 * 2 ^ 12) } with xlat := { changes := [{ id := 19, nodes := [], kind := 0 }] } }, 15, { mv0 with phase := .flipping, desc := (rel0.take 29 ++ [0x40] ++ rel0.drop 30), slot := (5 + 2 ^ 45, 7 + 2 ^ 8 + 0x4800 * 2 ^ 12) }, by decide +kernel⟩,
   ⟨(let s := b12 { mv1 with phase := .flipping }; { s with mov := { s.mov with held := [hst] } }), 15, { mv1 with phase := .flipping }, hst, { hst.frame with mid := midOf (2 ^ 44 + 2 ^ 21) 0 0 }, by decide +kernel⟩,
   ⟨{ b11 { mv1 with phase := .flipping, src := 0x4803 * 2 ^ 48 + 2 ^ 44 } with xlat := { changes := [] } }, 15, { mv1 with phase := .flipping, src := 0x4803 * 2 ^ 48 + 2 ^ 44 }, by decide +kernel⟩,
   ⟨{ b11 { mv0 with phase := .flipping, desc := rel0, slot := (5 + 2 ^ 45, 7 + 2 ^ 8 + 0x4800 * 2 ^ 12) } with xlat := { changes := [{ id := 19, nodes := [3], kind := 0 }] } }, 15, { mv0 with phase := .flipping, desc := rel0, slot := (5 + 2 ^ 45, 7 + 2 ^ 8 + 0x4800 * 2 ^ 12) }, { id := 19, nodes := [3], kind := 0 }, by decide +kernel⟩,
   ⟨{ b11 { mv0 with phase := .flipping, desc := rel0, slot := (5 + 2 ^ 45, 7 + 2 ^ 8 + 0x4800 * 2 ^ 12) } with xlat := { changes := [{ id := 19, nodes := [3], kind := 0 }] } }, 15, { mv0 with phase := .flipping, desc := rel0, slot := (5 + 2 ^ 45, 7 + 2 ^ 8 + 0x4800 * 2 ^ 12) }, 9, 0, 2, { id := 19, nodes := [3], kind := 0 }, 5, 7, by decide +kernel⟩,
   ⟨{ b11 { mv0 with phase := .draining, desc := rel0, slot := (5 + 2 ^ 45, 7 + 2 ^ 8 + 0x4800 * 2 ^ 12) } with xlat := { changes := [{ id := 19, nodes := [1], kind := 3 }] } }, 15, { mv0 with phase := .draining, desc := rel0, slot := (5 + 2 ^ 45, 7 + 2 ^ 8 + 0x4800 * 2 ^ 12) }, 9, 0, 2, { id := 19, nodes := [1], kind := 3 }, by decide +kernel⟩,
   ⟨(b11 mv0), 15, mv0, by decide +kernel⟩,
   ⟨{ (tierWrite 1 128 [1, 2, 3] b4) with mov := { oldPages := [{ page := 2 ^ 44, size := 2 ^ 21, new := 0 }] } }, { page := 2 ^ 44, size := 2 ^ 21, new := 0 }, [], 120, 20, by decide +kernel⟩,
   ⟨(let s := setWord (cxlBase + 4) 1 (setWord (cxlBase + 0x108) 1 (setWord (cxlBase + 0x100) 1 b4)); { s with mov := { oldPages := [{ page := 3 * 2 ^ 44, size := 2 ^ 21, new := 0 }] } }), { page := 3 * 2 ^ 44, size := 2 ^ 21, new := 0 }, [], 0, by decide +kernel⟩,
   ⟨b4, by decide +kernel⟩⟩

theorem wit_MovesSubmitted :
  (∃ (s : State) (c : Chan) (dma : Bytes) (inp : Bytes),
    AtRest s ∧ MbxRuns s c 0x40 dma inp ∧ beField inp 0 2 < 4096 ∧ beField inp 2 2 = 0 ∧ moveFormat (slice inp 4 64) = true ∧ moveFvas (parseMove (slice inp 4 64)) = true ∧ (parseMove (slice inp 4 64)).plane = some s.fab.plane.toNat ∧ (planeMask s 0).testBit s.fab.plane.toNat = false) ∧
  (∃ (s : State) (c : Chan) (dma : Bytes) (inp : Bytes) (pl : Nat),
    AtRest s ∧ MbxRuns s c 0x40 dma inp ∧ beField inp 0 2 < 4096 ∧ beField inp 2 2 = 0 ∧ moveFormat (slice inp 4 64) = true ∧ moveFvas (parseMove (slice inp 4 64)) = true ∧ (parseMove (slice inp 4 64)).plane = some pl ∧ pl ≠ s.fab.plane.toNat ∧ (planeMask s 0).testBit pl = false) ∧
  (∃ (s : State) (c : Chan) (dma : Bytes) (inp : Bytes) (pl : Nat),
    AtRest s ∧ MbxRuns s c 0x40 dma inp ∧ beField inp 0 2 < 4096 ∧ beField inp 2 2 = 0 ∧ moveFormat (slice inp 4 64) = true ∧ moveFvas (parseMove (slice inp 4 64)) = true ∧ (parseMove (slice inp 4 64)).plane = some pl ∧ (planeMask s 0).testBit pl = true) ∧
  (∃ (s : State) (c : Chan) (dma : Bytes) (inp : Bytes),
    AtRest s ∧ MbxRuns s c 0x40 dma inp ∧ (4096 ≤ beField inp 0 2 ∨ beField inp 2 2 ≠ 0 ∨ moveFormat (slice inp 4 64) = false ∨ moveFvas (parseMove (slice inp 4 64)) = false)) ∧
  (∃ (s : State),
    AtRest s) ∧
  (∃ (s : State) (c : Chan),
    AtRest s ∧ relayedOut s c = true ∧ (chan s c).lost = false) ∧
  (∃ (s : State) (c : Chan) (dma : Bytes) (inp : Bytes),
    AtRest s ∧ MbxRuns s c 0x41 dma inp ∧ recOpen s (beField inp 0 1) = true) ∧
  (∃ (s : State) (c : Chan) (dma : Bytes) (inp : Bytes) (m : Move) (j : BitVec 32) (it : Nat) (di : Nat),
    AtRest s ∧ MbxRuns s c 0x42 dma inp ∧ recOpen s (beField inp 0 1) = true ∧ parkedOn s (beField inp 0 1) = [m] ∧ m.origin = .almanac j it di) ∧
  (∃ (s : State) (c : Chan) (dma : Bytes) (inp : Bytes),
    AtRest s ∧ MbxRuns s c 0x42 dma inp ∧ recOpen s (beField inp 0 1) = true) ∧
  (∃ (s : State) (c : Chan) (dma : Bytes) (inp : Bytes),
    AtRest s ∧ MbxRuns s c 0x41 dma inp ∧ recOpen s (beField inp 0 1) = false) ∧
  (∃ (s : State) (c : Chan) (dma : Bytes) (inp : Bytes),
    AtRest s ∧ MbxRuns s c 0x42 dma inp ∧ recOpen s (beField inp 0 1) = false) ∧
  (∃ (s : State) (r : Fin 64) (m : Move) (j : BitVec 32) (it : Nat) (di : Nat),
    AtRest s ∧ recOpen s r = true ∧ parkedOn s r = [m] ∧ m.origin = .almanac j it di) ∧
  (∃ (s : State) (r : Fin 64),
    AtRest s ∧ recOpen s r = true) ∧
  (∃ (s : State) (r : Fin 64),
    AtRest s ∧ recOpen s r = false) :=
  ⟨⟨(cmd 0x40 ([0, 1, 0, 0] ++ copy0) (b11 mv0)), 0, [], ([0, 1, 0, 0] ++ copy0), by decide +kernel⟩,
   ⟨(cmd 0x40 ([0, 1, 0, 0] ++ copy0) { b11 mv0 with fab := { b4.fab with plane := 5 } }), 0, [], ([0, 1, 0, 0] ++ copy0), 0, by decide +kernel⟩,
   ⟨(cmd 0x40 ([0, 1, 0, 0] ++ copy0) (setWord (xltBase 0 + 0x10) 1 (b11 mv0))), 0, [], ([0, 1, 0, 0] ++ copy0), 0, by decide +kernel⟩,
   ⟨(cmd 0x40 ([0, 1, 0, 1] ++ copy0) (b11 mv0)), 0, [], ([0, 1, 0, 1] ++ copy0), by decide +kernel⟩,
   ⟨(b11 mv0), by decide +kernel⟩,
   ⟨(setChan 0 { busy := true, started := true, opcode := 0x40 } (b11 mv0)), 0, by decide +kernel⟩,
   ⟨(cmd 0x41 [63] (flt0 mv0)), 0, [], [63], by decide +kernel⟩,
   ⟨(cmd 0x42 [63] (flt0 mv0)), 0, [], [63], { mv0 with phase := .parked 63 }, 9, 0, 2, by decide +kernel⟩,
   ⟨(cmd 0x42 [63] (flt0 mv0)), 0, [], [63], by decide +kernel⟩,
   ⟨(cmd 0x41 [62] (flt0 mv0)), 0, [], [62], by decide +kernel⟩,
   ⟨(cmd 0x42 [62] (flt0 mv0)), 0, [], [62], by decide +kernel⟩,
   ⟨(flt0 mv0), 63, { mv0 with phase := .parked 63 }, 9, 0, 2, by decide +kernel⟩,
   ⟨(flt0 mv0), 63, by decide +kernel⟩,
   ⟨(flt0 mv0), 62, by decide +kernel⟩⟩

theorem wit_TenantRows :
  (∃ (s : State) (c : Chan) (dma : Bytes) (inp : Bytes),
    AtRest s ∧ MbxRuns s c 0x10 dma inp ∧ s.ten.debug = false ∧ admitCheck s (beField inp 0 2) (beField inp 2 1) (beField inp 3 1) (beField inp 4 2) (beField inp 6 2) (beField inp 8 4) (beField inp 12 9) (allZero (slice inp 21 3)) = .done) ∧
  (∃ (s : State) (c : Chan) (dma : Bytes) (inp : Bytes),
    AtRest s ∧ MbxRuns s c 0x10 dma inp ∧ (s.ten.debug = true ∨ admitCheck s (beField inp 0 2) (beField inp 2 1) (beField inp 3 1) (beField inp 4 2) (beField inp 6 2) (beField inp 8 4) (beField inp 12 9) (allZero (slice inp 21 3)) ≠ .done)) ∧
  (∃ (s : State) (c : Chan) (dma : Bytes) (inp : Bytes) (n : Nat),
    s.chip.running = true ∧ MbxRuns s c 0x11 dma inp ∧ tenantOk (beField inp 0 2) = true ∧ slotOfTenant s (beField inp 0 2) = some n ∧ (tenSlot s n).state = .active) ∧
  (∃ (s : State) (c : Chan) (dma : Bytes) (inp : Bytes) (n : Nat),
    AtRest s ∧ MbxRuns s c 0x11 dma inp ∧ tenantOk (beField inp 0 2) = true ∧ slotOfTenant s (beField inp 0 2) = some n ∧ (tenSlot s n).state = .active) ∧
  (∃ (s : State) (c : Chan) (dma : Bytes) (inp : Bytes),
    AtRest s ∧ MbxRuns s c 0x11 dma inp ∧ (tenantOk (beField inp 0 2) = false ∨ (match slotOfTenant s (beField inp 0 2) with | none => true | some n => (tenSlot s n).state != .active) = true)) ∧
  (∃ (s : State) (n : Fin 64),
    s.chip.running = true ∧ (tenSlot s n).state = .fenced ∧ tenantBusy s (tenSlot s n) = false) ∧
  (∃ (s : State) (n : Fin 64),
    AtRest s ∧ ((tenSlot s n).state ≠ .fenced ∨ tenantBusy s (tenSlot s n) = true)) ∧
  (∃ (s : State) (u : ScrubUnit) (n : Nat) (x : TenSlot),
    s.chip.running = true ∧ s.ten.ten = [(n, x)] ∧ x.state = .scrubbing ∧ x.dirty = [u]) ∧
  (∃ (s : State) (u : ScrubUnit) (n : Nat) (x : TenSlot) (c : Chan),
    s.chip.running = true ∧ s.ten.ten = [(n, x)] ∧ x.state = .scrubbing ∧ x.dirty = [u] ∧ x.relChan = some c.val ∧ (chan s c).busy = true ∧ (chan s c).lost = false) ∧
  (∃ (s : State) (u : ScrubUnit) (n : Nat) (x : TenSlot),
    s.chip.running = true ∧ s.ten.ten = [(n, x)] ∧ x.state = .scrubbing ∧ u ∈ x.dirty ∧ x.dirty.erase u ≠ []) ∧
  (∃ (s : State) (g : Fin 16) (n : Nat) (x : TenSlot) (off : Nat) (k : Nat),
    s.chip.running = true ∧ s.ten.ten = [(n, x)] ∧ x.state = .scrubbing ∧ .stacksGroup g ∈ x.dirty ∧ unitOut s (.stacksGroup g) = false ∧ g.val * (9088 * 2 ^ 20) ≤ off ∧ off + k ≤ (g.val + 1) * (9088 * 2 ^ 20)) ∧
  (∃ (s : State) (g : Fin 16) (n : Nat) (x : TenSlot) (off : Nat) (k : Nat),
    s.chip.running = true ∧ s.ten.ten = [(n, x)] ∧ x.state = .scrubbing ∧ .annexPackage g ∈ x.dirty ∧ unitOut s (.annexPackage g) = false ∧ g.val * (96 * 2 ^ 30) ≤ off ∧ off + k ≤ (g.val + 1) * (96 * 2 ^ 30)) ∧
  (∃ (s : State) (u : ScrubUnit),
    s.chip.running = true ∧ s.ten.ten.all (fun x => !(x.2.state == .scrubbing && x.2.dirty.contains u)) = true ∧ u ∈ bootDirty s) ∧
  (∃ (s : State) (u : ScrubUnit),
    AtRest s ∧ s.ten.ten.all (fun x => !(x.2.state == .scrubbing && x.2.dirty.contains u)) = true ∧ u ∉ bootDirty s) ∧
  (∃ (s : State) (c : Chan) (dma : Bytes) (inp : Bytes),
    AtRest s ∧ MbxRuns s c 0x12 dma inp ∧ tenantOk (beField inp 0 2) = true ∧ beField inp 2 2 = 0 ∧ (bitsSet 72 (beField inp 4 9)).all (fun p => !slotEmpty s p && !isFabricPort s p) = true ∧ (bitsSet 72 (beField inp 4 9)).all (fun p => match bindOf s p with | some u => u.toNat == beField inp 0 2 || (slotOfTenant s u.toNat).isNone | none => true) = true) ∧
  (∃ (s : State) (c : Chan) (dma : Bytes) (inp : Bytes),
    AtRest s ∧ MbxRuns s c 0x12 dma inp ∧ (tenantOk (beField inp 0 2) = false ∨ beField inp 2 2 ≠ 0 ∨ (bitsSet 72 (beField inp 4 9)).all (fun p => !slotEmpty s p && !isFabricPort s p) = false)) ∧
  (∃ (s : State) (c : Chan) (dma : Bytes) (inp : Bytes),
    AtRest s ∧ MbxRuns s c 0x12 dma inp ∧ tenantOk (beField inp 0 2) = true ∧ beField inp 2 2 = 0 ∧ (bitsSet 72 (beField inp 4 9)).all (fun p => !slotEmpty s p && !isFabricPort s p) = true ∧ (bitsSet 72 (beField inp 4 9)).all (fun p => match bindOf s p with | some u => u.toNat == beField inp 0 2 || (slotOfTenant s u.toNat).isNone | none => true) = false) ∧
  (∃ (s : State) (c : Chan) (dma : Bytes) (inp : Bytes),
    AtRest s ∧ MbxRuns s c 0x13 dma inp ∧ tenantOk (beField inp 0 2) = true ∧ beField inp 2 2 = 0 ∧ (match slotOfTenant s (beField inp 0 2) with | some n => (tenSlot s n).ports.toNat &&& beField inp 4 9 == 0 | none => true) = true) ∧
  (∃ (s : State) (c : Chan) (dma : Bytes) (inp : Bytes),
    AtRest s ∧ MbxRuns s c 0x13 dma inp ∧ (tenantOk (beField inp 0 2) = false ∨ beField inp 2 2 ≠ 0 ∨ (match slotOfTenant s (beField inp 0 2) with | some n => (tenSlot s n).ports.toNat &&& beField inp 4 9 != 0 | none => false) = true)) :=
  ⟨⟨(cmd 0x10 ([0, 2, 1, 0xFF] ++ List.replicate 20 0) b1), 0, [], ([0, 2, 1, 0xFF] ++ List.replicate 20 0), by decide +kernel⟩,
   ⟨(cmd 0x10 ([0, 2, 9, 0xFF] ++ List.replicate 20 0) b1), 0, [], ([0, 2, 9, 0xFF] ++ List.replicate 20 0), by decide +kernel⟩,
   ⟨(cmd 0x11 [0, 2] { b1 with ten := { b1.ten with ten := [(1, { state := .active, tenant := 2 })] } }), 0, [], [0, 2], 1, by decide +kernel⟩,
   ⟨(cmd 0x11 [0, 2] { b1 with ten := { b1.ten with ten := [(1, { state := .active, tenant := 2 })] } }), 0, [], [0, 2], 1, by decide +kernel⟩,
   ⟨(cmd 0x11 [0, 2] { b1 with ten := { b1.ten with ten := [(1, { state := .fenced, tenant := 2 })] } }), 0, [], [0, 2], by decide +kernel⟩,
   ⟨{ b1 with ten := { b1.ten with ten := [(1, { state := .fenced, tenant := 2, stk := 1 })] } }, 1, by decide +kernel⟩,
   ⟨{ b1 with ten := { b1.ten with ten := [(1, { state := .active, tenant := 2, stk := 1 })] } }, 1, by decide +kernel⟩,
   ⟨{ b1 with ten := { b1.ten with ten := [(1, { state := .scrubbing, tenant := 2, dirty := [.cellarSet 3] })] } }, .cellarSet 3, 1, { state := .scrubbing, tenant := 2, dirty := [.cellarSet 3] }, by decide +kernel⟩,
   ⟨(setChan 2 { busy := true, started := true, opcode := 0x11 } { b1 with ten := { b1.ten with ten := [(1, { state := .scrubbing, tenant := 2, relChan := some 2, dirty := [.cellarSet 3] })] } }), .cellarSet 3, 1, { state := .scrubbing, tenant := 2, relChan := some 2, dirty := [.cellarSet 3] }, 2, by decide +kernel⟩,
   ⟨{ b1 with ten := { b1.ten with ten := [(1, { state := .scrubbing, tenant := 2, dirty := [.stacksGroup 4, .cellarSet 3] })] } }, .cellarSet 3, 1, { state := .scrubbing, tenant := 2, dirty := [.stacksGroup 4, .cellarSet 3] }, by decide +kernel⟩,
   ⟨(tierWrite 1 (9088 * 2 ^ 20) [1, 2, 3] { b1 with ten := { b1.ten with ten := [(1, { state := .scrubbing, tenant := 2, dirty := [.stacksGroup 1] })] } }), 1, 1, { state := .scrubbing, tenant := 2, dirty := [.stacksGroup 1] }, 9088 * 2 ^ 20, 2, by decide +kernel⟩,
   ⟨(tierWrite 2 (96 * 2 ^ 30) [1, 2, 3] { b1 with ten := { b1.ten with ten := [(1, { state := .scrubbing, tenant := 2, dirty := [.annexPackage 1] })] } }), 1, 1, { state := .scrubbing, tenant := 2, dirty := [.annexPackage 1] }, 96 * 2 ^ 30, 2, by decide +kernel⟩,
   ⟨b1, .cellarSet 3, by decide +kernel⟩,
   ⟨b1, .arrayGroup 3, by decide +kernel⟩,
   ⟨(cmd 0x12 [0, 2, 0, 0, 0x80, 0, 0, 0, 0, 0, 0, 0, 1] b1), 0, [], [0, 2, 0, 0, 0x80, 0, 0, 0, 0, 0, 0, 0, 1], by decide +kernel⟩,
   ⟨(cmd 0x12 [0, 2, 0, 1, 0x80, 0, 0, 0, 0, 0, 0, 0, 1] b1), 0, [], [0, 2, 0, 1, 0x80, 0, 0, 0, 0, 0, 0, 0, 1], by decide +kernel⟩,
   ⟨(cmd 0x12 [0, 2, 0, 0, 0x80, 0, 0, 0, 0, 0, 0, 0, 1] { b1 with ten := { b1.ten with bind := [(0, some 3)], ten := [(1, { state := .active, tenant := 3 })] } }), 0, [], [0, 2, 0, 0, 0x80, 0, 0, 0, 0, 0, 0, 0, 1], by decide +kernel⟩,
   ⟨(cmd 0x13 [0, 2, 0, 0, 0x80, 0, 0, 0, 0, 0, 0, 0, 1] { b1 with ten := { b1.ten with bind := [(71, some 2), (0, some 3)] } }), 0, [], [0, 2, 0, 0, 0x80, 0, 0, 0, 0, 0, 0, 0, 1], by decide +kernel⟩,
   ⟨(cmd 0x13 [0, 2, 0, 0, 0x80, 0, 0, 0, 0, 0, 0, 0, 1] { b1 with ten := { b1.ten with ten := [(1, { state := .active, tenant := 2, ports := 1 })] } }), 0, [], [0, 2, 0, 0, 0x80, 0, 0, 0, 0, 0, 0, 0, 1], by decide +kernel⟩⟩

theorem wit_EvidenceAndDebug :
  (∃ (s : State) (c : Chan) (dma : Bytes) (inp : Bytes),
    AtRest s ∧ MbxRuns s c 0x07 dma inp ∧ beField inp 32 1 ≤ 1 ∧ beField inp 33 1 = 0 ∧ (beField inp 32 1 = 0 ∨ beField inp 34 2 < 4096) ∧ s.ten.debug = false ∧ s.ten.idReady = true ∧ (beField inp 32 1 = 0 ∨ evKnown s (beField inp 34 2) = true)) ∧
  (∃ (s : State) (c : Chan) (dma : Bytes) (inp : Bytes),
    AtRest s ∧ MbxRuns s c 0x07 dma inp ∧ beField inp 32 1 ≤ 1 ∧ beField inp 33 1 = 0 ∧ (beField inp 32 1 = 0 ∨ beField inp 34 2 < 4096) ∧ (s.ten.debug = true ∨ s.ten.idReady = false ∨ (beField inp 32 1 = 1 ∧ evKnown s (beField inp 34 2) = false))) ∧
  (∃ (s : State) (c : Chan) (dma : Bytes) (inp : Bytes),
    AtRest s ∧ MbxRuns s c 0x07 dma inp ∧ (1 < beField inp 32 1 ∨ beField inp 33 1 ≠ 0 ∨ (beField inp 32 1 = 1 ∧ 4096 ≤ beField inp 34 2))) ∧
  (∃ (s : State),
    s.chip.running = true ∧ mgmtUp s = true) ∧
  (∃ (s : State) (c : Chan) (dma : Bytes) (inp : Bytes),
    AtRest s ∧ MbxRuns s c 0x08 dma inp ∧ mbxFits s c 32 = true) ∧
  (∃ (s : State) (c : Chan) (dma : Bytes) (inp : Bytes),
    AtRest s ∧ MbxRuns s c 0x08 dma inp ∧ mbxFits s c 32 = false) ∧
  (∃ (s : State),
    s.chip.running = true ∧ allFree s = true ∧ (tget {} s.chip.bridges 3).down = false) ∧
  (∃ (s : State) (power : Bool),
    s.chip.running = true ∧ (allFree s = false ∨ power = false ∨ (tget {} s.chip.bridges 3).down = true)) :=
  ⟨⟨(cmd 0x07 (List.replicate 36 0) b1), 0, [], (List.replicate 36 0), by decide +kernel⟩,
   ⟨(cmd 0x07 (List.replicate 32 0 ++ [1, 0, 0, 2]) b1), 0, [], (List.replicate 32 0 ++ [1, 0, 0, 2]), by decide +kernel⟩,
   ⟨(cmd 0x07 (List.replicate 32 0 ++ [2, 0, 0, 2]) b1), 0, [], (List.replicate 32 0 ++ [2, 0, 0, 2]), by decide +kernel⟩,
   ⟨b1, by decide +kernel⟩,
   ⟨(cmd 0x08 [] b1), 0, [], [], by decide +kernel⟩,
   ⟨(let s := cmd 0x08 [] b1; setChan 0 { chan s 0 with outDma := true, outCap := 31 } s), 0, [], [], by decide +kernel⟩,
   ⟨b1, by decide +kernel⟩,
   ⟨{ b1 with ten := { b1.ten with ten := [(1, { state := .active, tenant := 2, ports := 1 })] } }, true, by decide +kernel⟩⟩

end Sys2Proof.Tests
end

section
/-!
SUPPORT. What the traffic of the data path leaves as it was: frames, requests, accesses, moves and collectives, with all
that follows of itself, change no pin, no clock and no die bridge (R10, R18), no port (R292), and neither take the CXL
link down nor stop its IDE streams (R24, R319). One lemma per function, in the order of the model's files.
-/

namespace Sys2Proof.Machine
open Sys2Proof

/-- From `s` to `t` the pins, clocks and bridges, the ports, and of the CXL link its state and its IDE streams are kept. -/
abbrev LinksKept (s t : State) : Prop :=
  t.chip = s.chip ∧ t.ports = s.ports ∧ t.hif.cxl.up = s.hif.cxl.up ∧ t.hif.cxl.ideIo = s.hif.cxl.ideIo ∧
  t.hif.cxl.ideMem = s.hif.cxl.ideMem

/-! ### Putting changes together -/

theorem LinksKept.refl (s : State) : LinksKept s s := ⟨rfl, rfl, rfl, rfl, rfl⟩

theorem LinksKept.trans {s t u : State} (h : LinksKept s t) (h' : LinksKept t u) : LinksKept s u := by
  obtain ⟨h1, h2, h3, h4, h5⟩ := h
  obtain ⟨h1', h2', h3', h4', h5'⟩ := h'
  exact ⟨h1'.trans h1, h2'.trans h2, h3'.trans h3, h4'.trans h4, h5'.trans h5⟩

theorem LinksKept.ite {c : Prop} [Decidable c] {s t u : State} (h : LinksKept s t) (h' : LinksKept s u) :
    LinksKept s (if c then t else u) := by
  split
  · exact h
  · exact h'

/-- What every step of a fold keeps, the fold keeps, whatever it carries beside the state. -/
theorem foldl_fst_links {α β : Type} {f : State × β → α → State × β} (h : ∀ a x, LinksKept a.1 (f a x).1) :
    ∀ (xs : List α) (a : State × β), LinksKept a.1 (xs.foldl f a).1
  | [], a => .refl a.1
  | x :: xs, a => (h a x).trans (foldl_fst_links h xs (f a x))

@[simp] theorem foldl_links {α : Type} {f : State → α → State} (h : ∀ s x, LinksKept s (f s x)) :
    ∀ (xs : List α) (s : State), LinksKept s (xs.foldl f s)
  | [], s => .refl s
  | x :: xs, s => (h s x).trans (foldl_links h xs (f s x))

@[simp] theorem each_links {α : Type} {f : α → State → State} (h : ∀ x s, LinksKept s (f x s)) (xs : List α)
    (s : State) : LinksKept s (each xs f s) := foldl_links (fun s x => h x s) xs s

@[simp] theorem whenS_links {f : State → State} (h : ∀ s, LinksKept s (f s)) (c : Bool) (s : State) :
    LinksKept s (whenS c f s) := by
  cases c
  · exact .refl s
  · exact h s

theorem mov_links (s : State) (m : Movs) : LinksKept s { s with mov := m } := ⟨rfl, rfl, rfl, rfl, rfl⟩

theorem trn_links (s : State) (x : Transport) : LinksKept s { s with trn := x } := ⟨rfl, rfl, rfl, rfl, rfl⟩

theorem emit_links (e : Emit) (s : State) : LinksKept s (emit e s) := ⟨rfl, rfl, rfl, rfl, rfl⟩

theorem modSess_links (p : Nat) (f : Session → Session) (s : State) : LinksKept s (modSess p f s) :=
  ⟨rfl, rfl, rfl, rfl, rfl⟩

/-- A choice of state is read field by field. -/
theorem links_ite (c : Prop) [Decidable c] (t u : State) :
    (if c then t else u).chip = (if c then t.chip else u.chip) ∧
    (if c then t else u).ports = (if c then t.ports else u.ports) ∧
    (if c then t else u).hif.cxl.up = (if c then t.hif.cxl.up else u.hif.cxl.up) ∧
    (if c then t else u).hif.cxl.ideIo = (if c then t.hif.cxl.ideIo else u.hif.cxl.ideIo) ∧
    (if c then t else u).hif.cxl.ideMem = (if c then t.hif.cxl.ideMem else u.hif.cxl.ideMem) := by
  split <;> simp

/-! ### Registers -/

@[simp] theorem takeHanded_links (here : Nat → Bool) (s : State) : LinksKept s (takeHanded here s) := by
  simp [takeHanded, LinksKept]

/-! ### Events -/

@[simp] theorem raiseGlb_links (b : Nat) (s : State) : LinksKept s (raiseGlb b s) := by
  simp [raiseGlb, LinksKept]

@[simp] theorem raisePrt_links (p b : Nat) (s : State) : LinksKept s (raisePrt p b s) := by
  simp [raisePrt, LinksKept]

@[simp] theorem raiseEpb_links (p b : Nat) (s : State) : LinksKept s (raiseEpb p b s) := by
  simp [raiseEpb, LinksKept]

@[simp] theorem raiseSwc_links (b unit : Nat) (s : State) : LinksKept s (raiseSwc b unit s) := by
  simp [raiseSwc, LinksKept]

@[simp] theorem raiseCol_links (b unit : Nat) (s : State) : LinksKept s (raiseCol b unit s) := by
  simp [raiseCol, LinksKept]

@[simp] theorem raiseRda_links (b unit : Nat) (s : State) : LinksKept s (raiseRda b unit s) := by
  simp [raiseRda, LinksKept]

@[simp] theorem raiseMov_links (b unit : Nat) (s : State) : LinksKept s (raiseMov b unit s) := by
  simp [raiseMov, LinksKept]

@[simp] theorem raiseSec_links (b unit : Nat) (s : State) : LinksKept s (raiseSec b unit s) := by
  simp [raiseSec, LinksKept]

/-! ### Errors of the tiers -/

@[simp] theorem unitFailed_links (u : ScrubUnit) (s : State) : LinksKept s (unitFailed u s) := by
  unfold unitFailed; split <;> simp [LinksKept]

@[simp] theorem unitLost_links (u : ScrubUnit) (s : State) : LinksKept s (unitLost u s) := by
  unfold unitLost; split <;> simp [LinksKept]

@[simp] theorem channelFail_links (c : Nat) (s : State) : LinksKept s (channelFail c s) := by
  unfold channelFail; (repeat' split) <;> simp [LinksKept]

@[simp] theorem foundUe_links (space off : Nat) (s : State) : LinksKept s (foundUe space off s) := by
  unfold foundUe; dsimp only; (repeat' split) <;> simp [LinksKept]

@[simp] theorem foundCe_links (space off : Nat) (s : State) : LinksKept s (foundCe space off s) := by
  unfold foundCe; split <;> simp [LinksKept]

@[simp] theorem found_links (space off : Nat) (ecc : Ecc) (s : State) :
    LinksKept s (found space off ecc s) := by
  unfold found; (repeat' split) <;> simp [LinksKept]

@[simp] theorem sysFound_links (x : Option Nat) (ecc : Ecc) (s : State) : LinksKept s (sysFound x ecc s) := by
  unfold sysFound; split <;> simp [LinksKept]

@[simp] theorem clearPoison_links (space off : Nat) (s : State) : LinksKept s (clearPoison space off s) := by
  simp [clearPoison, LinksKept]

/-! ### The switching core -/

@[simp] theorem markJoin_links (e : Nat) (f : Frame) (s : State) : LinksKept s (markJoin e f s).2 := by
  unfold markJoin; dsimp only; (repeat' split) <;> simp [LinksKept]

@[simp] theorem joinUnsched_links (e : Nat) (f : Frame) (s : State) : LinksKept s (joinUnsched e f s) := by
  simp [joinUnsched, LinksKept]

@[simp] theorem demote_links (e : Nat) (f : Frame) (s : State) : LinksKept s (demote e f s) := by
  simp [demote, LinksKept]

theorem join_links {e : Nat} {f : Frame} {s t : State} (h : join e f s = some t) : LinksKept s t := by
  unfold join at h
  (repeat' split at h) <;> cases h <;> simp [LinksKept]

theorem joinCopy_links {e : Nat} {f : Frame} {s t : State} (h : joinCopy e f s = some t) : LinksKept s t := by
  unfold joinCopy at h
  dsimp only at h
  (repeat' split at h) <;> cases h <;> simp [LinksKept]

@[simp] theorem memStore_links (s : State) (src : Nat) (tenant : BitVec 12) (fpa keyidx keytag : Nat)
    (bs : Bytes) (own : Nat) :
    LinksKept s (memStore s src tenant fpa keyidx keytag bs own) := by
  unfold memStore; dsimp only; (repeat' split) <;> simp [LinksKept]

@[simp] theorem mirCopy_links (n p : Nat) (eg : Bool) (f : Frame) (s : State) :
    LinksKept s (mirCopy n p eg f s) := by
  unfold mirCopy; dsimp only; (repeat' split) <;> simp [LinksKept]

@[simp] theorem mirrorAt_links (p : Nat) (eg : Bool) (f : Frame) (s : State) :
    LinksKept s (mirrorAt p eg f s) := by
  unfold mirrorAt
  refine .ite (.refl s) (foldl_links (fun t n => ?_) _ s)
  dsimp only; (repeat' split) <;> simp [LinksKept]

@[simp] theorem cxlCrossed_links (f : Frame) (s : State) : LinksKept s (cxlCrossed f s) := by
  unfold cxlCrossed; split <;> simp [LinksKept, modHif]

@[simp] theorem cxlLost_links (f : Frame) (s : State) : LinksKept s (cxlLost f s) := by
  unfold cxlLost; split <;> simp [LinksKept, modHif]

@[simp] theorem rekeyStart_links (p : Nat) (s : State) : LinksKept s (rekeyStart p s) := by
  unfold rekeyStart; dsimp only; (repeat' split) <;> simp [LinksKept]

@[simp] theorem countFrame_links (p : Nat) (s : State) : LinksKept s (countFrame p s) := by
  unfold countFrame; dsimp only; (repeat' split) <;> simp [LinksKept]

@[simp] theorem send_links (e : Nat) (f : Frame) (s : State) : LinksKept s (send e f s) := by
  unfold send; dsimp only; (repeat' split) <;> simp [LinksKept]

@[simp] theorem sendStored_links (cells : Ecc) (e : Nat) (f : Frame) (s : State) :
    LinksKept s (sendStored cells e f s) := by
  unfold sendStored; split <;> simp [LinksKept]

@[simp] theorem fillTokens_links (e t : Nat) (s : State) : LinksKept s (fillTokens e t s) := by
  simp [fillTokens, LinksKept]

@[simp] theorem sendControl_links (cells : Ecc) (e : Nat) (f : Frame) (rest : List Frame) (s : State) :
    LinksKept s (sendControl cells e f rest s) := by
  simp [sendControl, LinksKept]

@[simp] theorem sendCopy_links (cells : Ecc) (e : Nat) (f : Frame) (s : State) :
    LinksKept s (sendCopy cells e f s) := by
  unfold sendCopy; dsimp only; (repeat' split) <;> simp [LinksKept]

@[simp] theorem demoteLane_links (e : Nat) (s : State) : LinksKept s (demoteLane e s) := by
  unfold demoteLane
  refine .trans (t := modEg e (fun x => { x with lane := [] }) s) (by simp [LinksKept]) (each_links (fun f t => ?_) _ _)
  split <;> simp [LinksKept]

@[simp] theorem sendHead_links (cells : Ecc) (e q : Nat) (defs : Table Nat) (s : State) :
    LinksKept s (sendHead cells e q defs s) := by
  unfold sendHead; dsimp only; (repeat' split) <;> simp [LinksKept]

@[simp] theorem selectPlain_scheduled_links (cells : Ecc) (e t : Nat) (s : State) :
    LinksKept s (selectPlain.scheduled cells e t s) := by
  unfold selectPlain.scheduled; dsimp only; (repeat' split) <;> simp [LinksKept]

@[simp] theorem selectPlain_links (cells : Ecc) (e t : Nat) (s : State) : LinksKept s (selectPlain cells e t s) := by
  unfold selectPlain; dsimp only; (repeat' split) <;> simp [LinksKept]

@[simp] theorem selectOwned_links (cells : Ecc) (p t own stop : Nat) (s : State) :
    LinksKept s (selectOwned cells p t own stop s) := by
  unfold selectOwned; dsimp only; (repeat' split) <;> simp [LinksKept]

@[simp] theorem selectTdm_links (cells : Ecc) (p t : Nat) (s : State) :
    LinksKept s (selectTdm cells p t s) := by
  simp [selectTdm, LinksKept]

@[simp] theorem selectTurn_links (cells : Ecc) (e t : Nat) (s : State) :
    LinksKept s (selectTurn cells e t s) := by
  simp [selectTurn, LinksKept]

@[simp] theorem sendMirror_links (e : Nat) (s : State) : LinksKept s (sendMirror e s) := by
  unfold sendMirror; split <;> simp [LinksKept]

@[simp] theorem choose_links (cells : Ecc) (e t : Nat) (s : State) : LinksKept s (choose cells e t s) := by
  unfold choose; (repeat' split) <;> simp [LinksKept]

@[simp] theorem cutThrough_links (rate e : Nat) (f : Frame) (s t : State) : LinksKept t (cutThrough rate e f s t) := by
  unfold cutThrough; dsimp only; (repeat' split) <;> simp [LinksKept]

@[simp] theorem submitTo_links (e : Nat) (f : Frame) (s : State) : LinksKept s (submitTo e f s) := by
  unfold submitTo
  split
  · rename_i t h
    refine (join_links h).trans ?_
    split <;> simp [LinksKept]
  · simp [LinksKept]

@[simp] theorem enter_links (e : Nat) (f : Frame) (s : State) : LinksKept s (enter e f s) := by
  unfold enter
  refine .ite ?_ (by simp [LinksKept])
  split
  · rename_i t h
    exact joinCopy_links h
  · simp [LinksKept]

@[simp] theorem submit_links (f : Frame) (s : State) : LinksKept s (submit f s) := by
  unfold submit; split <;> simp [LinksKept]

@[simp] theorem unpark_links (s : State) : LinksKept s (unpark s) := by
  simp [unpark, LinksKept]

@[simp] theorem dropFrames_links (ok : Frame → Bool) (s : State) : LinksKept s (dropFrames ok s) := by
  simp [dropFrames, LinksKept]

/-! ### The transport -/

@[simp] theorem sendOpen_links (c : SendCtx) (s : State) : LinksKept s (sendOpen c s) := by
  unfold sendOpen; dsimp only; split <;> simp [LinksKept]

@[simp] theorem openCtx_links (num : Nat) (s : State) : LinksKept s (openCtx num s) := by
  unfold openCtx; dsimp only; split <;> simp [LinksKept]

@[simp] theorem beginClose_links (num : Nat) (s : State) : LinksKept s (beginClose num s) := by
  unfold beginClose; split <;> simp [LinksKept]

@[simp] theorem newSend_links (sid : StreamId) (host succ : Bool) (prevEnd : BitVec 32)
    (waiting : List (Frame × Nat)) (s : State) :
    LinksKept s (newSend sid host succ prevEnd waiting s) := by
  unfold newSend; dsimp only; (repeat' split) <;> simp [LinksKept]

@[simp] theorem notePeak_links (u : Nat) (s : State) : LinksKept s (notePeak u s) := by
  unfold notePeak; split <;> simp [LinksKept]

@[simp] theorem report_links (r : FabReq) (s : State) : LinksKept s (report r s) := by
  simp [report, LinksKept]

@[simp] theorem forgetReq_links (id : Nat) (s : State) : LinksKept s (forgetReq id s) := by
  simp [forgetReq, LinksKept]

@[simp] theorem dropUnfit_links (num : Nat) (s : State) : LinksKept s (dropUnfit num s) := by
  unfold dropUnfit; (repeat' split) <;> simp [LinksKept]

@[simp] theorem sendOne_links (num : Nat) (s : State) : LinksKept s (sendOne num s) := by
  unfold sendOne; (repeat' split) <;> simp [LinksKept]

@[simp] theorem pump_links (num : Nat) (s : State) : LinksKept s (pump num s) := by
  unfold pump; dsimp only; (repeat' split) <;> simp [LinksKept]

@[simp] theorem handOver_links (sid : StreamId) (s : State) : LinksKept s (handOver sid s) := by
  unfold handOver; dsimp only; (repeat' split) <;> simp [LinksKept]

@[simp] theorem sendNeeding_links (origin : Origin) (sid : StreamId) (opc : BitVec 8) (need : Nat)
    (frames : List Frame) (s : State) :
    LinksKept s (sendNeeding origin sid opc need frames s) := by
  unfold sendNeeding; dsimp only; split <;> simp [LinksKept]

@[simp] theorem sendReq_links (origin : Origin) (sid : StreamId) (opc : BitVec 8) (frames : List Frame)
    (s : State) :
    LinksKept s (sendReq origin sid opc frames s) := by
  simp [sendReq, LinksKept]

@[simp] theorem sendAck_links (sid : StreamId) (psn : BitVec 32) (s : State) :
    LinksKept s (sendAck sid psn s) := by
  unfold sendAck; split <;> simp [LinksKept]

@[simp] theorem ackable_links (sid : StreamId) (psn : BitVec 32) (ce : Bool) (s : State) :
    LinksKept s (ackable sid psn ce s) := by
  unfold ackable; dsimp only; (repeat' split) <;> simp [LinksKept]

@[simp] theorem answer_links (f : Frame) (st : Status) (payload : Bytes) (s : State) :
    LinksKept s (answer f st payload s) := by
  simp [answer, LinksKept]

/-! ### Attach sessions -/

@[simp] theorem emitAtt_links (p : Nat) (m : AttMsg) (s : State) : LinksKept s (emitAtt p m s) := by
  unfold emitAtt; (repeat' split) <;> simp [LinksKept]

@[simp] theorem transmit_links (p : Nat) (m : AttMsg) (s : State) : LinksKept s (transmit p m s) := by
  simp [transmit, LinksKept]

@[simp] theorem flushAtt_links (p : Nat) (s : State) : LinksKept s (flushAtt p s) := by
  unfold flushAtt
  dsimp only
  refine .trans (foldl_fst_links (fun a m => ?_) (sess s p).blocked (s, [])) (modSess_links p _ _)
  split <;> simp [LinksKept]

@[simp] theorem sendAtt_links (p : Nat) (m : AttMsg) (s : State) : LinksKept s (sendAtt p m s) := by
  simp [sendAtt, LinksKept]

@[simp] theorem finishReq_links (p id : Nat) (st : Status) (payload : Bytes) (s : State) :
    LinksKept s (finishReq p id st payload s) := by
  unfold finishReq; dsimp only; (repeat' split) <;> simp [LinksKept]

@[simp] theorem issueReq_links (p id : Nat) (s : State) : LinksKept s (issueReq p id s) := by
  unfold issueReq; split <;> simp [LinksKept]

@[simp] theorem releaseFlags_links (p : Nat) (s : State) : LinksKept s (releaseFlags p s) := by
  unfold releaseFlags
  refine each_links (fun id t => ?_) _ s
  (repeat' split) <;> simp [LinksKept]

@[simp] theorem endOut_links (p id : Nat) (st : Status) (payload : Bytes) (s : State) :
    LinksKept s (endOut p id st payload s) := by
  simp [endOut, LinksKept]

@[simp] theorem attachEnded_links (p id : Nat) (f : FabReq) (s : State) :
    LinksKept s (attachEnded p id f s) := by
  unfold attachEnded; dsimp only; (repeat' split) <;> simp [LinksKept]

@[simp] theorem giveCredit_links (p : Nat) (m : AttMsg) (s : State) : LinksKept s (giveCredit p m s) := by
  simp [giveCredit, LinksKept]

@[simp] theorem giveBack_links (p id : Nat) (m : AttMsg) (s : State) : LinksKept s (giveBack p id m s) := by
  unfold giveBack; (repeat' split) <;> simp [LinksKept]

@[simp] theorem sessLeave_links (p : Nat) (to_ : AttState) (s : State) : LinksKept s (sessLeave p to_ s) := by
  simp [sessLeave, LinksKept]

/-! ### Home points -/

@[simp] theorem sendInb_links (p : Nat) (m : AttMsg) (access off len : Nat) (locked : Bool) (s : State) :
    LinksKept s (sendInb p m access off len locked s) := by
  unfold sendInb; split <;> simp [LinksKept]

@[simp] theorem respond_links (f : Frame) (st : Status) (payload : Bytes) (s : State) :
    LinksKept s (respond f st payload s) := by
  unfold respond; dsimp only; (repeat' split) <;> simp [LinksKept]

@[simp] theorem dropParts_links (id : Nat) (s : State) : LinksKept s (dropParts id s) := by
  simp [dropParts, LinksKept]

@[simp] theorem dropHeld_links (id : Nat) (s : State) : LinksKept s (dropHeld id s) := by
  simp [dropHeld, LinksKept]

@[simp] theorem mirAdvance_links (n : Nat) : ∀ (k : Nat) (s : State), LinksKept s (mirAdvance n k s)
  | 0, s => .refl s
  | k + 1, s => by
    unfold mirAdvance
    split
    · split
      · exact .trans (by simp [LinksKept]) (mirAdvance_links n k _)
      · exact .refl s
    · exact .refl s

@[simp] theorem mirEnd_links (n : Nat) (f : Frame) (st : Status) (s : State) :
    LinksKept s (mirEnd n f st s) := by
  unfold mirEnd; (repeat' split) <;> simp [LinksKept]

@[simp] theorem finishAcc_links (a : Access) (s : State) : LinksKept s (finishAcc a s) := by
  unfold finishAcc; (repeat' split) <;> simp [LinksKept]

@[simp] theorem partOver_links (id off : Nat) (st : Status) (data : Bytes) (s : State) :
    LinksKept s (partOver id off st data s) := by
  unfold partOver
  split
  · exact .refl s
  · dsimp only
    split
    · simp [LinksKept]
    · split
      · simp [LinksKept]
      · split
        · simp [LinksKept]
        · refine .trans ?_ (each_links (fun mo t => ?_) _ _)
          · simp [LinksKept]
          · (repeat' split) <;> simp [LinksKept]

@[simp] theorem openEntry_links (h : Nat) (a : Access) (p : Part) (s : State) : LinksKept s (openEntry h a p s).1 := by
  unfold openEntry; dsimp only; (repeat' split) <;> simp [LinksKept]

@[simp] theorem closeEntry_links (p : Part) (s : State) : LinksKept s (closeEntry p s) := by
  unfold closeEntry; (repeat' split) <;> simp [LinksKept]

@[simp] theorem markBusy_links (h : Nat) (p : Part) (s : State) : LinksKept s (markBusy h p s) := by
  unfold markBusy; dsimp only; split <;> simp [LinksKept]

@[simp] theorem issueRun_links (h : Nat) (a : Access) (run : List Part) (s : State) :
    LinksKept s (issueRun h a run s) := by
  unfold issueRun
  refine .trans (t := each run (fun p s => closeEntry p (markBusy h p s)) s) (by simp [LinksKept]) (.ite ?_ (.ite ?_ ?_))
  · refine each_links (fun ps t => ?_) _ _
    dsimp only; (repeat' split) <;> simp [LinksKept]
  · refine each_links (fun p t => ?_) _ _
    dsimp only; (repeat' split) <;> simp [LinksKept]
  · exact .refl _

@[simp] theorem waitPart_slotPart_links (h : Nat) (tenant : BitVec 12) (more : Nat) (p : Part) (s : State) :
    LinksKept s (waitPart.slotPart h tenant more p s) := by
  unfold waitPart.slotPart; dsimp only; (repeat' split) <;> simp [LinksKept]

@[simp] theorem waitPart_links (h : Nat) (tenant : BitVec 12) (more : Nat) (p : Part) (s : State) :
    LinksKept s (waitPart h tenant more p s) := by
  unfold waitPart; split <;> simp [LinksKept]

@[simp] theorem enterPart_links (h : Nat) (a : Access) (acc : State × List Part) (p : Part) :
    LinksKept acc.1 (enterPart h a acc p).1 := by
  unfold enterPart; dsimp only; (repeat' split) <;> simp [LinksKept]

@[simp] theorem foldl_enterPart_links (h : Nat) (a : Access) (ps : List Part) (acc : State × List Part) :
    LinksKept acc.1 (ps.foldl (enterPart h a) acc).1 := foldl_fst_links (enterPart_links h a) ps acc

@[simp] theorem drawAcc_links (s : State) : LinksKept s (drawAcc s) := by
  simp [drawAcc, LinksKept]

@[simp] theorem startAs_links (id h : Nat) (f : Frame) (cxl : Bool) (own : Nat) (reply : Option Frame)
    (s : State) :
    LinksKept s (startAs id h f cxl own reply s) := by
  unfold startAs; dsimp only; (repeat' split) <;> simp [LinksKept]

@[simp] theorem startAcc_links (h : Nat) (f : Frame) (cxl : Bool) (own : Nat) (reply : Option Frame)
    (s : State) :
    LinksKept s (startAcc h f cxl own reply s) := by
  simp [startAcc, LinksKept]

@[simp] theorem homeStart_links (id : Nat) (f : Frame) (s : State) : LinksKept s (homeStart id f s) := by
  unfold homeStart; dsimp only; split <;> simp [LinksKept]

@[simp] theorem holdStore_links (id own : Nat) (f : Frame) (s : State) :
    LinksKept s (holdStore id own f s) := by
  unfold holdStore; dsimp only; split <;> simp [LinksKept]

@[simp] theorem holdFeed_links : ∀ (n h : Nat) (s : State), LinksKept s (holdFeed n h s)
  | 0, _, s => .refl s
  | n + 1, h, s => by
    unfold holdFeed
    split
    · exact .refl s
    · exact .trans (by simp [LinksKept]) (holdFeed_links n h _)

@[simp] theorem heldOver_links (x : HeldStore) (st : Status) (payload : Bytes) (s : State) :
    LinksKept s (heldOver x st payload s) := by
  unfold heldOver; (repeat' split) <;> simp [LinksKept]

@[simp] theorem forwardHeld_links (p : PageMove) (x : HeldStore) (s : State) :
    LinksKept s (forwardHeld p x s) := by
  unfold forwardHeld; dsimp only; (repeat' split) <;> simp [LinksKept]

@[simp] theorem passHeld_links (id own : Nat) (p : PageMove) (f : Frame) (s : State) :
    LinksKept s (passHeld id own p f s) := by
  unfold passHeld; dsimp only; split <;> simp [LinksKept]

@[simp] theorem homePage_links (id : Nat) (f : Frame) (s : State) : LinksKept s (homePage id f s) := by
  unfold homePage; dsimp only; (repeat' split) <;> simp [LinksKept]

@[simp] theorem servePage_links (f : Frame) (s : State) : LinksKept s (servePage f s) := by
  simp [servePage, LinksKept]

@[simp] theorem applyHome_links (f : Frame) (s : State) : LinksKept s (applyHome f s) := by
  unfold applyHome; split <;> simp [LinksKept]

@[simp] theorem lostHeld_links (r : RecvCtx) (s : State) : LinksKept s (lostHeld r s) := by
  simp [lostHeld, LinksKept]

@[simp] theorem releaseOrd_links : ∀ (n : Nat) (sid : StreamId) (s : State), LinksKept s (releaseOrd n sid s)
  | 0, _, s => .refl s
  | n + 1, sid, s => by
    unfold releaseOrd
    split
    · exact .refl s
    · split
      · exact .trans (by simp [LinksKept]) (releaseOrd_links n sid _)
      · dsimp only
        split <;> exact .trans (by simp [LinksKept]) (releaseOrd_links n sid _)

@[simp] theorem releaseStream_links (sid : StreamId) (s : State) : LinksKept s (releaseStream sid s) := by
  simp [releaseStream, LinksKept]

@[simp] theorem passPsn_links (f : Frame) (s : State) : LinksKept s (passPsn f s) := by
  unfold passPsn; split <;> simp [LinksKept]

@[simp] theorem duplicate_links (f : Frame) (r : RecvCtx) (s : State) : LinksKept s (duplicate f r s) := by
  unfold duplicate; (repeat' split) <;> simp [LinksKept]

@[simp] theorem noteDup_links (f : Frame) (s : State) : LinksKept s (noteDup f s) := by
  exact .ite (by simp [LinksKept]) (by simp [LinksKept])

theorem windowed_links {apply : State → State} (ha : ∀ s, LinksKept s (apply s)) (f : Frame) (s : State) :
    LinksKept s (windowed apply f s) := by
  unfold windowed
  (repeat' split) <;> simp [LinksKept, ha]

@[simp] theorem denyKey_links (f : Frame) (st : Status) (s : State) : LinksKept s (denyKey f st s) := by
  unfold denyKey; split <;> simp [LinksKept]

@[simp] theorem measBegin_links (f : Frame) (s : State) : LinksKept s (measBegin f s) := by
  unfold measBegin; (repeat' split) <;> simp [LinksKept]

@[simp] theorem homeEnter_links (f : Frame) (s : State) : LinksKept s (homeEnter f s) := by
  unfold homeEnter
  dsimp only
  (repeat' split) <;> simp [LinksKept, windowed_links (applyHome_links f)]

@[simp] theorem wakeMeas_links (s : State) : LinksKept s (wakeMeas s) := by
  simp [wakeMeas, LinksKept]

@[simp] theorem feedQueue_links (h : Nat) (s : State) : LinksKept s (feedQueue h s) := by
  refine foldl_fst_links (fun acc x => ?_) _ (s, [])
  dsimp only; (repeat' split) <;> simp [LinksKept]

@[simp] theorem partDone_links (h : Nat) (p : Part) (st : Status) (data : Bytes) (s : State) :
    LinksKept s (partDone h p st data s) := by
  simp [partDone, LinksKept]

@[simp] theorem tierWrite_links (space off : Nat) (bs : Bytes) (s : State) :
    LinksKept s (tierWrite space off bs s) := by
  unfold tierWrite; split <;> simp [LinksKept]

@[simp] theorem feedMeasured_links (num : Nat) (bs : Bytes) (s : State) :
    LinksKept s (feedMeasured num bs s) := by
  unfold feedMeasured; dsimp only; (repeat' split) <;> simp [LinksKept]

@[simp] theorem hostOver_links (x : HostAcc) (st : Status) (data : Bytes) (s : State) :
    LinksKept s (hostOver x st data s) := by
  simp [hostOver, LinksKept]

@[simp] theorem hostLost_links (s : State) : LinksKept s (hostLost s) := by
  unfold hostLost
  refine each_links (fun _ t => ?_) _ s
  split <;> simp [LinksKept]

@[simp] theorem dropHome_links (h : Nat) (st : Status) (which : Access → Bool) (s : State) :
    LinksKept s (dropHome h st which s) := by
  unfold dropHome
  refine each_links (fun a t => ?_) _ s
  refine .trans ?_ (each_links (fun b u => ?_) _ _)
  · split <;> simp [LinksKept]
  · dsimp only; (repeat' split) <;> simp [LinksKept]

@[simp] theorem inboundLost_links (h : Nat) (s : State) : LinksKept s (inboundLost h s) := by
  simp [inboundLost, LinksKept]

@[simp] theorem sessDown_links (p : Nat) (to_ : AttState) (s : State) : LinksKept s (sessDown p to_ s) := by
  simp [sessDown, LinksKept]

@[simp] theorem cutResults_links (c : Nat) (s : State) : LinksKept s (cutResults c s) := by
  unfold cutResults; dsimp only; split <;> simp [LinksKept]

/-! ### The mailbox -/

@[simp] theorem mbxEndLen_links (c : Nat) (st : Status) (len : Nat) (out : Bytes) (s : State) :
    LinksKept s (mbxEndLen c st len out s) := by
  unfold mbxEndLen; dsimp only; (repeat' split) <;> simp [LinksKept]

@[simp] theorem mbxEnd_links (c : Nat) (st : Status) (out : Bytes) (s : State) :
    LinksKept s (mbxEnd c st out s) := by
  simp [mbxEnd, LinksKept]

@[simp] theorem mbxLose_links (s : State) : LinksKept s (mbxLose s) := by
  unfold mbxLose
  refine each_links (fun c t => ?_) _ s
  split <;> simp [LinksKept]

@[simp] theorem ctlNodes_links (nodes : List Nat) (m : Ctl) (s : State) : LinksKept s (ctlNodes nodes m s) := by
  simp [ctlNodes, LinksKept]

/-! ### Moves -/

@[simp] theorem endMove_links (m : Move) (st : Status) (s : State) : LinksKept s (endMove m st s) := by
  unfold endMove; (repeat' split) <;> simp [LinksKept]

@[simp] theorem noteRead_links (k : PageKey) (ecc : Ecc) (s : State) : LinksKept s (noteRead k ecc s) := by
  unfold noteRead; (repeat' split) <;> simp [LinksKept]

@[simp] theorem writeTier_links (x : Nat) (bs : Bytes) (s : State) : LinksKept s (writeTier x bs s).1 := by
  unfold writeTier; dsimp only; (repeat' split) <;> simp [LinksKept]

@[simp] theorem zeroRange_links (space off n : Nat) (s : State) : LinksKept s (zeroRange space off n s) := by
  simp [zeroRange, LinksKept]

@[simp] theorem clearMarks_links (old new runner : Nat) (s : State) :
    LinksKept s (clearMarks old new runner s) := by
  simp [clearMarks, LinksKept]

@[simp] theorem wakeArriving_recordPage_links (id own : Nat) (f : Frame) (s : State) :
    LinksKept s (wakeArriving.recordPage id own f s) := by
  unfold wakeArriving.recordPage; (repeat' split) <;> simp [LinksKept]

@[simp] theorem wakeArriving_links (s : State) : LinksKept s (wakeArriving s) := by
  unfold wakeArriving
  refine .trans (t := { s with mov := { s.mov with arrWait := [] } }) (by simp [LinksKept]) (each_links (fun x t => ?_) _ _)
  split <;> simp [LinksKept]

@[simp] theorem heldBack_links (x : HeldStore) (s : State) : LinksKept s (heldBack x s) := by
  unfold heldBack; dsimp only; (repeat' split) <;> simp [LinksKept]

@[simp] theorem giveUpPage_links (old new size runner : Nat) (s : State) :
    LinksKept s (giveUpPage old new size runner s) := by
  unfold giveUpPage; (repeat' split) <;> simp [LinksKept]

@[simp] theorem dropPage_links (m : Move) (s : State) : LinksKept s (dropPage m s) := by
  simp [dropPage, LinksKept]

@[simp] theorem partWritten_links (m : Move) (st : Status) (s : State) : LinksKept s (partWritten m st s) := by
  unfold partWritten; dsimp only; (repeat' split) <;> simp [LinksKept]

@[simp] theorem engineIssue_links (m : Move) (opc : BitVec 8) (x n key tag : Nat) (bs : Bytes) (s : State) :
    LinksKept s (engineIssue m opc x n key tag bs s) := by
  unfold engineIssue
  refine .ite ?_ (by simp [LinksKept])
  refine .trans ?_ (each_links (fun f t => ?_) _ _)
  · simp [LinksKept]
  · split <;> simp [LinksKept]

@[simp] theorem partRead_held_links (m : Move) (buf : Bytes) (key tag : Nat) (s : State) :
    LinksKept s (partRead.held m buf key tag s) := by
  unfold partRead.held
  refine .trans ?_ (each_links (fun f t => ?_) _ _)
  · simp [LinksKept]
  · split <;> simp [LinksKept]

@[simp] theorem partRead_links (m : Move) (buf : Bytes) (st : Status) (s : State) :
    LinksKept s (partRead m buf st s) := by
  unfold partRead; dsimp only; (repeat' split) <;> simp [LinksKept]

@[simp] theorem partAnswered_links (e : Nat) (st : Status) (data : List (Nat × Bytes)) (s : State) :
    LinksKept s (partAnswered e st data s) := by
  unfold partAnswered; dsimp only; (repeat' split) <;> simp [LinksKept]

@[simp] theorem pageFinished_links (m : Move) (s : State) : LinksKept s (pageFinished m s) := by
  unfold pageFinished; dsimp only; (repeat' split) <;> simp [LinksKept]

@[simp] theorem confirmTo_links (node : BitVec 11) (st : Status) (s : State) :
    LinksKept s (confirmTo node st s) := by
  simp [confirmTo, LinksKept]

@[simp] theorem drainsSettle_links (s : State) : LinksKept s (drainsSettle s) := by
  simp [drainsSettle, LinksKept]

@[simp] theorem movesSettle_links (s : State) : LinksKept s (movesSettle s) := by
  unfold movesSettle
  extract_lets s1 s2 s3 due m s4
  have h1 : LinksKept s s1 := each_links (fun _ _ => by split <;> simp [LinksKept]) _ s
  have h2 : LinksKept s1 s2 := each_links (fun _ _ => by split <;> simp [LinksKept]) _ s1
  have h3 : LinksKept s2 s3 := each_links (fun _ _ => holdFeed_links _ _ _) _ s2
  have h4 : LinksKept s3 s4 := mov_links s3 _
  clear_value s1 s2 s3 due m s4
  have h5 := each_links (fun (x : BitVec 11 × Bool × PageMove) t => confirmTo_links x.1 .done t) due s4
  exact h1.trans <| h2.trans <| h3.trans <| h4.trans <| h5.trans <| (wakeMeas_links _).trans (drainsSettle_links _)

/-! ### The array -/

@[simp] theorem landPeakNote_links (g : Nat) (s : State) : LinksKept s (landPeakNote g s) := by
  unfold landPeakNote; dsimp only; split <;> simp [LinksKept]

@[simp] theorem landAsk_links (g ctx chunk bytes : Nat) (s : State) :
    LinksKept s (landAsk g ctx chunk bytes s) := by
  simp [landAsk, LinksKept]

@[simp] theorem landClear_links (ctx : Nat) (s : State) : LinksKept s (landClear ctx s) := by
  simp [landClear, LinksKept]

/-! ### Collectives -/

@[simp] theorem toIdle_links (c : Nat) (s : State) : LinksKept s (toIdle c s) := by
  simp [toIdle, LinksKept]

@[simp] theorem startInst_links (c : Nat) (seq : BitVec 32) (s : State) : LinksKept s (startInst c seq s) := by
  simp [startInst, LinksKept]

/-- A tree node takes its context; the others are taken from the state that leaves. Stated of the functional that
`takeNodes` is the fixed point of: Lean unfolds `List.range 4096` when asked for its equation. -/
theorem takeNodes_cons_links {tenant : BitVec 12} {alm : Option (BitVec 32)} {descr : Bytes} {ids : List (BitVec 16)}
    {n : TNode} {ts : List TNode} {below : List.below (motive := fun _ => State → Except NoRoom State) (n :: ts)}
    (hb : ∀ s t, below.1 s = .ok t → LinksKept s t) {s t : State}
    (h : takeNodes._f tenant alm descr ids (n :: ts) below s = .ok t) : LinksKept s t := by
  delta takeNodes._f at h
  dsimp -zeta only at h
  extract_lets d full free set fits at h
  clear_value full fits free
  split at h
  · cases h
  · split at h
    · cases h
    · split at h
      · exact .trans (by simp [LinksKept]) (hb _ t h)
      · cases h

theorem takeNodes_links {tenant : BitVec 12} {alm : Option (BitVec 32)} {descr : Bytes} {ids : List (BitVec 16)}
    {ts : List TNode} : ∀ s t, takeNodes tenant alm descr ids ts s = .ok t → LinksKept s t := by
  delta takeNodes
  induction ts with
  | nil => intro s t h; cases h; exact .refl s
  | cons n ts ih =>
    intro s t h
    with_reducible exact takeNodes_cons_links ih h

theorem collReserve_links {tenant : BitVec 12} {alm : Option (BitVec 32)} {descr : Bytes} {ids : List (BitVec 16)}
    {s t : State} (h : collReserve tenant alm descr ids s = .ok t) : LinksKept s t := by
  unfold collReserve at h
  split at h
  · cases h
  · exact takeNodes_links s t h

@[simp] theorem noteNoRoom_links (e : NoRoom) (s : State) : LinksKept s (noteNoRoom e s) := by
  simp [noteNoRoom, LinksKept]

@[simp] theorem sendColl_links (c : Nat) (opc : BitVec 8) (cls : BitVec 2) (dst chunk lo hi : Nat) (bs : Bytes)
    (s : State) :
    LinksKept s (sendColl c opc cls dst chunk lo hi bs s) := by
  simp [sendColl, LinksKept]

@[simp] theorem endDesc_links (c : Nat) (m : MemberSt) (st : Status) (s : State) :
    LinksKept s (endDesc c m st s) := by
  unfold endDesc; split <;> simp [LinksKept]

@[simp] theorem enterAbort_links (c : Nat) (st : Status) (seq : BitVec 32) (who : List (Nat × Status))
    (s : State) :
    LinksKept s (enterAbort c st seq who s) := by
  simp [enterAbort, LinksKept]

@[simp] theorem sendAborts_links (x : Ctx) (st : Status) (seq : BitVec 32) (s : State) :
    LinksKept s (sendAborts x st seq s) := by
  simp [sendAborts, LinksKept]

@[simp] theorem abortHandle_links (tenant : BitVec 12) (handle : Nat) (seq : BitVec 32) (st : Status)
    (who : List (Nat × Status)) (s : State) :
    LinksKept s (abortHandle tenant handle seq st who s) := by
  unfold abortHandle
  dsimp only
  split
  · exact .refl s
  · (repeat' split) <;> simp [LinksKept, links_ite]

@[simp] theorem abortCtx_links (c : Nat) (st : Status) (who : List (Nat × Status)) (s : State) :
    LinksKept s (abortCtx c st who s) := by
  unfold abortCtx; dsimp only; split <;> simp [LinksKept]

@[simp] theorem bankAborts_links (bank : Nat) (s : State) : LinksKept s (bankAborts bank s) := by
  unfold bankAborts; split <;> simp [LinksKept]

@[simp] theorem notePages_links (tenant fva n : Nat) (s : State) : LinksKept s (notePages tenant fva n s) := by
  simp [notePages, LinksKept]

@[simp] theorem memberWrite_links (c : Nat) (m : MemberSt) (fva key : Nat) (bs : Bytes) (ord : Bool)
    (s : State) :
    LinksKept s (memberWrite c m fva key bs ord s) := by
  unfold memberWrite; dsimp only; (repeat' split) <;> simp [LinksKept]

@[simp] theorem finishCtx_links (c : Nat) (s : State) : LinksKept s (finishCtx c s) := by
  unfold finishCtx; dsimp only; (repeat' split) <;> simp [LinksKept]

@[simp] theorem doneDown_links : ∀ (n c : Nat) (s : State), LinksKept s (doneDown n c s)
  | 0, _, s => .refl s
  | n + 1, c, s => by
    unfold doneDown
    dsimp only
    split
    · exact .refl s
    · refine .trans (.trans ?_ (each_links (fun k t => ?_) _ _)) (finishCtx_links c _)
      · simp [LinksKept]
      · (repeat' split) <;> simp [LinksKept, doneDown_links n]

@[simp] theorem rootDone_links (c : Nat) (s : State) : LinksKept s (rootDone c s) := by
  unfold rootDone; dsimp only; split <;> simp [LinksKept]

@[simp] theorem toMember_links (c i k lo hi : Nat) (cls : BitVec 2) (bs : Bytes) (s : State) :
    LinksKept s (toMember c i k lo hi cls bs s) := by
  unfold toMember; dsimp only; split <;> simp [LinksKept]

@[simp] theorem putSlot_links (c : Nat) (t : Slot) (s : State) : LinksKept s (putSlot c t s) := by
  simp [putSlot, LinksKept]

@[simp] theorem sendCredit_links (c dst lo hi l : Nat) (s : State) :
    LinksKept s (sendCredit c dst lo hi l s) := by
  simp [sendCredit, LinksKept]

@[simp] theorem serveOne_links (c : Nat) (w : Nat × Nat × Nat × Bool) (s : State) :
    LinksKept s (serveOne c w s) := by
  unfold serveOne; dsimp only; (repeat' split) <;> simp [LinksKept]

@[simp] theorem serve_links (c : Nat) (s : State) : LinksKept s (serve c s) := by
  simp [serve, LinksKept]

@[simp] theorem grantFor_links (c i : Nat) (s : State) : LinksKept s (grantFor c i s) := by
  unfold grantFor; dsimp only; (repeat' split) <;> simp [LinksKept]

@[simp] theorem grantAll_links (c : Nat) (s : State) : LinksKept s (grantAll c s) := by
  simp [grantAll, LinksKept]

theorem agree_kidAgrees_links : ∀ n : Nat, (∀ (c : Nat) (s : State), LinksKept s (agree n c s)) ∧
    ∀ (c lo : Nat) (dg : BitVec 64) (seq : BitVec 32) (s : State), LinksKept s (kidAgrees n c lo dg seq s)
  | 0 => by simp [agree, kidAgrees, LinksKept]
  | n + 1 => by
    obtain ⟨ha, hk⟩ := agree_kidAgrees_links n
    constructor
    · intro c s
      unfold agree
      dsimp only
      (repeat' split) <;> simp [LinksKept, hk]
    · intro c lo dg seq s
      unfold kidAgrees
      dsimp only
      (repeat' split) <;> simp [LinksKept, ha]

@[simp] theorem agree_links (n c : Nat) (s : State) : LinksKept s (agree n c s) := (agree_kidAgrees_links n).1 c s

@[simp] theorem kidAgrees_links (n c lo : Nat) (dg : BitVec 64) (seq : BitVec 32) (s : State) :
    LinksKept s (kidAgrees n c lo dg seq s) := (agree_kidAgrees_links n).2 c lo dg seq s

@[simp] theorem recordDesc_links (c i id : Nat) (bs : Bytes) (s : State) :
    LinksKept s (recordDesc c i id bs s) := by
  unfold recordDesc; dsimp only; (repeat' split) <;> simp [LinksKept]

@[simp] theorem descStep_links (p id : Nat) (m : AttMsg) (held : Bool) (s : State) :
    LinksKept s (descStep p id m held s) := by
  unfold descStep; dsimp only; (repeat' split) <;> simp [LinksKept]

@[simp] theorem dataStep_links (p id : Nat) (m : AttMsg) (s : State) : LinksKept s (dataStep p id m s) := by
  unfold dataStep; dsimp only; (repeat' split) <;> simp [LinksKept]

@[simp] theorem moveOn_links (c : Nat) (s : State) : LinksKept s (moveOn c s) := by
  unfold moveOn
  extract_lets x kids ws s1 s2 s3
  refine .ite (.refl s) ?_
  have h1 : LinksKept s s1 := by simp [s1, LinksKept]
  have h2 : LinksKept s1 s2 := by unfold s2; split <;> simp [LinksKept]
  have h3 : LinksKept s2 s3 := each_links (fun _ _ => kidAgrees_links _ _ _ _ _ _) kids s2
  clear_value s1 s2 s3
  refine h1.trans <| h2.trans <| h3.trans <| each_links (fun w t => ?_) ws s3
  (repeat' split) <;> simp [LinksKept]

@[simp] theorem freeCtx_links (c : Nat) (s : State) : LinksKept s (freeCtx c s) := by
  unfold freeCtx
  extract_lets x s1
  have h1 : LinksKept s s1 := each_links (fun w t => by dsimp only; (repeat' split) <;> simp [LinksKept]) _ s
  exact h1.trans (by simp [LinksKept])

@[simp] theorem freeHandle_links (tenant : BitVec 12) (handle : Nat) (which : Ctx → Bool) (s : State) :
    LinksKept s (freeHandle tenant handle which s) := by
  simp [freeHandle, LinksKept]

@[simp] theorem modOpen_links (p id : Nat) (f : TreeOpenSt → TreeOpenSt) (s : State) :
    LinksKept s (modOpen p id f s) := by
  simp [modOpen, LinksKept]

@[simp] theorem endOpen_links (o : TreeOpenSt) (st : Status) (s : State) : LinksKept s (endOpen o st s) := by
  unfold endOpen; (repeat' split) <;> simp [LinksKept]

@[simp] theorem listRead_links (o : TreeOpenSt) (s : State) : LinksKept s (listRead o s) := by
  unfold listRead
  extract_lets d bs ids chk
  refine .ite (by simp [LinksKept]) (.ite (by simp [LinksKept]) ?_)
  split
  · simp [LinksKept]
  · rename_i t h
    exact (collReserve_links h).trans (.ite (by simp [LinksKept]) (by simp [LinksKept]))

@[simp] theorem listPart_links (p id run : Nat) (st : Status) (data : List (Nat × Bytes)) (s : State) :
    LinksKept s (listPart p id run st data s) := by
  unfold listPart; dsimp only; (repeat' split) <;> simp [LinksKept]

@[simp] theorem collEnded_links (c : Nat) (st : Status) (s : State) : LinksKept s (collEnded c st s) := by
  unfold collEnded; (repeat' split) <;> simp [LinksKept]

@[simp] theorem gatherWords_links (c : Nat) (m : MemberSt) (src n : Nat) (s : State) :
    LinksKept s (gatherWords c m src n s) := by
  simp [gatherWords, LinksKept]

@[simp] theorem resultWritten_links (w : Nat × Nat × Nat × Status) (s : State) :
    LinksKept s (resultWritten w s) := by
  unfold resultWritten
  extract_lets c i key st x left mine s1 s2 s3 x3 d src s4 y s5 n s6
  have h1 : LinksKept s s1 := by simp [s1, LinksKept]
  have h2 : LinksKept s1 s2 := by unfold s2; split <;> simp [LinksKept]
  have h3 : LinksKept s2 s3 := by simp [s3, LinksKept]
  have h4 : LinksKept s3 s4 := by simp [s4, LinksKept]
  have h5 : LinksKept s4 s5 := by simp [s5, LinksKept]
  have h6 : LinksKept s3 s6 := by
    refine .ite (h4.trans (.ite (h5.trans ?_) (.refl s4))) (.refl s3)
    split <;> simp [LinksKept]
  clear_value s1 s2 s3 s4 s5 s6
  refine .ite (.refl s) ((h1.trans h2).trans (.ite (abortCtx_links _ _ _ _) (.ite ?_ (finishCtx_links _ _))))
  exact (h3.trans h6).trans (finishCtx_links _ _)

@[simp] theorem collSettle_links (s : State) : LinksKept s (collSettle s) := by
  simp [collSettle, LinksKept]

/-! ### Almanacs -/

theorem deviceStore_links {o : Origin} {tenant : BitVec 12} {ep fva key tag : Nat} {bs : Bytes} {cls : BitVec 2}
    {ord : Bool} : ∀ {fuel : Nat} {s t : State},
      deviceStore o tenant ep fva key tag bs cls ord fuel s = some t → LinksKept s t
  | 0, _, _, h => by cases h
  | fuel + 1, s, t, h => by
    unfold deviceStore at h
    dsimp only at h
    split at h
    · cases h
    · cases h
      simp [LinksKept]

@[simp] theorem multicastEnded_links (x : McastPort) (st : Status) (s : State) :
    LinksKept s (multicastEnded x st s) := by
  unfold multicastEnded
  refine .ite (.refl s) ?_
  dsimp only
  cases h : deviceStore .record x.tenant (slotEp s x.port) (fvaAt (slotEp s x.port) (beField x.desc 48 8))
      (beField x.desc 40 2) (beField x.desc 42 4) (leBytes 8 (x.iter + 1)) 2 true 3 s with
  | none => exact .refl s
  | some t => exact deviceStore_links h

/-! ### Routes -/

@[simp] theorem remapOff_links (n p : Nat) (s : State) : LinksKept s (remapOff n p s) := by
  simp [remapOff, LinksKept]

@[simp] theorem repairRoutes_links (n p : Nat) (s : State) : LinksKept s (repairRoutes n p s) := by
  simp [repairRoutes, LinksKept]

@[simp] theorem dropQueued_links (p : Nat) (s : State) : LinksKept s (dropQueued p s) := by
  simp [dropQueued, LinksKept]

@[simp] theorem unsettle_links (s : State) : LinksKept s (unsettle s) := by
  unfold unsettle; split <;> simp [LinksKept]

@[simp] theorem fabricLinkFailed_links (p : Nat) (s : State) : LinksKept s (fabricLinkFailed p s) := by
  simp [fabricLinkFailed, LinksKept]

/-! ### Ports -/

@[simp] theorem linkLost_links (p : Nat) (s : State) : LinksKept s (linkLost p s) := by
  unfold linkLost; dsimp only; (repeat' split) <;> simp [LinksKept]

@[simp] theorem retimerPresets_links (p : Nat) (s : State) : LinksKept s (retimerPresets p s) := by
  unfold retimerPresets; (repeat' split) <;> simp [LinksKept]

/-! ### The CXL link and the dies -/

@[simp] theorem halfLost_links (m : Nat) (s : State) : LinksKept s (halfLost m s) := by
  simp [halfLost, LinksKept]

/-! ### The host link -/

@[simp] theorem cxlServe_links (f : Frame) (s : State) : LinksKept s (cxlServe f s) := by
  unfold cxlServe; split <;> simp [LinksKept]

/-! ### What follows of itself -/

@[simp] theorem forwardEnded_links (id : Nat) (r : FabReq) (s : State) : LinksKept s (forwardEnded id r s) := by
  unfold forwardEnded; split <;> simp [LinksKept]

@[simp] theorem originEnded_links (r : FabReq) (s : State) : LinksKept s (originEnded r s) := by
  unfold originEnded; split <;> simp [LinksKept]

@[simp] theorem settleOnce_links (s : State) : LinksKept s (settleOnce s) := by
  unfold settleOnce
  extract_lets es tr s1 hs mv s2 cs s3
  have h1 : LinksKept s s1 := (trn_links s _).trans (each_links originEnded_links es _)
  have h2 : LinksKept s1 s2 := (mov_links s1 _).trans (each_links (fun _ _ => partAnswered_links _ _ _ _) hs _)
  have h3 : LinksKept s2 s3 := .trans (by simp [LinksKept, modHif]) (each_links cxlServe_links cs _)
  clear_value s1 s2 s3
  exact h1.trans <| h2.trans <| h3.trans <| (collSettle_links _).trans (movesSettle_links _)

@[simp] theorem settleLoop_links : ∀ (n : Nat) (s : State), LinksKept s (settleLoop n s)
  | 0, s => .refl s
  | n + 1, s => by
    unfold settleLoop
    dsimp only
    split
    · exact (settleOnce_links s).trans (settleLoop_links n _)
    · exact settleOnce_links s

@[simp] theorem moveWaiting_links (s : State) : LinksKept s (moveWaiting s) := by
  unfold moveWaiting; dsimp only; split <;> simp [LinksKept]

end Sys2Proof.Machine
end

section
/-!
SUPPORT. How a row runs, as far as links, pins and the CXL link go; when a device stays quiet; and the ports that fail with a
die or a clock and the CXL link that goes down (R10, R18, R24).
-/

namespace Sys2Proof.Machine
open Sys2Proof

/-! ### What a run keeps -/

/-- What follows of itself, and the readiness transitions, keep the links. -/
theorem settle_links (s : State) : LinksKept s (settle s) := by
  by_cases hq : quiet s = true
  · simp [settle_quiet hq, LinksKept]
  · simp [settle, handOn, hq, LinksKept]

/-- A row runs: the links are as its own effect leaves them, and what that puts out stands first. -/
theorem run_links {r : Reach} {s : State} {f : State → State} (h : s.chip.running = true) :
    ∃ t, run r s f = .next t ∧ LinksKept (r.bound s (f s)) t ∧ (f s).out <+: t.out := by
  refine ⟨_, run_running h, ?_, ?_⟩
  · exact (settle_links _).trans (by simp [LinksKept])
  · simpa using (out_settle (r.bound s (f s))).trans (out_noteReady s (settle (r.bound s (f s))))

/-- A row that reaches pins and lasers runs: both are as its effect leaves them. -/
theorem run_chip_lasers {r : Reach} {s : State} {f : State → State} (h : s.chip.running = true) (hc : r.chip = true)
    (hl : r.lasers = true) : ∃ t, run r s f = .next t ∧ t.chip = (f s).chip ∧ t.lasers = (f s).lasers :=
  ⟨_, run_running h, by simp [Reach.bound, hc], by simp [Reach.bound, hl]⟩

/-- A row that reaches pins and ports runs: both are as its effect leaves them. -/
theorem run_chip_ports {r : Reach} {s : State} {f : State → State} (h : s.chip.running = true) (hc : r.chip = true)
    (hp : r.ports = true) : ∃ t, run r s f = .next t ∧ t.chip = (f s).chip ∧ t.ports = (f s).ports :=
  ⟨_, run_running h, by simp [Reach.bound, hc], by simp [Reach.bound, hp]⟩

theorem puts_of_appended {s t : State} {e : Emit} (h : s.out ++ [e] <+: t.out) : Puts s t e := by
  obtain ⟨rest, h⟩ := h
  simp [Puts, ← h]

/-- A row whose effect is to put out `e`. -/
theorem run_puts {r : Reach} {s : State} {f : State → State} {e : Emit} (h : s.chip.running = true) (hf : f s = emit e s) :
    ∃ t, run r s f = .next t ∧ Puts s t e := by
  obtain ⟨t, ht, hout⟩ := out_run (r := r) (f := f) h
  exact ⟨t, ht, puts_of_appended (by simpa [hf] using hout)⟩

/-! ### Quiet states -/

theorem quiet_arrived {s : State} (h : quiet s = true) : s.hif.cxl.arrived = [] := by
  simp_all [quiet, unsettled]

theorem quiet_parked {s : State} (h : quiet s = true) : s.sw.parked = [] := by
  simp_all [quiet]

/-- What `quiet` looks at. -/
theorem quiet_congr {s t : State} (h : quiet s = true) (htrn : t.trn = s.trn) (hmov : t.mov = s.mov)
    (hcoll : t.coll = s.coll) (hatt : t.att = s.att) (hcxl : t.hif.cxl.arrived = [])
    (hsw : t.sw.parked = []) : quiet t = true := by
  have same : quiet t = quiet s := by
    simp only [quiet, unsettled, heldLeft, htrn, hmov, hcoll, hatt, hcxl, hsw, quiet_arrived h, quiet_parked h]
  exact same.trans h

/-- A row that leaves the moves as they were has no engine read a page. -/
theorem bound_mov {r : Reach} {s t : State} (h : t.mov = s.mov) : (r.bound s t).mov = s.mov := by
  cases hp : pageReads s
  · have none_reads : s.mov.moves.filter (fun m => m.phase != .reading) = s.mov.moves := by
      simp_all [pageReads]
    simp [Reach.bound, h, none_reads]
  · simp [Reach.bound, h, hp]

/-- A row leaves a quiet device quiet where it touches no request, access, move or context under way. -/
theorem quiet_bound {r : Reach} {s t : State} (h : quiet s = true) (htrn : t.trn = s.trn) (hmov : t.mov = s.mov)
    (hcoll : t.coll = s.coll) (hatt : t.att = s.att) (hcxl : t.hif.cxl.arrived = []) (hsw : t.sw.parked = []) :
    quiet (r.bound s t) = true := by
  have hp : (r.bound s t).sw.parked = [] := by
    simp only [bound_part]
    split
    · exact hsw
    · exact quiet_parked h
  refine quiet_congr h ?_ (bound_mov hmov) ?_ ?_ ?_ hp <;> simp [bound_part, *]

/-- Where nothing follows of itself, pins and CXL link are as the row's effect leaves them. -/
theorem run_quiet_cxl {r : Reach} {s : State} {f : State → State} (h : s.chip.running = true)
    (hc : r.chip = true ∨ (f s).chip = s.chip) (hq : quiet (r.bound s (f s)) = true) :
    ∃ t, run r s f = .next t ∧ t.chip = (f s).chip ∧ t.hif.cxl = (f s).hif.cxl := by
  refine ⟨_, run_quiet h hq, ?_, by simp⟩
  rcases hc with hc | hc <;> simp [Reach.bound, hc]

/-! ### Ports that fail (R10, R18) -/

/-- The port is out of use: DISABLED, or back in DETECT. -/
abbrev PortIdle (s : State) (p : Nat) : Prop := (portSt s p).state = .disabled ∨ (portSt s p).state = .detect

/-- A port that is in use goes to DETECT; the pins and the other ports stay as they were. -/
theorem toDetect_inUse {p : Nat} {failed : Bool} {s : State} (h : ¬ PortIdle s p) :
    ∃ x : PortSt, x.state = .detect ∧ (toDetect p failed s).chip = s.chip ∧
      (toDetect p failed s).ports = tput {} s.ports p x := by
  have hx : ((portSt s p).state == .disabled || (portSt s p).state == .detect) = false := by
    simpa [PortIdle] using h
  unfold toDetect
  extract_lets x training u x1 x2 full x3 x4
  refine ⟨x4, ?_, ?_, ?_⟩
  · simp only [x4, x3, groupRate]
    split <;> rfl
  · simp [x, hx, u]
  · simp [x, hx, u, setPort]

theorem toDetect_idle {p : Nat} {failed : Bool} {s : State} (h : PortIdle s p) : toDetect p failed s = s := by
  unfold toDetect
  rcases h with h | h <;> simp [h]

theorem toDetect_chip (p : Nat) (failed : Bool) (s : State) : (toDetect p failed s).chip = s.chip := by
  by_cases h : PortIdle s p
  · rw [toDetect_idle h]
  · obtain ⟨_, _, hc, _⟩ := toDetect_inUse (failed := failed) h
    exact hc

theorem portIdle_toDetect_same (p : Nat) (failed : Bool) (s : State) : PortIdle (toDetect p failed s) p := by
  by_cases h : PortIdle s p
  · rwa [toDetect_idle h]
  · obtain ⟨x, hx, _, hp⟩ := toDetect_inUse (failed := failed) h
    exact .inr (by simp [portSt, hp, hx])

theorem portIdle_toDetect {p q : Nat} {failed : Bool} {s : State} (h : PortIdle s q) : PortIdle (toDetect p failed s) q := by
  by_cases hpq : q = p
  · subst hpq
    exact portIdle_toDetect_same q failed s
  · by_cases hp : PortIdle s p
    · rwa [toDetect_idle hp]
    · obtain ⟨x, _, _, hports⟩ := toDetect_inUse (failed := failed) hp
      simpa [PortIdle, portSt, hports, tget_tput_ne _ _ _ _ hpq] using h

theorem portsFail_chip (ps : List Nat) (s : State) : (portsFail ps s).chip = s.chip :=
  each_same State.chip ps s (fun p _ t => toDetect_chip p false t)

theorem portsFail_cons (q : Nat) (ps : List Nat) (s : State) :
    portsFail (q :: ps) s = portsFail ps (toDetect q false s) := by
  simp only [portsFail, each, List.foldl_cons]

theorem portsFail_keeps_idle {p : Nat} (ps : List Nat) {s : State} (h : PortIdle s p) : PortIdle (portsFail ps s) p :=
  each_induct (P := fun t => PortIdle t p) ps h (fun _ _ _ ht => portIdle_toDetect ht)

theorem portsFail_idle {p : Nat} {ps : List Nat} (hp : p ∈ ps) (s : State) : PortIdle (portsFail ps s) p := by
  induction ps generalizing s with
  | nil => cases hp
  | cons q ps ih =>
    rw [portsFail_cons]
    rcases List.mem_cons.1 hp with rfl | hp
    · exact portsFail_keeps_idle ps (portIdle_toDetect_same p false s)
    · exact ih hp (toDetect q false s)

/-- All ports that satisfy `which` fail. -/
theorem portsFail_filter_idle (which : Nat → Bool) (s : State) (p : Nat) (hp : p ∈ List.range 88) (hw : which p = true) :
    PortIdle (portsFail ((List.range 88).filter which) s) p :=
  portsFail_idle (List.mem_filter.2 ⟨hp, hw⟩) s

/-! ### The CXL link goes down (R24) -/

theorem cxlDown_chip_ports (s : State) : (cxlDown s).chip = s.chip ∧ (cxlDown s).ports = s.ports := by
  simp [cxlDown]

/-- Only the LOST marks of the channels change where commands lose their results (R418). -/
theorem mbxLose_eq (s : State) : ∃ cs, mbxLose s = { s with hif := { s.hif with chans := cs } } := by
  unfold mbxLose
  refine each_induct (P := fun t => ∃ cs, t = { s with hif := { s.hif with chans := cs } }) _ ⟨s.hif.chans, rfl⟩ ?_
  rintro c _ _ ⟨cs, rfl⟩
  split
  · exact ⟨_, rfl⟩
  · exact ⟨cs, rfl⟩

/-- With no host-tier access in flight, only frames of CXL.mem, the channels and the link's own state are touched. -/
theorem cxlDown_eq {s : State} (h : s.home.host = []) :
    ∃ cs, cxlDown s = { dropFrames (fun f => !isCxlReq s f) s with
      hif := { s.hif with cxl := { trained := s.hif.cxl.trained }, chans := cs } } := by
  obtain ⟨cs, hcs⟩ := mbxLose_eq { dropFrames (fun f => !isCxlReq s f) s with
    hif := { s.hif with cxl := { trained := s.hif.cxl.trained } } }
  refine ⟨cs, ?_⟩
  have hlost : cxlDown s = hostLost (mbxLose { dropFrames (fun f => !isCxlReq s f) s with
    hif := { s.hif with cxl := { trained := s.hif.cxl.trained } } }) := rfl
  rw [hlost, hcs]
  simp [hostLost, dropFrames, h]

end Sys2Proof.Machine
end

section
/-!
PROOFS. The rows of the die bridges, the reference clocks, supply loss and thermal trip (R10, R18, R365): what each effect
does to pins and ports, then the statement.
-/

namespace Sys2Proof.Machine
open Sys2Proof

/-! ### Die bridges (R10) -/

/-- What a bridge that fails leaves of pins and bridges, and of the ports of its die. -/
theorem bridgeDownAt_spec {d : Die} {s : State} (h : (tget {} s.chip.bridges (dieNum d)).down = false) :
    (tget {} (bridgeDownAt d s).chip.bridges (dieNum d)).down = true ∧
    ∀ p ∈ List.range 88, dieOf p = dieNum d → PortIdle (bridgeDownAt d s) p := by
  unfold bridgeDownAt
  extract_lets n chip s1 s2 s3
  have hdown : (tget {} s3.chip.bridges n).down = true := by
    simp [s3, portsFail_chip, s2, s1, chip, tmod]
  have hidle : ∀ p ∈ List.range 88, dieOf p = n → PortIdle s3 p := fun p hp hd =>
    portsFail_filter_idle (fun p => dieOf p == n) s2 p hp (by simpa using hd)
  have keeps : ∀ t : State, t.chip = s3.chip → t.ports = s3.ports →
      (tget {} t.chip.bridges n).down = true ∧ ∀ p ∈ List.range 88, dieOf p = n → PortIdle t p := by
    intro t hc hp
    simp only [PortIdle, portSt, hc, hp]
    exact ⟨hdown, hidle⟩
  clear_value s3
  rw [if_neg (by simp [n, h])]
  split
  · exact keeps _ (cxlDown_chip_ports s3).1 (cxlDown_chip_ports s3).2
  · exact keeps _ (halfLost_links 0 s3).1 (halfLost_links 0 s3).2.1
  · exact keeps _ (halfLost_links 1 s3).1 (halfLost_links 1 s3).2.1
  · exact keeps _ rfl rfl

/-- A replay is counted, and a bridge that is not yet at its 16th failed replay in a row stays up. -/
theorem bridgeReplay_counted {d : Die} {failed : Bool} {s : State}
    (h : (tget {} s.chip.bridges (dieNum d)).down = false) (hrun : (tget {} s.chip.bridges (dieNum d)).failRun < 15) :
    (tget {} (bridgeReplay d failed s).chip.bridges (dieNum d)).failRun =
      (if failed then (tget {} s.chip.bridges (dieNum d)).failRun + 1 else 0) ∧
    (tget {} (bridgeReplay d failed s).chip.bridges (dieNum d)).replays =
      (tget {} s.chip.bridges (dieNum d)).replays + 1 := by
  unfold bridgeReplay
  extract_lets n b run chip s1 s2
  have hlow : ¬ 16 ≤ run := by
    simp only [run, b, n]; split <;> omega
  rw [if_neg (by simp [b, n, h]), if_neg hlow]
  simp [s2, s1, chip, run, b, n]

/-- The 16th failed replay in a row takes the bridge down. -/
theorem bridgeReplay_sixteenth {d : Die} {s : State} (h : (tget {} s.chip.bridges (dieNum d)).down = false)
    (hrun : 15 ≤ (tget {} s.chip.bridges (dieNum d)).failRun) :
    ∃ u : State, (tget {} u.chip.bridges (dieNum d)).down = false ∧ bridgeReplay d true s = bridgeDownAt d u := by
  unfold bridgeReplay
  extract_lets n b run chip s1 s2
  have hhigh : 16 ≤ run := by
    simp only [run, b, n, if_true]; omega
  refine ⟨s2, ?_, ?_⟩
  · simp [s2, s1, chip, b, n, h]
  · rw [if_neg (by simp [b, n, h]), if_pos hhigh]

/-! ### Clocks, supply and trip (R18, R365) -/

theorem mem_insertNat_self (n : Nat) : ∀ l : List Nat, n ∈ insertNat n l
  | [] => by simp [insertNat]
  | m :: ms => by
    unfold insertNat
    split
    · simp
    · split
      · simp [*]
      · simp [mem_insertNat_self n ms]

theorem downAll_chip_lasers (reason : Nat) (s : State) :
    (downAll reason s).chip = s.chip ∧ (downAll reason s).lasers = s.lasers := by
  unfold downAll
  refine each_induct (P := fun t => t.chip = s.chip ∧ t.lasers = s.lasers) _ ⟨rfl, rfl⟩ (fun p _ t ht => ?_)
  unfold downGroups
  split <;> simp [ht]

/-- The clocks stand after a stop, FT_PPS_OUT is low, and no laser module is enabled (R365, R432). -/
abbrev Stopped (t : State) : Prop :=
  t.chip.running = false ∧ t.chip.stopped = true ∧ t.chip.ppsOut = false ∧ t.lasers.all (fun x => !x.2.enabled) = true

theorem stopDevice_chip (reason : Nat) (s : State) :
    (stopDevice reason s).chip = { s.chip with running := false, stopped := true, ppsOut := false } := by
  simp [stopDevice, downAll_chip_lasers]

theorem stopDevice_lasers (reason : Nat) (s : State) :
    (stopDevice reason s).lasers = s.lasers.map (fun x => (x.1, { x.2 with enabled := false })) := by
  simp [stopDevice, downAll_chip_lasers]

/-- A state with the pins and lasers of a stopped device is stopped. -/
theorem stopped_of_stopDevice {reason : Nat} {s t : State} (hc : t.chip = (stopDevice reason s).chip)
    (hl : t.lasers = (stopDevice reason s).lasers) : Stopped t := by
  simp [Stopped, hc, hl, stopDevice_chip, stopDevice_lasers]

/-- The pins of a device that has stopped with no reset pin low and no trip (R432). -/
theorem pinsOf_stopped {t : State} (hrun : t.chip.running = false) (hstop : t.chip.stopped = true)
    (hpor : t.chip.porN = true) (hsys : t.chip.sysRstN = true) (htrip : t.chip.tripped = false) :
    pinsOf t = { pinsStanding t true with thermtrip := false } := by
  simp [pinsOf, pinsStanding, hrun, hstop, hpor, hsys, htrip]

/-- The pins of a device that has tripped while POR_N is high (R432). -/
theorem pinsOf_tripped {t : State} (hpor : t.chip.porN = true) (htrip : t.chip.tripped = true) :
    pinsOf t = { pinsStanding t true with thermtrip := true } := by
  simp [pinsOf, pinsStanding, hpor, htrip]

theorem exec_thermalTrip_running {s : State} (h : s.chip.running = true) :
    exec .thermalTrip s = run { chip := true, lasers := true } s thermalTripAt := if_pos h

theorem exec_thermalTrip_standing {s : State} (h : s.chip.running = false) :
    exec .thermalTrip s = runPin { chip := true } s tripStanding := if_neg (by simp [h])

/-! ### The CXL link (R24, R402) -/

/-- A quiet device with no host-tier access in flight is quiet when its CXL link has gone down. -/
theorem quiet_bound_cxlDown {r : Reach} {s u : State} (hq : quiet s = true) (hh : u.home.host = []) (htrn : u.trn = s.trn)
    (hmov : u.mov = s.mov) (hcoll : u.coll = s.coll) (hatt : u.att = s.att) (hsw : u.sw = s.sw) :
    quiet (r.bound s (cxlDown u)) = true := by
  obtain ⟨cs, hcs⟩ := cxlDown_eq hh
  rw [hcs]
  exact quiet_bound hq htrn hmov hcoll hatt rfl (by simp [dropFrames, hsw, quiet_parked hq])

/-! ### Rows of bridges and clocks -/

theorem bridgeFlitReplay_counts {s : State} {d : Die} {failed : Bool} (h : s.chip.running = true)
    (hup : (tget {} s.chip.bridges (dieNum d)).down = false) (hrun : (tget {} s.chip.bridges (dieNum d)).failRun < 15) :
    ∃ t, exec (.bridgeFlitReplay d failed) s = .next t ∧
      (tget {} t.chip.bridges (dieNum d)).failRun =
        (if failed then (tget {} s.chip.bridges (dieNum d)).failRun + 1 else 0) ∧
      (tget {} t.chip.bridges (dieNum d)).replays = (tget {} s.chip.bridges (dieNum d)).replays + 1 := by
  obtain ⟨t, ht, hc, -⟩ := run_chip_ports (f := bridgeReplay d failed)
    (r := { chip := true, ports := true, fab := true, data := true }) h rfl rfl
  exact ⟨t, ht, hc ▸ bridgeReplay_counted hup hrun⟩

/-- A row that does to pins and ports what BRIDGE_DOWN does takes the bridge and its die's ports out of use. -/
theorem run_bridgeDownAt {s u : State} {d : Die} {f : State → State} (h : s.chip.running = true)
    (hup : (tget {} u.chip.bridges (dieNum d)).down = false) (hf : f s = bridgeDownAt d u) :
    ∃ t, run { chip := true, ports := true, fab := true, data := true } s f = .next t ∧
      (tget {} t.chip.bridges (dieNum d)).down = true ∧ ∀ p ∈ List.range 88, dieOf p = dieNum d → PortIdle t p := by
  obtain ⟨t, ht, hc, hp⟩ := run_chip_ports (f := f)
    (r := { chip := true, ports := true, fab := true, data := true }) h rfl rfl
  obtain ⟨hdown, hidle⟩ := bridgeDownAt_spec hup
  simp only [PortIdle, portSt, hf] at hc hp hidle ⊢
  exact ⟨t, ht, hc ▸ hdown, hp ▸ hidle⟩

theorem refclkLost_sd {s : State} (i : Fin 4) (h : s.chip.running = true) :
    ∃ t, exec (.refclkLost (.sd i)) s = .next t ∧ t.chip.sdLost.contains i.val = true ∧
      ∀ p ∈ List.range 88, sdOf (dieOf p) = i.val → PortIdle t p := by
  obtain ⟨t, ht, hc, hp⟩ := run_chip_ports (f := refclkLostAt (.sd i))
    (r := { chip := true, ports := true, lasers := true, fab := true, data := true }) h rfl rfl
  refine ⟨t, ht, ?_, fun p hp' hi => ?_⟩
  · simp [hc, refclkLostAt, portsFail_chip, mem_insertNat_self]
  · simp only [PortIdle, portSt, hp]
    exact portsFail_filter_idle (fun p => sdOf (dieOf p) == i.val) _ p hp' (by simpa using hi)

/-- The system clock is lost: the device stops. -/
theorem refclkLost_sys {s : State} (h : s.chip.running = true) :
    ∃ t, exec (.refclkLost .sys) s = .next t ∧ Stopped t := by
  obtain ⟨t, ht, hc, hl⟩ := run_chip_lasers (f := stopDevice 3)
    (r := { chip := true, ports := true, lasers := true, fab := true, data := true }) h rfl rfl
  exact ⟨t, ht, stopped_of_stopDevice hc hl⟩

theorem refclkLost_cxl {s : State} (h : AtRest s) (hh : s.home.host = []) :
    ∃ t, exec (.refclkLost .cxl) s = .next t ∧ t.chip.cxlClkLost = true ∧ t.hif.cxl.up = false := by
  obtain ⟨hrun, hq⟩ := h
  obtain ⟨t, ht, hc, hx⟩ := run_quiet_cxl (f := refclkLostAt .cxl)
    (r := { chip := true, ports := true, lasers := true, fab := true, data := true }) hrun (.inl rfl)
    (quiet_bound_cxlDown hq hh rfl rfl rfl rfl rfl)
  obtain ⟨cs, hcs⟩ := cxlDown_eq (s := { s with chip := { s.chip with cxlClkLost := true } }) hh
  exact ⟨t, ht, by simp [hc, refclkLostAt, hcs, dropFrames], by simp [hx, refclkLostAt, hcs]⟩

/-! ### Rows of supply and trip -/

theorem supplyLoss_stops {s : State} (h : s.chip.running = true) :
    ∃ t, exec .supplyLoss s = .next t ∧ t.chip = (stopDevice 2 s).chip ∧ Stopped t := by
  obtain ⟨t, ht, hc, hl⟩ := run_chip_lasers (f := stopDevice 2) (r := { chip := true, lasers := true }) h rfl rfl
  exact ⟨t, ht, hc, stopped_of_stopDevice hc hl⟩

theorem thermalTrip_stops {s : State} (h : s.chip.running = true) :
    ∃ t, exec .thermalTrip s = .next t ∧ t.chip = { (stopDevice 2 s).chip with tripped := true } ∧ Stopped t := by
  obtain ⟨t, ht, hc, hl⟩ := run_chip_lasers (f := thermalTripAt) (r := { chip := true, lasers := true }) h rfl rfl
  refine ⟨t, (exec_thermalTrip_running h).trans ht, hc, ?_⟩
  simp [Stopped, hc, hl, thermalTripAt, stopDevice_chip, stopDevice_lasers]

theorem thermalTrip_standing {s : State} (h : s.chip.running = false) :
    ∃ t, exec .thermalTrip s = .next t ∧ t.chip = { s.chip with tripped := true } :=
  ⟨_, exec_thermalTrip_standing h, by simp [Reach.bound, tripStanding]⟩

/-- Settles O24: a bridge that fails and a link that goes down keep pins and ports but for what R10 and R24 name
(`bridgeDownAt_spec`, `cxlDown_chip_ports`), and what follows of a row leaves both as the row did (`run_chip_ports`). -/
theorem bridgesAndClocks : Obligations.BridgesAndClocks := by
  unfold Obligations.BridgesAndClocks
  refine ⟨?replay, ?down, ?sd, ?sys, ?supply, ?supplyPins, ?trip, ?tripPins, ?standing, ?sixteenth, ?cxl⟩
  case replay => exact fun _ _ _ h hup hrun => bridgeFlitReplay_counts h hup hrun
  case down => exact fun _ _ h hup => run_bridgeDownAt h hup rfl
  case sd => exact fun _ i h => refclkLost_sd i h
  case sys => exact fun _ h => refclkLost_sys h
  case supply =>
    intro s h
    obtain ⟨t, ht, -, hs⟩ := supplyLoss_stops h
    exact ⟨t, ht, hs⟩
  case supplyPins =>
    intro s h hpor hsys htrip
    obtain ⟨t, ht, hc, -⟩ := supplyLoss_stops h
    rw [stopDevice_chip] at hc
    exact ⟨t, ht, pinsOf_stopped (by simp [hc]) (by simp [hc]) (by simp [hc, hpor]) (by simp [hc, hsys])
      (by simp [hc, htrip])⟩
  case trip =>
    intro s h
    obtain ⟨t, ht, hc, hrun, hstop, hpps, hlas⟩ := thermalTrip_stops h
    exact ⟨t, ht, hrun, hstop, hpps, hlas, by simp [hc]⟩
  case tripPins =>
    intro s h hpor
    obtain ⟨t, ht, hc, -⟩ := thermalTrip_stops h
    exact ⟨t, ht, pinsOf_tripped (by simp [hc, stopDevice_chip, hpor]) (by simp [hc])⟩
  case standing =>
    intro s h hpor
    obtain ⟨t, ht, hc⟩ := thermalTrip_standing h
    have hpins : pinsOf t = pinsStanding t false := by simp [pinsOf, hc, hpor]
    exact ⟨t, ht, by simp [hc], by simp [hc, h], by simp [hpins, pinsStanding, hc], by simp [hpins, pinsStanding]⟩
  case sixteenth =>
    intro s d h hup hrun
    obtain ⟨u, hu, hf⟩ := bridgeReplay_sixteenth hup hrun
    exact run_bridgeDownAt h hu hf
  case cxl => exact fun _ h hh => refclkLost_cxl h hh

end Sys2Proof.Machine
end

section
/-!
PROOFS. The rows of the CXL link, the memory-device mailbox and DOE (R24, R400, R402).
-/

namespace Sys2Proof.Machine
open Sys2Proof

/-! ### Rows of the CXL link -/

theorem cxlLinkDown_row {s : State} (h : AtRest s) (hh : s.home.host = []) :
    ∃ t, exec .cxlLinkDown s = .next t ∧ t.hif.cxl.up = false ∧ t.hif.cxl.bme = false := by
  obtain ⟨hrun, hq⟩ := h
  obtain ⟨cs, hcs⟩ := cxlDown_eq hh
  obtain ⟨t, ht, -, hx⟩ := run_quiet_cxl (f := cxlDown) (r := { data := true }) hrun
    (.inr (cxlDown_chip_ports s).1) (quiet_bound_cxlDown hq hh rfl rfl rfl rfl rfl)
  exact ⟨t, ht, by simp [hx, hcs], by simp [hx, hcs]⟩

/-- The link trains where nothing stands against it: what of the state it touches (R402). -/
theorem cxlUpAt_trains {s : State} {width : BitVec 4} {speed : BitVec 2} {bme : Bool} (hst : s.fab.state ≠ .reset)
    (hperst : s.chip.perstN = true) (hbr : (tget {} s.chip.bridges 0).down = false)
    (hw : width = 1 ∨ width = 2 ∨ width = 4 ∨ width = 8) (hsp : speed ≠ 3) :
    ∃ u, u = (if s.hif.cxl.trained then bump cntCxlRetrainCnt s else s) ∧
      cxlUpAt width speed bme s = { u with
        chip := { u.chip with cxlClkLost := false }
        hif := { u.hif with
          cxl := { u.hif.cxl with up := true, width := width, speed := speed, bme := bme, trained := true } } } := by
  have hok : (s.fab.state != .reset && s.chip.perstN && !(tget {} s.chip.bridges 0).down &&
      (width == 1 || width == 2 || width == 4 || width == 8) && speed != 3) = true := by
    simpa [hst, hperst, hbr, or_assoc] using ⟨hw, hsp⟩
  refine ⟨_, rfl, ?_⟩
  unfold cxlUpAt
  simp only [hok, Bool.not_true, Bool.false_eq_true, if_false]

theorem cxlLinkUp_row {s : State} {width : BitVec 4} {speed : BitVec 2} {bme : Bool} (h : AtRest s)
    (hst : s.fab.state ≠ .reset) (hperst : s.chip.perstN = true) (hbr : (tget {} s.chip.bridges 0).down = false)
    (hw : width = 1 ∨ width = 2 ∨ width = 4 ∨ width = 8) (hsp : speed ≠ 3) :
    ∃ t, exec (.cxlLinkUp width speed bme) s = .next t ∧
      t.chip.cxlClkLost = false ∧ t.hif.cxl.up = true ∧ t.hif.cxl.width = width ∧ t.hif.cxl.speed = speed ∧
      t.hif.cxl.bme = bme := by
  obtain ⟨hrun, hq⟩ := h
  obtain ⟨u, hu, hup⟩ := cxlUpAt_trains (bme := bme) hst hperst hbr hw hsp
  have hkept : u.trn = s.trn ∧ u.mov = s.mov ∧ u.coll = s.coll ∧ u.att = s.att ∧ u.hif = s.hif ∧ u.sw = s.sw := by
    rw [hu]; split <;> simp
  obtain ⟨htrn, hmov, hcoll, hatt, hhif, hsw⟩ := hkept
  have hquiet : quiet (Reach.bound { chip := true } s (cxlUpAt width speed bme s)) = true := by
    rw [hup]
    exact quiet_bound hq htrn hmov hcoll hatt (by simp [hhif, quiet_arrived hq]) (by simp [hsw, quiet_parked hq])
  obtain ⟨t, ht, hc, hx⟩ := run_quiet_cxl (f := cxlUpAt width speed bme) (r := { chip := true }) hrun (.inl rfl) hquiet
  exact ⟨t, ht, by simp [hc, hup], by simp [hx, hup], by simp [hx, hup], by simp [hx, hup], by simp [hx, hup]⟩

/-! ### The memory-device mailbox and DOE (R400) -/

theorem mdAnswer_up {s : State} (h : s.hif.cxl.up = true) (code : Nat) (payload : Bytes) :
    mdAnswer code payload s = emit (.mdMailbox code payload) s := by simp [mdAnswer, h]

/-- Six commands of four bytes each. -/
theorem mdEffects_length : mdEffects.length = 24 := by
  simp [mdEffects, mdCommands, leBytes]

theorem mdGetLog_inside {s : State} (h : s.hif.cxl.up = true) {off len : Nat} (hin : off + len ≤ 24) :
    mdGetLog off len s = emit (.mdMailbox mdOk (slice mdEffects off len)) s := by
  rw [mdGetLog, if_pos (by rwa [mdEffects_length]), mdAnswer_up h]

theorem mdEvents_inside {s : State} (h : s.hif.cxl.up = true) {log : Nat} (hlog : log < 4) :
    mdEvents log s = emit (.mdMailbox mdOk (List.replicate 32 0)) s := by
  rw [mdEvents, if_pos hlog, mdAnswer_up h]

theorem mdClear_inside {s : State} (h : s.hif.cxl.up = true) {log : Nat} (hlog : log < 4) :
    mdClear log s = emit (.mdMailbox mdOk []) s := by
  rw [mdClear, if_pos hlog, mdAnswer_up h]

/-- A DOE request that is answered: the answer goes out, and IDE keys start the named stream (R319). -/
theorem doeAt_answered {s : State} (k : DoeKind) (hup : s.hif.cxl.up = true) (hid : s.ten.idReady = true) :
    (doeAt k s).out = s.out ++ [.doe k] ∧ (k = .ideKm true → (doeAt k s).hif.cxl.ideIo = true) ∧
      (k = .ideKm false → (doeAt k s).hif.cxl.ideMem = true) := by
  cases k with
  | discovery => simp [doeAt, hup]
  | spdm => simp [doeAt, hup, hid]
  | ideKm io => cases io <;> simp [doeAt, hup, hid, modHif]
  | cdat => simp [doeAt, hup]

theorem doeRequest_row {s : State} (k : DoeKind) (h : s.chip.running = true) (hup : s.hif.cxl.up = true)
    (hid : s.ten.idReady = true) :
    ∃ t, exec (.doeRequest k) s = .next t ∧ Puts s t (.doe k) ∧ (k = .ideKm true → t.hif.cxl.ideIo = true) ∧
      (k = .ideKm false → t.hif.cxl.ideMem = true) := by
  obtain ⟨hout, hio, hmem⟩ := doeAt_answered k hup hid
  obtain ⟨t, ht, ⟨-, -, -, hio', hmem'⟩, hpre⟩ := run_links (r := {}) (f := doeAt k) h
  rw [hout] at hpre
  exact ⟨t, ht, puts_of_appended hpre, fun hk => by simp [hio', hio hk], fun hk => by simp [hmem', hmem hk]⟩

/-- Settles O33: at rest nothing follows of a change of the CXL link, and whatever follows of an answer leaves the link's IDE
streams as they are (`run_links`). -/
theorem cxlRows : Obligations.CxlRows := by
  unfold Obligations.CxlRows
  refine ⟨?down, ?up, ?identify, ?logs, ?getLog, ?partition, ?events, ?clear, ?doe⟩
  case down => exact fun _ h hh => cxlLinkDown_row h hh
  case up => exact fun _ _ _ _ h hst hperst hbr hw hsp => cxlLinkUp_row h hst hperst hbr hw hsp
  case identify => exact fun _ h hup => run_puts h (mdAnswer_up hup _ _)
  case logs => exact fun _ h hup => run_puts h (mdAnswer_up hup _ _)
  case getLog => exact fun _ _ _ h hup hin => run_puts h (mdGetLog_inside hup hin)
  case partition => exact fun _ h hup => run_puts h (mdAnswer_up hup _ _)
  case events => exact fun _ _ h hup hlog => run_puts h (mdEvents_inside hup hlog)
  case clear => exact fun _ _ h hup hlog => run_puts h (mdClear_inside hup hlog)
  case doe => exact fun _ k h hup hid => doeRequest_row k h hup hid

end Sys2Proof.Machine
end

section
/-!
PROOFS. Attach messages on a link in RECOVER (R292, R297): the port starts none, the session stays as it was, and what the
Oseno would send waits at the link (`emitAtt`). The statements on HELLO, on custody and on the requests taken ask for a
message at once and leave RECOVER open, so each of them fails there; in the three runs below the message asked for waits.
-/

namespace Sys2Proof.Machine
open Sys2Proof

/-! ### A port in RECOVER -/

/-- A-port 5 of a running device is in RECOVER with session `x`. It is enabled and bound to tenant 1, its cluster holds a
table of tenant 1, and nothing has been put out. -/
def recovering (x : Session) : State :=
  setPort 5 { state := .recover } (setSess 5 x
    (setWord (xltBase 0 + 0x100) 0x11 (setWord (epbBase 5 + 0x40) 0x2001 (setWord (epbBase 5) 1
      { State.reset with
        chip := { running := true, perstN := true }
        fab := { state := .ready, joined := true, catalogue := true, nodeV := true, transit := true } }))))

/-- A session that waits for the peer's HELLO. -/
def helloSess : Session := { state := .hello }

/-- A session that is UP, where the COMPLETION of MSN 7 is not acknowledged. -/
def unackedSess : Session := { state := .up, txMsn := 8, unacked := [(7, { opc := 0x20, msn := 7 })] }

/-- A session that is UP and has granted 256 REQ units. -/
def grantedSess : Session := { state := .up, reqCrd := 256 }

/-- A READ of 64 bytes of endpoint 1, in page 0. -/
def readPage : AttMsg := { opc := 1, len := 64, addr := 0x1000000000000 }

/-! ### What waits at the link -/

theorem helloRepeat_recovering : ∃ t, exec (.helloRepeat 5) (recovering helloSess) = .next t ∧ t.out = [] ∧
    (sess t 5).toLink = [helloMsg helloSess 1 .done] :=
  ⟨_, rfl, by decide +kernel⟩

theorem attachResendTimeout_recovering :
    ∃ t, exec (.attachResendTimeout 5) (recovering unackedSess) = .next t ∧ t.out = [] ∧
      (sess t 5).toLink = unackedSess.unacked.map (·.2) :=
  ⟨_, rfl, by decide +kernel⟩

/-- The READ is taken; its ACCEPT waits, and the CREDIT for its units behind it. -/
theorem read_recovering : ∃ t, exec (.read 5 readPage) (recovering grantedSess) = .next t ∧ t.out = [] ∧
    (sess t 5).toLink = [{ opc := 0x3D, msn := readPage.msn }, { opc := 0x3F, addr := 0x1000000000000 }] :=
  ⟨_, rfl, by decide +kernel⟩

/-- A command after which the device has put out nothing puts out no message. -/
theorem not_puts_of_silent {c : Instr} {s t u : State} {e : Emit} (ht : exec c s = .next t) (hout : t.out = [])
    (hu : exec c s = .next u) : ¬ Puts s u e := by
  obtain rfl : t = u := by simpa [ht] using hu
  simp [Puts, hout]

/-! ### The statements -/

/-- Refutes O35: in HELLO the port may be in RECOVER, and then the repeated HELLO waits at the link (R30, R297). -/
theorem not_enableAndHello : ¬ Obligations.EnableAndHello := by
  unfold Obligations.EnableAndHello
  rintro ⟨-, -, -, -, -, -, -, hrepeat, -⟩
  obtain ⟨t, ht, hout, -⟩ := helloRepeat_recovering
  obtain ⟨u, hu, hputs⟩ := hrepeat (recovering helloSess) 5 (by decide +kernel) (by decide +kernel)
  exact not_puts_of_silent ht hout hu hputs

/-- Refutes O36: an open session's port may be in RECOVER, and then a copy that is resent waits at the link (R38, R297). -/
theorem not_attachCustody : ¬ Obligations.AttachCustody := by
  unfold Obligations.AttachCustody
  rintro ⟨-, -, -, -, -, hresend, -⟩
  obtain ⟨t, ht, hout, -⟩ := attachResendTimeout_recovering
  obtain ⟨u, hu, hputs⟩ := hresend (recovering unackedSess) 5 (by decide +kernel) (by decide +kernel) (by decide +kernel)
  exact not_puts_of_silent ht hout hu (hputs (7, { opc := 0x20, msn := 7 }) (by decide +kernel))

/-- Refutes O37: a request may be taken while its port is in RECOVER, and then its ACCEPT waits at the link (R37, R297). -/
theorem not_requestsTaken : ¬ Obligations.RequestsTaken := by
  unfold Obligations.RequestsTaken
  rintro ⟨hread, -⟩
  obtain ⟨t, ht, hout, -⟩ := read_recovering
  obtain ⟨u, hu, hputs, -⟩ := hread (recovering grantedSess) 5 readPage (pageKeyOf 1 (2 ^ 48)) (by decide +kernel)
    (by decide +kernel) (by decide +kernel) (by decide +kernel) (by decide +kernel) (by decide +kernel)
    (by decide +kernel) (by decide +kernel)
  exact not_puts_of_silent ht hout hu hputs

end Sys2Proof.Machine
end

section
/-!
PROOFS. The statements on addressing, translation and mapping changes (R57 to R78), each of which fails. Three ask for a
COMPLETION at once and leave RECOVER open, where it waits at the link (R292, R297). One has a descriptor read as it was written
though R59 gives its endpoint no such SPACE. One has an Almanac's MOVE report its end though its load is gone (R161, R165).
-/

namespace Sys2Proof.Machine
open Sys2Proof

/-- A command has one outcome. -/
theorem exec_next_unique {c : Instr} {s t u : State} (ht : exec c s = .next t) (hu : exec c s = .next u) : u = t := by
  simpa [ht] using hu.symm

/-! ### Requests that end on a port in RECOVER (R58, R62, R69) -/

/-- A command after which the device has put out nothing completes no request. -/
theorem not_completed_of_silent {c : Instr} {s t u : State} {p : APort} {tag : BitVec 13} {st : Status}
    (ht : exec c s = .next t) (hout : t.out = []) (hu : exec c s = .next u) : ¬ Completed s u p tag st := by
  rw [exec_next_unique ht hu]
  simp [Completed, hout]

/-- A session that is UP, has granted 256 REQ units and holds 2 RSP units. -/
def creditedSess : Session := { state := .up, reqCrd := 256, rspCrd := 2 }

/-- A READ at DEST 0x4800, which no accelerator has (R57). -/
def readBadDest : AttMsg := { opc := 1, len := 64, addr := 0x4800000000000000 }

/-- A READ of 64 bytes of fabric memory on plane 1. -/
def readPlaneOne : AttMsg := { opc := 1, len := 64, addr := 0x9000000000000000 }

/-- What R42 answers a READ of tag 0 and 64 bytes with when it ends without data, as message 0 of the session. -/
def readEnded (st : Status) : AttMsg := { opc := 0x20, len := 64, status := BitVec.ofNat 8 st.code }

/-- A READ that ends at its checks: its ACCEPT, the CREDIT for its units and its COMPLETION wait at the link. -/
theorem readBadDest_recovering : ∃ t, exec (.read 5 readBadDest) (recovering creditedSess) = .next t ∧ t.out = [] ∧
    (sess t 5).toLink = [{ opc := 0x3D }, { opc := 0x3F, addr := 0x1000000000000 }, readEnded .malformed] :=
  ⟨_, rfl, by decide +kernel⟩

theorem readPlaneOne_recovering : ∃ t, exec (.read 5 readPlaneOne) (recovering creditedSess) = .next t ∧ t.out = [] ∧
    (sess t 5).toLink = [{ opc := 0x3D }, { opc := 0x3F, addr := 0x1000000000000 }, readEnded .malformed] :=
  ⟨_, rfl, by decide +kernel⟩

/-- Page 0 of endpoint 1, for tenant 1. -/
def pageZero : PageKey := pageKeyOf 1 (2 ^ 48)

/-- `readPage` in custody on A-port 5, waiting for the bucket of its page. -/
def missingRead : OutReq := { id := 0, msg := readPage, phase := .translate, pages := [{ key := pageZero }] }

/-- The bucket read of `missingRead` is under way while A-port 5 is in RECOVER. -/
def missing : State :=
  setMisses 0 [{ key := pageZero, port := 5 }] (recovering { creditedSess with out := [missingRead] })

/-- The bucket reads uncorrectable: the READ ends with TIER_FAILED, and its COMPLETION waits at the link. -/
theorem bucketReadReturn_missing : ∃ t, exec (.bucketReadReturn 0 .uncorrectable) missing = .next t ∧ t.out = [] ∧
    (sess t 5).toLink = [readEnded .tierFailed] :=
  ⟨_, rfl, by decide +kernel⟩

/-- Refutes O14: a READ with a bad address may be taken while its port is in RECOVER, and then its COMPLETION with MALFORMED
waits at the link (R58, R297). -/
theorem not_badAddressMalformed : ¬ Obligations.BadAddressMalformed := by
  unfold Obligations.BadAddressMalformed
  rintro ⟨hrequest, -⟩
  obtain ⟨t, ht, hout, -⟩ := readBadDest_recovering
  obtain ⟨u, hu, hdone, -⟩ := hrequest (recovering creditedSess) 5 readBadDest ⟨0, by decide⟩ (by decide +kernel)
    (by decide +kernel) (by decide +kernel) (by decide +kernel) (by decide +kernel) (by decide +kernel)
    (by decide +kernel) (by decide +kernel) (by decide +kernel) (by decide +kernel)
  exact not_completed_of_silent ht hout hu hdone

/-- Refutes O15: a READ of plane 1 may be taken on plane 0 while its port is in RECOVER, and then its COMPLETION with MALFORMED
waits at the link (R62, R297). -/
theorem not_wrongPlaneMalformed : ¬ Obligations.WrongPlaneMalformed := by
  unfold Obligations.WrongPlaneMalformed
  rintro ⟨hrequest, -⟩
  obtain ⟨t, ht, hout, -⟩ := readPlaneOne_recovering
  obtain ⟨u, hu, hdone, -⟩ := hrequest (recovering creditedSess) 5 readPlaneOne ⟨0, by decide⟩ 1 (by decide +kernel)
    (by decide +kernel) (by decide +kernel) (by decide +kernel) (by decide +kernel) (by decide +kernel)
    (by decide +kernel) (by decide +kernel) (by decide +kernel) (by decide +kernel) (by decide +kernel)
    (by decide +kernel) (by decide +kernel)
  exact not_completed_of_silent ht hout hu hdone

/-- Refutes O39: a failed bucket read may return while the request's port is in RECOVER, and then its COMPLETION waits at the
link (R69, R297). -/
theorem not_translationReads : ¬ Obligations.TranslationReads := by
  unfold Obligations.TranslationReads
  rintro ⟨-, -, -, -, hfailed, -⟩
  obtain ⟨t, ht, hout, -⟩ := bucketReadReturn_missing
  obtain ⟨u, hu, -, hdone, -⟩ := hfailed missing 0 .uncorrectable { key := pageZero, port := 5 } [] 5 missingRead .tierFailed
    (by decide +kernel) (by decide +kernel) (by decide +kernel) (by decide +kernel) (by decide +kernel)
    (by decide +kernel) (by decide +kernel) (by decide +kernel) (by decide +kernel) (by decide +kernel)
    (by decide +kernel) (by decide +kernel) (by decide +kernel) (by decide +kernel)
  exact not_completed_of_silent ht hout hu hdone

/-! ### A descriptor whose SPACE does not fit its endpoint (R59, R73) -/

/-- Endpoint 0x4800, descriptor 0: V and R are set, SPACE is 0, LENGTH is 4,096. -/
def spaceZeroInput : Bytes := [0x48, 0, 0, 0] ++ leBytes 8 3 ++ leBytes 8 0 ++ leBytes 8 4096 ++ leBytes 8 0

/-- A running device in shared tenancy whose mailbox channel 0 waits with an RGN_WRITE of `spaceZeroInput`. -/
def spaceZeroWrite : State :=
  setChan 0 { busy := true, opcode := 0x21, inLen := 36, inBuf := memWrite [] 0 spaceZeroInput }
    { State.reset with
      chip := { running := true, perstN := true }
      fab := { state := .ready, joined := true, catalogue := true, nodeV := true, transit := true }
      fw := { agreed := some ownFeatures }
      ten := { shared := true } }

/-- What is written has V = 1 and reads with V = 0, since no fabric-memory endpoint has SPACE 0. -/
theorem rgnWrite_spaceZero : (parseRegion (slice spaceZeroInput 4 32)).v = true ∧
    ∃ t, exec (.rgnWrite 0 []) spaceZeroWrite = .next t ∧ (readRegion t 0x4800 0).map (·.v) = some false :=
  ⟨by decide +kernel, _, rfl, by decide +kernel⟩

/-- Refutes O40: RGN_WRITE takes a descriptor whose SPACE its endpoint does not have, and that descriptor acts as V = 0
whatever its V bit is (R59, R73), so it does not read as it was written. -/
theorem not_mappingCommands : ¬ Obligations.MappingCommands := by
  unfold Obligations.MappingCommands
  rintro ⟨-, -, hwrite, -⟩
  obtain ⟨hv, t, ht, hread⟩ := rgnWrite_spaceZero
  obtain ⟨u, hu, hsame, -⟩ := hwrite spaceZeroWrite 0 [] spaceZeroInput (by decide +kernel) (by decide +kernel)
    (by decide +kernel) (by decide +kernel) (by decide +kernel)
  have hep : memEp spaceZeroWrite = 0x4800 := by decide +kernel
  have hkey : beField spaceZeroInput 2 2 = 0 := by decide +kernel
  rw [exec_next_unique ht hu, hep, hkey] at hsame
  simp [hsame, hv] at hread

/-! ### A MOVE of a load that is gone (R161, R165) -/

/-- A RELOCATE of the 2 MiB at VOFF 0 of plane 0 to node 8. -/
def relocateDesc : Bytes :=
  [0x20] ++ List.replicate 7 0 ++ beBytes 8 (2 ^ 63) ++ beBytes 8 (fpaWord 0x4808 (2 ^ 44)) ++ beBytes 8 (2 ^ 21) ++
    List.replicate 32 0

/-- A RELOCATE of a load that a later load of its job has replaced, so that its JOB_ID is 0: its page at this device is
marked, and is to go to node 8. -/
def orphanMove : Move :=
  { id := 1, origin := .almanac 0 0 0, tenant := 1, desc := relocateDesc, engine := some 0, phase := .draining
    n := 2 ^ 21, src := fpaWord 0x4800 (2 ^ 44), dst := fpaWord 0x4808 (2 ^ 44) }

/-- Engine 0 waits for node 8 to confirm the marks of `orphanMove`. -/
def orphanDraining : State :=
  { State.reset with
    chip := { running := true, perstN := true }
    mov := { moves := [orphanMove], nextMove := 2, holding := [oldMark orphanMove.src orphanMove.dst orphanMove.n 0x4800] }
    xlat := { changes := [{ id := 4, nodes := [8], kind := 3 }] } }

/-- Node 8 refuses the page: the MOVE ends, and no Almanac hears of it. -/
theorem mappingConfirm_orphan : ∃ t, exec (.mappingConfirm (.engine 0) ⟨8, .accessDenied⟩) orphanDraining = .next t ∧
    t.mov.moves = [] ∧ t.mov.doneDesc = [] :=
  ⟨_, rfl, by decide +kernel⟩

/-- Refutes O41: a MOVE of a load that is gone has JOB_ID 0, and when a home refuses its page it ends without a report to an
Almanac (R161, R165). -/
theorem not_mappingConfirmations : ¬ Obligations.MappingConfirmations := by
  unfold Obligations.MappingConfirmations
  rintro ⟨-, -, -, -, -, -, -, hrefused, -⟩
  obtain ⟨t, ht, -, hnone⟩ := mappingConfirm_orphan
  obtain ⟨u, hu, -, -, hreport, -⟩ := hrefused orphanDraining 0 orphanMove 0 0 0 8 .accessDenied
    { id := 4, nodes := [8], kind := 3 } (by decide +kernel) (by decide +kernel) (by decide +kernel)
    (by decide +kernel) (by decide +kernel) (by decide +kernel) (by decide +kernel) (by decide +kernel)
    (by decide +kernel) (by decide +kernel) (by decide +kernel)
  simp [exec_next_unique ht hu, hnone] at hreport

end Sys2Proof.Machine
end

section
/-!
PROOFS. The home points at work: the turn of a line (R111), the issue of a combining entry (R113), the end of an access of MEM
(R85) and the read of a locked host access (R109, R404). What each of them does beside the home points is what it puts out
(`HomeGives`), so a device at rest stays at rest (`run_home`), and where no engine reads a page every byte of the tiers is as
the row left it (`run_bytes_reached`).
-/

namespace Sys2Proof.Machine
open Sys2Proof

/-- Of the data path nothing changes from `s` to `t` that could keep a device from rest: all but the home points and the
array. -/
abbrev RestKept (s t : State) : Prop :=
  t.trn = s.trn ∧ t.mov = s.mov ∧ t.coll = s.coll ∧ t.att = s.att ∧ t.sw = s.sw ∧ t.hif.cxl = s.hif.cxl

/-- From `s` to `t` the home points put out `es`, and keep every byte of the Stacks and the Annex. -/
abbrev HomeGives (es : List Emit) (s t : State) : Prop :=
  t.out = s.out ++ es ∧ RestKept s t ∧ t.home.stk = s.home.stk ∧ t.home.anx = s.home.anx

theorem RestKept.trans {s t u : State} (h : RestKept s t) (h' : RestKept t u) : RestKept s u := by
  obtain ⟨htrn, hmov, hcoll, hatt, hsw, hcxl⟩ := h
  obtain ⟨htrn', hmov', hcoll', hatt', hsw', hcxl'⟩ := h'
  exact ⟨htrn'.trans htrn, hmov'.trans hmov, hcoll'.trans hcoll, hatt'.trans hatt, hsw'.trans hsw, hcxl'.trans hcxl⟩

theorem HomeGives.refl (s : State) : HomeGives [] s s := by simp [HomeGives, RestKept]

theorem HomeGives.trans {es fs : List Emit} {s t u : State} (h : HomeGives es s t) (h' : HomeGives fs t u) :
    HomeGives (es ++ fs) s u := by
  obtain ⟨hout, hkept, hstk, hanx⟩ := h
  obtain ⟨hout', hkept', hstk', hanx'⟩ := h'
  exact ⟨by rw [hout', hout, List.append_assoc], hkept.trans hkept', hstk'.trans hstk, hanx'.trans hanx⟩

theorem HomeGives.rest {es : List Emit} {s t : State} (h : HomeGives es s t) : RestKept s t := h.2.1

/-- What every step of a fold keeps, the fold keeps, whatever it carries beside the state. -/
theorem foldl_fst_gives {α β : Type} {f : State × β → α → State × β} (h : ∀ a x, HomeGives [] a.1 (f a x).1) :
    ∀ (xs : List α) (a : State × β), HomeGives [] a.1 (xs.foldl f a).1
  | [], a => .refl a.1
  | x :: xs, a => (h a x).trans (foldl_fst_gives h xs (f a x))

/-! ### Rows of the home points -/

/-- A row of the home points runs on a device at rest: nothing follows of itself. -/
theorem run_home {r : Reach} {s : State} {f : State → State} (h : AtRest s) (hk : RestKept s (f s)) :
    ∃ t, run r s f = .next t ∧ t.home = (r.bound s (f s)).home ∧ (f s).out <+: t.out := by
  obtain ⟨hrun, hq⟩ := h
  obtain ⟨htrn, hmov, hcoll, hatt, hsw, hcxl⟩ := hk
  have hquiet : quiet (r.bound s (f s)) = true :=
    quiet_bound hq htrn hmov hcoll hatt (by rw [hcxl, quiet_arrived hq]) (by rw [hsw, quiet_parked hq])
  refine ⟨_, run_quiet hrun hquiet, by simp, ?_⟩
  simpa using out_noteReady s (advanceReady (r.bound s (f s)))

/-- A row that reaches the memories and leaves the moves as they were: what follows of itself writes no byte where no engine
reads a page. -/
theorem run_bytes_reached {r : Reach} {s t : State} {f : State → State} (hrun : s.chip.running = true) (hd : r.data = true)
    (hm : r.mem = true) (hmov : (f s).mov = s.mov) (h0 : pageReads s = false) (h : run r s f = .next t) :
    SameBytes (f s) t := by
  have hreads : pageReads (r.bound s (f s)) = false := by
    rw [← h0, pageReads, pageReads, bound_mov hmov]
  have hbound : SameBytes (f s) (r.bound s (f s)) := by simp [SameBytes, tierRead, Reach.bound, hd, hm]
  rw [run_running hrun] at h
  cases h
  exact fun space off n => (settle_bytes hreads s s space off n).trans (hbound space off n)

/-- What a row's own effect puts out, the row puts out. -/
theorem puts_of_mem {s t : State} {es : List Emit} {e : Emit} (h : s.out ++ es <+: t.out) (he : e ∈ es) : Puts s t e := by
  obtain ⟨rest, h⟩ := h
  simp [Puts, ← h, he]

/-! ### A list of one line, access or entry -/

theorem modFirst_one {α : Type} {f : α → Bool} {x : α} (h : f x = true) (g : α → α) : modFirst f g [x] = [g x] := by
  simp [modFirst, h]

theorem lineAt_one {s : State} {l : HotLine} {h line : Nat} (hhot : s.home.hot = [l]) (hh : l.home = h)
    (hl : l.line = line) : lineAt s h line = some l := by
  simp [lineAt, hhot, hh, hl]

/-- `l` is the one hot line. -/
def withLine (l : HotLine) (s : State) : State := { s with home := { s.home with hot := [l] } }

@[simp] theorem withLine_hot (l : HotLine) (s : State) : (withLine l s).home.hot = [l] := rfl
@[simp] theorem withLine_queue (l : HotLine) (s : State) : (withLine l s).home.queue = s.home.queue := rfl
@[simp] theorem withLine_withLine (l k : HotLine) (s : State) : withLine l (withLine k s) = withLine l s := rfl

theorem withLine_gives (l : HotLine) (s : State) : HomeGives [] s (withLine l s) := by simp [HomeGives, RestKept, withLine]

theorem modLine_one {s : State} {l : HotLine} {h line : Nat} (f : HotLine → HotLine) (hhot : s.home.hot = [l])
    (hh : l.home = h) (hl : l.line = line) : modLine h line f s = withLine (f l) s := by
  simp [modLine, withLine, hhot, modFirst_one, hh, hl]

theorem accOf_congr {s t : State} (h : t.home.accesses = s.home.accesses) (id : Nat) : accOf t id = accOf s id := by
  simp [accOf, h]

theorem accOf_modLine (h line : Nat) (f : HotLine → HotLine) (s : State) (id : Nat) :
    accOf (modLine h line f s) id = accOf s id := rfl

theorem feedQueue_nil {s : State} {h : Nat} (hq : s.home.queue = []) : feedQueue h s = s := by
  simp [feedQueue, hq]

/-- A part of an access that serves no combining entry stands for none. -/
theorem entryOfPart_none {s : State} {p : Part} {a : Access} (ha : accOf s p.access = some a) (hc : a.combine = none) :
    entryOfPart s p = none := by
  simp [entryOfPart, ha, hc]

/-! ### Issue at MEM -/

/-- At MEM a part is issued by its line and, where it stands for one, its combining entry (R111, R113). -/
theorem issueRun_mem (a : Access) (p : Part) (s : State) :
    issueRun hpMem a [p] s = closeEntry p (markBusy hpMem p s) := by
  have not_host : ¬ hpMem = hpHost := by decide
  simp only [issueRun, each_one, Nat.lt_irrefl, not_host, if_false]

theorem closeEntry_gives (p : Part) (s : State) : HomeGives [] s (closeEntry p s) := by
  unfold closeEntry; (repeat' split) <;> simp [HomeGives, RestKept]

theorem markBusy_gives (h : Nat) (p : Part) (s : State) : HomeGives [] s (markBusy h p s) := by
  unfold markBusy; dsimp only; split <;> simp [HomeGives, RestKept]

theorem issueRun_mem_gives (a : Access) (p : Part) (s : State) : HomeGives [] s (issueRun hpMem a [p] s) := by
  rw [issueRun_mem]
  exact (markBusy_gives hpMem p s).trans (closeEntry_gives p _)

theorem slotPart_gives (h : Nat) (tenant : BitVec 12) (more : Nat) (p : Part) (s : State) :
    HomeGives [] s (waitPart.slotPart h tenant more p s) := by
  unfold waitPart.slotPart; dsimp only; (repeat' split) <;> simp [HomeGives, RestKept]

theorem feedQueue_mem_gives (s : State) : HomeGives [] s (feedQueue hpMem s) := by
  refine foldl_fst_gives (fun acc x => ?_) _ (s, [])
  have out_gives : HomeGives [] acc.1 { acc.1 with home := { acc.1.home with queue := acc.1.home.queue.erase x } } := by
    simp [HomeGives, RestKept]
  dsimp only
  split
  · exact .refl _
  · split
    · exact .refl _
    · split
      · exact out_gives.trans (issueRun_mem_gives ‹_› _ _)
      · split
        · exact out_gives.trans (slotPart_gives _ _ _ _ _)
        · exact .refl _

/-! ### The turn of a line (R111) -/

/-- The one part that waits on a line has the turn. -/
theorem eligible_one {s : State} {l : HotLine} {p : Part} {a : Access} (hlocked : l.locked = false) (hwait : l.wait = [p])
    (ha : accOf s p.access = some a) (hc : a.combine = none) (hord : orderHeld s a = false) : eligible s l = [p] := by
  simp [eligible, hlocked, hwait, sourceHeads, ha, hord, entryOfPart_none ha hc]

theorem canIssue_mem {s : State} {a : Access} {p : Part} : canIssue s hpMem a p = !orderHeld s a := by
  simp [canIssue]

/-- A part is put among those executing on its line. -/
theorem markBusy_one {s : State} {l : HotLine} {p : Part} {h : Nat} (hhot : s.home.hot = [l]) (hh : l.home = h)
    (hl : l.line = lineOf p.off) :
    markBusy h p s = withLine { l with busy := l.busy ++ [p], lastSrc := p.src } s := by
  simp [markBusy, lineAt_one hhot hh hl, modLine_one _ hhot hh hl]

theorem closeEntry_none {s : State} {p : Part} (h : entryOfPart s p = none) : closeEntry p s = s := by
  simp [closeEntry, h]

/-- The one part that waits on an idle line of MEM is issued. -/
theorem lineTurn_one {s : State} {l : HotLine} {p : Part} {a : Access} (hhot : s.home.hot = [l]) (hh : l.home = hpMem)
    (hlocked : l.locked = false) (hbusy : l.busy = []) (hwait : l.wait = [p]) (hl : lineOf p.off = l.line)
    (ha : accOf s p.access = some a) (hc : a.combine = none) (hcan : canIssue s hpMem a p = true) (hq : s.home.queue = []) :
    lineTurn hpMem l.line s = withLine { l with busy := [p], wait := [], lastSrc := p.src } s := by
  have hord : orderHeld s a = false := by simpa [canIssue_mem] using hcan
  have hready : turnReady s hpMem l a p = true := by simp [turnReady, hcan]
  have hmark : markBusy hpMem p (withLine { l with wait := l.wait.erase p } s) =
      withLine { l with busy := [p], wait := [], lastSrc := p.src } s :=
    (markBusy_one (l := { l with wait := l.wait.erase p }) rfl hh hl.symm).trans (by simp [hwait, hbusy])
  have hnone : entryOfPart (withLine { l with busy := [p], wait := [], lastSrc := p.src } s) p = none :=
    entryOfPart_none (a := a) ha hc
  simp only [lineTurn, lineAt_one hhot hh rfl, eligible_one hlocked hwait ha hc hord, nextTurn, List.foldl_nil, ha, hready,
    if_true, modLine_one _ hhot hh rfl, issueRun_mem, noteWait]
  rw [if_neg (by decide), hmark, closeEntry_none hnone, feedQueue_nil (s := withLine _ s) hq]

theorem serialiserIssue_mem {s : State} {line : BitVec 48} {l : HotLine} {p : Part} {a : Access} (h : AtRest s)
    (hhot : s.home.hot = [l]) (hh : l.home = hpMem) (hline : l.line = line.toNat) (hlocked : l.locked = false)
    (hbusy : l.busy = []) (hwait : l.wait = [p]) (hl : lineOf p.off = l.line) (ha : accOf s p.access = some a)
    (hc : a.combine = none) (hcan : canIssue s hpMem a p = true) (hq : s.home.queue = []) :
    ∃ t, exec (.serialiserIssue .mem line) s = .next t ∧
      t.home.hot = [{ l with busy := [p], wait := [], lastSrc := p.src }] := by
  have hturn := lineTurn_one hhot hh hlocked hbusy hwait hl ha hc hcan hq
  rw [hline] at hturn
  obtain ⟨t, ht, hhome, -⟩ := run_home (r := { data := true }) h (hturn ▸ (withLine_gives _ s).rest)
  exact ⟨t, ht, by simp [hhome, Reach.bound, hturn, hline]⟩

/-! ### The issue of a combining entry (R113) -/

/-- The part of an entry closes it. -/
theorem closeEntry_issued {s : State} {p : Part} {a : Access} {e : CombEntry} (ha : accOf s p.access = some a)
    (hc : a.combine = some e.num) (he : s.home.comb = [e]) :
    (closeEntry p s).home.comb = [{ e with issued := true }] ∧ (closeEntry p s).home.queue = s.home.queue ∧
      (closeEntry p s).home.hot = s.home.hot := by
  have hentry : entryOfPart s p = some e := by simp [entryOfPart, ha, hc, he]
  unfold closeEntry
  simp only [hentry]
  (repeat' split) <;> simp [he, modFirst_one]

/-- Entry `e` is ripe, and its part has left the queue. -/
def entryOut (e : CombEntry) (s : State) : State :=
  { s with home := { s.home with comb := [{ e with ripe := true }], queue := [] } }

@[simp] theorem entryOut_queue (e : CombEntry) (s : State) : (entryOut e s).home.queue = [] := rfl

theorem entryOut_gives (e : CombEntry) (s : State) : HomeGives [] s (entryOut e s) := by
  simp [HomeGives, RestKept, entryOut]

/-- At MEM every earlier request of an ordered stream holds a part back, issued or not, so the queue decides nothing
(R111). -/
theorem canIssue_entryOut {e : CombEntry} {s : State} {a : Access} {p : Part} (hhome : a.home = hpMem) :
    canIssue (entryOut e s) hpMem a p = canIssue s hpMem a p := by
  simp [canIssue_mem, orderHeld, hhome, entryOut]

/-- The part of an entry leaves the queue and its line becomes hot, where nothing else of MEM is under way. -/
theorem entryTurn_cold {s : State} {e : CombEntry} {p : Part} {a : Access} (he : s.home.comb = [e])
    (hissued : e.issued = false) (hh : e.home = hpMem) (hq : s.home.queue = [(hpMem, p)]) (hhot : s.home.hot = [])
    (hp : p.access = e.access) (ha : accOf s e.access = some a) (hhome : a.home = hpMem)
    (hcan : canIssue s hpMem a p = true) (hlim : 0 < hotLimit s hpMem) :
    entryTurn e.num s = issueRun hpMem a [p] (entryOut e s) := by
  have hcold : lineAt s hpMem (lineOf p.off) = none := by simp [lineAt, hhot]
  have hused : hotUsed s hpMem e.tenant = 0 := by simp [hotUsed, hhot]
  have hripe : { s with home := { s.home with
      comb := modFirst (fun x => x.num == e.num) (fun x => { x with ripe := true }) s.home.comb
      queue := s.home.queue.erase (hpMem, p) } } = entryOut e s := by
    simp [entryOut, he, hq, modFirst_one]
  have hfree : tenantQueued (entryOut e s) hpMem e.tenant = false := by simp [tenantQueued, entryOut]
  have hfind : s.home.comb.find? (fun x => x.num == e.num && !x.issued) = some e := by simp [he, hissued]
  have hpart : s.home.queue.find? (fun x => x.2.access == e.access) = some (hpMem, p) := by simp [hq, hp]
  simp only [entryTurn, hfind, hpart, ha, hh, hripe, hcold, hfree, hused, canIssue_entryOut hhome, hcan, hlim]
  simp

theorem combiningEntryIssue_cold {s : State} {e : CombEntry} {p : Part} {a : Access} (h : AtRest s)
    (he : s.home.comb = [e]) (hissued : e.issued = false) (hh : e.home = hpMem) (hq : s.home.queue = [(hpMem, p)])
    (hhot : s.home.hot = []) (hp : p.access = e.access) (ha : accOf s e.access = some a) (hc : a.combine = some e.num)
    (hhome : a.home = hpMem) (hcan : canIssue s hpMem a p = true) (hlim : 0 < hotLimit s hpMem) :
    ∃ t, exec (.combiningEntryIssue e.num) s = .next t ∧ t.home.queue = [] ∧
      t.home.comb.all (fun x => x.issued) = true ∧
      t.home.hot = [{ home := hpMem, line := lineOf p.off, lastSrc := p.src, busy := [p] }] := by
  have hturn := entryTurn_cold he hissued hh hq hhot hp ha hhome hcan hlim
  have hkept : RestKept s (entryTurn e.num s) :=
    hturn ▸ ((entryOut_gives e s).trans (issueRun_mem_gives a p _)).rest
  obtain ⟨t, ht, hth, -⟩ := run_home (r := { data := true }) h hkept
  have hmark : markBusy hpMem p (entryOut e s) =
      withLine { home := hpMem, line := lineOf p.off, lastSrc := p.src, busy := [p] } (entryOut e s) := by
    simp [markBusy, lineAt, hhot, entryOut, withLine]
  have ha' : accOf (entryOut e s) p.access = some a := (accOf_congr rfl _).trans (hp ▸ ha)
  rw [hturn, issueRun_mem, hmark] at hth
  obtain ⟨hcomb, hqueue, hline⟩ := closeEntry_issued (p := p) (e := { e with ripe := true })
    (s := withLine { home := hpMem, line := lineOf p.off, lastSrc := p.src, busy := [p] } (entryOut e s)) ha' hc rfl
  exact ⟨t, ht, by simp [hth, Reach.bound, hqueue], by simp [hth, Reach.bound, hcomb],
    by simp [hth, Reach.bound, hline]⟩

/-! ### The end of an access (R85) -/

/-- An access of which one more part has ended. -/
def partEnded (a : Access) (off : Nat) (st : Status) (data : Bytes) : Access :=
  { a with
    left := a.left - 1, status := worse a.status st
    data := if data.isEmpty then a.data else a.data ++ [(off, data)] }

/-- What the host is answered at the end of a CXL.mem access (R101). -/
def cxlAnswer (a : Access) : Emit :=
  if a.op == .read then .cxlMem (if commitStatus a == .done then some (accData a) else none) else .cxlMemDone

theorem finishAcc_cxl {a : Access} (hown : a.own = 0) (hcxl : a.cxl = true) (s : State) :
    finishAcc a s = emit (cxlAnswer a) (dropParts a.id (dropAcc a.id s)) := by
  by_cases hop : a.op = .read <;> simp [finishAcc, hown, hcxl, cxlAnswer, hop]

/-- With its last part an access that serves no combining entry ends. -/
theorem partOver_last {s : State} {id off : Nat} {st : Status} {data : Bytes} {a : Access} (ha : accOf s id = some a)
    (hleft : a.left = 1) (hc : a.combine = none) :
    partOver id off st data s = finishAcc (partEnded a off st data) (modAcc id (fun _ => partEnded a off st data) s) := by
  simp [partOver, ha, hleft, hc, partEnded]

/-- A line on which nothing executes or waits is hot no longer (R110). -/
def coolLines (s : State) : State :=
  { s with home := { s.home with hot := s.home.hot.filter (fun l => !(l.busy.isEmpty && l.wait.isEmpty)) } }

theorem partDone_eq (h : Nat) (p : Part) (st : Status) (data : Bytes) (s : State) :
    partDone h p st data s = feedQueue h (coolLines (partOver p.access p.off st data
      (modLine h (lineOf p.off) (fun l => { l with busy := l.busy.erase p }) s))) := rfl

/-- The one hot line is of MEM, and what executes on it is the last part of a CXL.mem access of the host. -/
structure LastPart (s : State) (line : Nat) (l : HotLine) (p : Part) (a : Access) : Prop where
  hot : s.home.hot = [l]
  mem : l.home = hpMem
  line_eq : l.line = line
  busy : l.busy = [p]
  acc : accOf s p.access = some a
  cxl : a.cxl = true
  left : a.left = 1
  own : a.own = 0
  combine : a.combine = none

theorem isFarCopy_cxl {a : Access} (h : a.cxl = true) (s : State) : isFarCopy s a = false := by simp [isFarCopy, h]

/-- The last part of a CXL.mem access is executed, and ends: no measured region is fed, the host is answered, the access
leaves its lines, and what waits at MEM takes the room. A line on which nothing else executes or waits cools down. -/
theorem memDone_last {s u : State} {line : Nat} {l : HotLine} {p : Part} {a : Access} {ecc : Ecc} {kf : Bool}
    {r : Status × Bytes} (h : LastPart s line l p a) (hpart : memPart a p ecc kf s = (u, r))
    (hacc : u.home.accesses = s.home.accesses) :
    ∃ w, memDone line ecc kf s = feedQueue hpMem w ∧ HomeGives [cxlAnswer (partEnded a p.off r.1 r.2)] u w ∧
      (u.home.queue = [] → w.home.queue = []) ∧
      (u.home.hot = [l] → l.line = lineOf p.off → l.wait = [] → w.home.hot = []) := by
  have hdone : memDone line ecc kf s = partDone hpMem p r.1 r.2 u := by
    simp [memDone, lineAt_one h.hot h.mem h.line_eq, h.busy, h.acc, measFeed, isFarCopy_cxl h.cxl, hpart]
  have hover := partOver_last (off := p.off) (st := r.1) (data := r.2)
    ((accOf_modLine hpMem (lineOf p.off) (fun l => { l with busy := l.busy.erase p }) u p.access).trans
      ((accOf_congr hacc _).trans h.acc)) h.left h.combine
  rw [finishAcc_cxl (a := partEnded a p.off r.1 r.2) h.own h.cxl] at hover
  refine ⟨_, by rw [hdone, partDone_eq, hover], ?_⟩
  refine ⟨by simp [HomeGives, RestKept, dropParts, coolLines], fun hq => by simp [dropParts, coolLines, hq],
    fun hhot hl hwait => ?_⟩
  simp [dropParts, coolLines, modLine_one _ hhot h.mem hl, h.busy, hwait]

/-- The line is in service, its keys are there, and it is not poisoned (R241, R243, R315). -/
structure LineGood (s : State) (space off : Nat) : Prop where
  out : offsetOut s space off = false
  keys : keysGone s space off = false
  clean : poisoned s space off = false

/-! ### A read at MEM -/

theorem out_raiseGlb {s u : State} (b : Nat) (h : s.out <+: u.out) : s.out <+: (raiseGlb b u).out :=
  h.trans (out_raiseAt _ _ _ _ _ u)

theorem out_dmaWrite_of_eq {s u : State} {a : Nat} {bs : Bytes} (h : s.out = u.out) : s.out <+: (dmaWrite a bs u).out :=
  h ▸ out_dmaWrite a bs u

theorem out_notice (k : NoticeKind) (st ep unit : Nat) (s : State) : s.out <+: (notice k st ep unit s).out := by
  unfold notice; dsimp only; split
  · simp
  · split
    · exact out_raiseGlb _ (out_dmaWrite_of_eq rfl)
    · exact out_raiseGlb _ (by simp)

/-- What is found on a read of a line is put out and noted at the line's channel; accesses stay as they are. -/
abbrev LineFound (s t : State) : Prop := (∃ es, HomeGives es s t) ∧ t.home.accesses = s.home.accesses

theorem LineFound.trans {s t u : State} (h : LineFound s t) (h' : LineFound t u) : LineFound s u := by
  obtain ⟨⟨es, hes⟩, hacc⟩ := h
  obtain ⟨⟨fs, hfs⟩, hacc'⟩ := h'
  exact ⟨⟨_, hes.trans hfs⟩, hacc'.trans hacc⟩

/-- A change of counters and of what is out of service, with what it puts out. -/
theorem LineFound.of_out {s t : State} (hout : s.out <+: t.out)
    (h : RestKept s t ∧ t.home.stk = s.home.stk ∧ t.home.anx = s.home.anx)
    (hacc : t.home.accesses = s.home.accesses) : LineFound s t := by
  obtain ⟨es, hes⟩ := hout
  exact ⟨⟨es, hes.symm, h⟩, hacc⟩

theorem LineFound.refl (s : State) : LineFound s s := ⟨⟨[], .refl s⟩, rfl⟩

/-- What the home points note of a line changes neither bytes nor accesses. -/
theorem home_found {s : State} {x : Home} (hstk : x.stk = s.home.stk) (hanx : x.anx = s.home.anx)
    (hacc : x.accesses = s.home.accesses) : LineFound s { s with home := x } :=
  .of_out (by simp) ⟨by simp [RestKept], hstk, hanx⟩ hacc

theorem bump_found (c : Cnt) (s : State) : LineFound s (bump c s) := .of_out (by simp) (by simp [RestKept]) (by simp)

theorem raiseSec_found (b unit : Nat) (s : State) : LineFound s (raiseSec b unit s) :=
  .of_out (out_raiseAt _ _ _ _ _ s) (by simp [RestKept, raiseSec]) (by simp [raiseSec])

theorem notice_found (k : NoticeKind) (st ep unit : Nat) (s : State) : LineFound s (notice k st ep unit s) :=
  .of_out (out_notice _ _ _ _ s) (by simp [RestKept]) (by simp)

theorem unitFailed_found (u : ScrubUnit) (s : State) : LineFound s (unitFailed u s) := by
  unfold unitFailed; split
  · exact .refl s
  · exact .trans (home_found rfl rfl rfl) (raiseSec_found _ _ _)

theorem unitLost_found (u : ScrubUnit) (s : State) : LineFound s (unitLost u s) := by
  unfold unitLost; split
  · exact unitFailed_found u s
  · exact .refl s

theorem channelFail_found (c : Nat) (s : State) : LineFound s (channelFail c s) := by
  unfold channelFail; split
  · exact .refl s
  · dsimp only
    refine .trans ?_ (notice_found _ _ _ _ _)
    split
    · exact (unitLost_found _ s).trans (home_found rfl rfl rfl)
    · exact home_found rfl rfl rfl

theorem foundUe_found (space off : Nat) (s : State) : LineFound s (foundUe space off s) := by
  unfold foundUe
  split
  · exact .refl s
  · dsimp only
    split
    · exact .refl s
    · split
      · refine .trans ?_ (channelFail_found _ _)
        exact (home_found rfl rfl rfl).trans (bump_found _ _)
      · exact (home_found rfl rfl rfl).trans (bump_found _ _)

theorem foundCe_found (space off : Nat) (s : State) : LineFound s (foundCe space off s) := by
  unfold foundCe; split
  · exact bump_found _ s
  · exact .refl s

/-- What a line part reads: nothing of an uncorrectable line, else its bytes (R121). -/
def readResult (ecc : Ecc) (bs : Bytes) : Status × Bytes := if ecc = .uncorrectable then (.dataError, []) else (.done, bs)

/-- A part that reads: an uncorrectable line is marked and gives no data, any other gives its bytes (R85, R241). -/
theorem memPart_read {s : State} {a : Access} {p : Part} {space off : Nat} (ecc : Ecc) (hop : a.op = .read)
    (hspace : p.off / 2 ^ 44 = space) (hoff : p.off % 2 ^ 44 = off) (hgood : LineGood s space off) :
    ∃ u, memPart a p ecc false s = (u, readResult ecc (tierRead s space off p.len)) ∧ LineFound s u := by
  cases ecc with
  | clean =>
    refine ⟨s, ?_, .refl s⟩
    simp [-Nat.reducePow, memPart, hspace, hoff, hop, hgood.out, hgood.keys, hgood.clean, readResult]
  | corrected =>
    obtain ⟨⟨-, -, -, hstk, hanx⟩, -⟩ := foundCe_found space off s
    refine ⟨foundCe space off s, ?_, foundCe_found space off s⟩
    simp [-Nat.reducePow, memPart, hspace, hoff, hop, hgood.out, hgood.keys, hgood.clean, readResult, tierRead, hstk, hanx]
  | uncorrectable =>
    refine ⟨foundUe space off s, ?_, foundUe_found space off s⟩
    simp [-Nat.reducePow, memPart, hspace, hoff, hop, hgood.out, hgood.keys, hgood.clean, readResult]

/-- The bytes of an access with one piece of data, which covers it. -/
theorem accData_one {a : Access} {off : Nat} {bs : Bytes} (hop : a.op = .read) (hdata : a.data = [(off, bs)])
    (hfpa : a.frame.fpa = off) (hspan : spanOf a.frame = bs.length) : accData a = bs := by
  simp [accData, hop, hdata, hfpa, hspan, gather]

/-- The answer to a read of one part (R101). -/
theorem cxlAnswer_read {a : Access} {off : Nat} {ecc : Ecc} {bs : Bytes} (hop : a.op = .read) (hst : a.status = .done)
    (hdata : a.data = []) (hfpa : a.frame.fpa = off) (hspan : spanOf a.frame = bs.length) (hpos : bs ≠ []) :
    cxlAnswer (partEnded a off (readResult ecc bs).1 (readResult ecc bs).2) =
      .cxlMem (if ecc = .uncorrectable then none else some bs) := by
  by_cases hue : ecc = .uncorrectable
  · simp [cxlAnswer, commitStatus, partEnded, readResult, hop, hst, hue, worse, checkRank]
  · have hacc : accData (partEnded a off .done bs) = bs :=
      accData_one (by simp [partEnded, hop]) (by simp [partEnded, hdata, hpos]) hfpa hspan
    have hcommit : commitStatus (partEnded a off .done bs) = .done := by
      simp [commitStatus, partEnded, hop, hst, worse, checkRank]
    simp only [readResult, hue, if_false, cxlAnswer, hcommit, hacc]
    simp [partEnded, hop]

theorem memRead_length (m : Table Byte) (a n : Nat) : (memRead m a n).length = n := by simp [memRead]

theorem homeAccessDone_read {s : State} {line : BitVec 48} {ecc : Ecc} {l : HotLine} {p : Part} {a : Access} {sp a0 n0 : Nat}
    (hrun : s.chip.running = true) (hlast : LastPart s line.toNat l p a) (hop : a.op = .read) (hst : a.status = .done)
    (hdata : a.data = []) (hfpa : a.frame.fpa = p.off) (hspan : spanOf a.frame = p.len) (hpos : 0 < p.len)
    (hgood : LineGood s (p.off / 2 ^ 44) (p.off % 2 ^ 44)) :
    ∃ t, exec (.homeAccessDone line ecc false) s = .next t ∧
      Puts s t (.cxlMem (if ecc = .uncorrectable then none
        else some (tierRead s (p.off / 2 ^ 44) (p.off % 2 ^ 44) p.len))) ∧
      (pageReads s = false → tierRead t sp a0 n0 = tierRead s sp a0 n0) := by
  obtain ⟨bs, hbs⟩ : ∃ bs, tierRead s (p.off / 2 ^ 44) (p.off % 2 ^ 44) p.len = bs := ⟨_, rfl⟩
  have hlen : bs.length = p.len := hbs ▸ memRead_length _ _ _
  obtain ⟨u, hpart, ⟨es, hfound⟩, hacc⟩ := memPart_read ecc hop rfl rfl hgood
  rw [hbs] at hpart ⊢
  obtain ⟨w, hdone, hgives, -⟩ := memDone_last hlast hpart hacc
  rw [cxlAnswer_read hop hst hdata hfpa (hspan.trans hlen.symm) (List.ne_nil_of_length_pos (hlen ▸ hpos))] at hgives
  have hall := (hfound.trans hgives).trans (feedQueue_mem_gives w)
  rw [← hdone] at hall
  obtain ⟨hputs, ⟨-, hmov, -⟩, hstk, hanx⟩ := hall
  obtain ⟨t, ht, hpre⟩ := out_run (r := { data := true, mem := true }) (f := memDone line.toNat ecc false) hrun
  refine ⟨t, ht, puts_of_mem (hputs ▸ hpre) (by simp), fun h0 => ?_⟩
  rw [run_bytes_reached hrun rfl rfl hmov h0 ht sp a0 n0]
  simp [tierRead, hstk, hanx]

/-! ### A write at MEM -/

theorem slice_all (bs : Bytes) : slice bs 0 bs.length = bs := by simp [slice]

/-- A part that writes: the bytes are written, and a whole line's poison is cleared (R85, R121). -/
theorem memPart_write {s : State} {a : Access} {p : Part} {space off : Nat} (hop : a.op = .write)
    (hspace : p.off / 2 ^ 44 = space) (hoff : p.off % 2 ^ 44 = off) (hfpa : a.frame.fpa = p.off)
    (hlen : a.frame.payload.length = p.len) (hgood : LineGood s space off) :
    ∃ u, memPart a p .clean false s = (u, .done, []) ∧ HomeGives [] (tierWrite space off a.frame.payload s) u ∧
      u.home.accesses = (tierWrite space off a.frame.payload s).home.accesses ∧
      u.home.hot = (tierWrite space off a.frame.payload s).home.hot ∧
      u.home.queue = (tierWrite space off a.frame.payload s).home.queue := by
  have hbytes : slice a.frame.payload 0 p.len = a.frame.payload := hlen ▸ slice_all _
  by_cases hfull : p.len = 128
  · refine ⟨clearPoison space off (tierWrite space off a.frame.payload s), ?_,
      by simp [HomeGives, RestKept, clearPoison]⟩
    rw [hfull] at hbytes
    simp [-Nat.reducePow, memPart, hspace, hoff, hop, hgood.out, hfpa, hfull, hbytes]
  · refine ⟨tierWrite space off a.frame.payload s, ?_, .refl _, rfl, rfl, rfl⟩
    simp [-Nat.reducePow, memPart, hspace, hoff, hop, hgood.out, hgood.keys, hgood.clean, hfpa, hfull, hbytes]

/-- A write of a tier leaves everything but its bytes. -/
theorem tierWrite_kept (space off : Nat) (bs : Bytes) (s : State) :
    (tierWrite space off bs s).out = s.out ∧ RestKept s (tierWrite space off bs s) ∧
    (tierWrite space off bs s).home.accesses = s.home.accesses ∧ (tierWrite space off bs s).home.hot = s.home.hot ∧
    (tierWrite space off bs s).home.queue = s.home.queue := by
  unfold tierWrite; split <;> simp [RestKept]

theorem cxlAnswer_write {a : Access} (off : Nat) (st : Status) (bs : Bytes) (hop : a.op = .write) :
    cxlAnswer (partEnded a off st bs) = .cxlMemDone := by
  simp [cxlAnswer, partEnded, hop]

theorem homeAccessDone_write {s : State} {line : BitVec 48} {l : HotLine} {p : Part} {a : Access} {sp a0 n0 : Nat}
    (h : AtRest s) (hlast : LastPart s line.toNat l p a) (hwait : l.wait = []) (hq : s.home.queue = [])
    (hl : lineOf p.off = l.line) (hop : a.op = .write) (hfpa : a.frame.fpa = p.off)
    (hlen : a.frame.payload.length = p.len) (hspace : p.off / 2 ^ 44 = 1) (hgood : LineGood s 1 (p.off % 2 ^ 44)) :
    ∃ t, exec (.homeAccessDone line .clean false) s = .next t ∧ Puts s t .cxlMemDone ∧
      memRead t.home.stk (p.off % 2 ^ 44) p.len = a.frame.payload ∧ t.home.hot = [] ∧
      (pageReads s = false → Apart 1 (p.off % 2 ^ 44) p.len sp a0 n0 → tierRead t sp a0 n0 = tierRead s sp a0 n0) := by
  obtain ⟨kout, krest, kacc, khot, kqueue⟩ := tierWrite_kept 1 (p.off % 2 ^ 44) a.frame.payload s
  obtain ⟨u, hpart, hwritten, hacc, huhot, huqueue⟩ := memPart_write hop hspace rfl hfpa hlen hgood
  obtain ⟨w, hdone, hgives, hempty, hcool⟩ := memDone_last hlast hpart (hacc.trans kacc)
  have heff : memDone line.toNat .clean false s = w := by
    rw [hdone, feedQueue_nil (hempty (by rw [huqueue, kqueue, hq]))]
  have hcold : w.home.hot = [] := hcool (by rw [huhot, khot, hlast.hot]) hl.symm hwait
  rw [cxlAnswer_write _ _ _ hop] at hgives
  obtain ⟨gout, grest, gstk, ganx⟩ := hwritten.trans hgives
  obtain ⟨t, ht, hhome, hpre⟩ := run_home (r := { data := true, mem := true }) h (heff ▸ krest.trans grest)
  have hthome : t.home = w.home := by simp [hhome, Reach.bound, heff]
  have hbytes : SameBytes (tierWrite 1 (p.off % 2 ^ 44) a.frame.payload s) t := by
    simp [SameBytes, tierRead, hthome, gstk, ganx]
  rw [heff, gout, kout] at hpre
  refine ⟨t, ht, puts_of_mem hpre (by simp), ?_, by rw [hthome, hcold], fun _ hapart => ?_⟩
  · rw [← hlen]
    exact (hbytes 1 _ _).trans (tierWrite_same 1 (p.off % 2 ^ 44) a.frame.payload s)
  · exact (hbytes sp a0 n0).trans (tierWrite_apart s (hlen ▸ hapart))

/-! ### The read of a locked host access (R109, R404) -/

/-- The value changes: the read-modify-write goes on with its write, and the zero-length read behind it. -/
theorem hostComplete_atomic {s : State} {data : Bytes} {x : HostAcc} {a : Access} {addr : Nat} (hhost : s.home.host = [x])
    (hw : x.isWrite = false) (hlocked : x.locked = true) (ha : accOf s x.part.access = some a) (hop : a.op = .atomic)
    (hdma : dmaOn s = true) (haddr : hostAddr s (x.part.off % 2 ^ 44) x.part.len = some addr)
    (hnew : atomicNew a.frame.atop.toNat (slice data 0 x.part.len) a.frame.payload ≠ slice data 0 x.part.len) :
    HomeGives [.hostWrite addr (atomicNew a.frame.atop.toNat (slice data 0 x.part.len) a.frame.payload), .hostRead addr 0]
        s (hostComplete (.ok data) s) ∧
      (hostComplete (.ok data) s).home.host = [{ x with isWrite := true }] := by
  have hacc : accOf { s with home := { s.home with host := [] } } x.part.access = some a := ha
  have hdma' : dmaOn { s with home := { s.home with host := [] } } = true := hdma
  have haddr' : hostAddr { s with home := { s.home with host := [] } } (x.part.off % 2 ^ 44) x.part.len = some addr := haddr
  have hcommit : (a.op == HomeOp.commit) = false := by simp [hop]
  simp only [hostComplete, hhost, hacc, hw, hlocked, hdma', haddr', hcommit]
  simp [HomeGives, RestKept, hnew]

theorem hostDmaCompletion_atomic {s : State} {data : Bytes} {x : HostAcc} {a : Access} {addr : Nat} (h : AtRest s)
    (hhost : s.home.host = [x]) (hw : x.isWrite = false) (hlocked : x.locked = true)
    (ha : accOf s x.part.access = some a) (hop : a.op = .atomic) (hdma : dmaOn s = true)
    (haddr : hostAddr s (x.part.off % 2 ^ 44) x.part.len = some addr)
    (hnew : atomicNew a.frame.atop.toNat (slice data 0 x.part.len) a.frame.payload ≠ slice data 0 x.part.len) :
    ∃ t, exec (.hostDmaCompletion (.ok data)) s = .next t ∧
      Puts s t (.hostWrite addr (atomicNew a.frame.atop.toNat (slice data 0 x.part.len) a.frame.payload)) ∧
      t.home.host = [{ x with isWrite := true }] := by
  obtain ⟨hgives, hgoes⟩ := hostComplete_atomic hhost hw hlocked ha hop hdma haddr hnew
  obtain ⟨t, ht, hth, hpre⟩ := run_home (r := { data := true }) h hgives.rest
  exact ⟨t, ht, puts_of_mem (hgives.1 ▸ hpre) (by simp), by simp [hth, Reach.bound, hgoes]⟩

/-- Settles O42: at MEM the part that has the turn is put among those executing on its line (`lineTurn_one`, `entryTurn_cold`),
a CXL.mem access is answered as its last part ends (`memDone_last`), and a locked host access goes on with its write
(`hostComplete_atomic`); nothing follows of these that undoes them (`run_home`, `run_bytes_reached`). -/
theorem homePoints : Obligations.HomePoints := by
  unfold Obligations.HomePoints
  refine ⟨?turn, ?entry, ?read, ?write, ?host⟩
  case turn => exact fun _ _ _ _ _ => serialiserIssue_mem
  case entry =>
    rintro s _ e p a h he rfl hissued hh hq hhot hp ha hc hhome hcan hlim -
    exact combiningEntryIssue_cold h he hissued hh hq hhot hp ha hc hhome hcan hlim
  case read =>
    intro s line ecc l p a sp a0 n0 hrun hhot hh hline hbusy _ ha hcxl hop hleft hown hc hst hdata hfpa hspan hpos hout
      hkeys hpois
    exact homeAccessDone_read hrun ⟨hhot, hh, hline, hbusy, ha, hcxl, hleft, hown, hc⟩ hop hst hdata hfpa hspan hpos
      ⟨hout, hkeys, hpois⟩
  case write =>
    intro s line l p a sp a0 n0 h hhot hh hline hbusy hwait hq hl ha hcxl hop hleft hown hc _ hfpa hlen hspace _ hout
      hkeys hpois
    exact homeAccessDone_write h ⟨hhot, hh, hline, hbusy, ha, hcxl, hleft, hown, hc⟩ hwait hq hl hop hfpa hlen hspace
      ⟨hout, hkeys, hpois⟩
  case host => exact fun _ _ _ _ _ => hostDmaCompletion_atomic

end Sys2Proof.Machine
end

section
/-!
PROOFS. Mirror sessions beside the transport (R274 to R276). A frame that an End-point Block sends is seen by the mirror sessions
of its port as it enters the switching core (`submitTo`), and a session with a capture region stores a record of it as an access
of MEM (`memStore`). Where the region's page has just moved to another node, the record is held at the old copy and goes on as a
HOLD_WRITE in a session of its own to the new home (R250, R254). The statements on frames at their target, on frames at their
source and on the timers of a session name accesses or send contexts exactly and leave mirror sessions open, so each of them
fails beside one; in the three runs below the frame sent is a NAK, a request frame and a CLOSE.
-/

namespace Sys2Proof.Machine
open Sys2Proof

/-! ### A mirror session with a capture region -/

/-- A region descriptor: V, R, W and A, 1 MiB of the Stacks from offset 0, tenant 1, tag 0 (R73). -/
def captureRegion : Bytes := leBytes 8 0x110F ++ leBytes 8 0 ++ leBytes 8 (2 ^ 20) ++ leBytes 8 0

/-- A running device of node 0 in READY and in shared tenancy, with `captureRegion` as descriptor 0. Its mirror session 0 stores
there, for tenant 1, a record of every frame that enters by A-port 5 (R274, R278). -/
def capturing : State :=
  sysWrite 0x09000000 captureRegion (setWord (mirOff 0) 0x5001F5
    { State.reset with
      chip := { running := true, perstN := true }
      fab := { state := .ready, joined := true, catalogue := true, nodeV := true, transit := true }
      ten := { shared := true } })

/-- The page of the records, at its old home here: it has moved to node 8. -/
def movedPage : PageMove := { page := 2 ^ 44, size := 2 ^ 21, new := fpaWord 0x4808 (2 ^ 44), runner := 0x4800 }

/-- `capturing` while the old copy of that page is not yet released (R252). A-port 5 has one send context, `c`, and the transport
carries the requests `rs`. -/
def capturingMoved (c : SendCtx) (rs : List FabReq) : State :=
  { capturing with mov := { oldPages := [movedPage] }, trn := { capturing.trn with send := [c], reqs := rs } }

/-- A frame of the reserved TYPE 9 from A-port 6 to A-port 5. -/
def reservedFrame : Frame := ({ type := 9, src := 6, dst := 5, tenant := 1, ttl := 9 } : Frame).seal

/-- An open session from A-port 5 to A-port 6, in which `us` are not acknowledged and PSN 103 is next. -/
def openedCtx (us : List Sent) : SendCtx :=
  { num := 7, sid := ⟨5, 6, false, 1⟩, state := .opened, ipsn := 100, next := 103, unacked := us }

/-- The copy of a WRITE of 8 bytes, of request 4. -/
def writeSent : Sent :=
  { psn := 102, req := 4
    frame := { type := tReq, src := 5, dst := 6, tenant := 1, opc := 2, psn := 102, len := 8, payload := List.replicate 8 0 } }

/-- Request 4: a WRITE of A-port 5 that waits for the acknowledgement of `writeSent`. -/
def writeReq : FabReq := { id := 4, origin := .attach 5 0, sid := (openedCtx []).sid, opc := 2, left := 1 }

/-- The stream of the stores that MEM forwards to the new home of `movedPage` (R254). -/
def forwardSid : StreamId := ⟨0x4800, 0x4808, true, 1⟩

/-! ### What a record adds -/

/-- The NAK of a discarded frame leaves by A-port 5, and its record is an access of MEM. -/
theorem req_capturing : ∃ t, exec (.req ⟨reservedFrame, .clean⟩) capturing = .next t ∧
    t.home.accesses.map (fun a => (a.own, a.op)) = [(1, .write)] :=
  ⟨_, rfl, by decide +kernel⟩

/-- The WRITE goes again by A-port 5, and its record goes on in a session of MEM to node 8. -/
theorem retransmitTimeout_capturingMoved :
    ∃ t, exec (.retransmitTimeout 4 .clean) (capturingMoved (openedCtx [writeSent]) [writeReq]) = .next t ∧
      t.trn.send.map (·.sid) = [(openedCtx []).sid, forwardSid] :=
  ⟨_, rfl, by decide +kernel⟩

/-- The CLOSE leaves by A-port 5, and its record goes on in a session of MEM to node 8. -/
theorem sessionIdleClose_capturingMoved :
    ∃ t, exec (.sessionIdleClose (openedCtx []).sid) (capturingMoved (openedCtx []) []) = .next t ∧
      t.trn.send.map (·.sid) = [(openedCtx []).sid, forwardSid] :=
  ⟨_, rfl, by decide +kernel⟩

/-! ### The statements -/

/-- Refutes O45: the NAK that answers a frame of a reserved TYPE may enter by a port whose frames a mirror session records, and
its record is then a new access of MEM (R128, R274, R276), where the statement has the accesses stay as they were. -/
theorem not_framesAtTheTarget : ¬ Obligations.FramesAtTheTarget := by
  unfold Obligations.FramesAtTheTarget
  rintro ⟨-, -, -, -, -, -, -, -, hreserved⟩
  obtain ⟨t, ht, hrecord⟩ := req_capturing
  obtain ⟨u, hu, -, hkept, -⟩ := hreserved capturing reservedFrame .clean (by decide +kernel) (by decide +kernel)
    (by decide +kernel) (by decide +kernel) (by decide +kernel)
  have hnone : capturing.home.accesses = [] := by decide +kernel
  rw [exec_next_unique ht hu, hnone] at hkept
  simp [hkept] at hrecord

/-- Refutes O46: a frame that is sent again may be recorded by a mirror session whose region has moved, and its record then opens
a session to the region's new home (R133, R250, R276), where the statement has one send context left. -/
theorem not_framesAtTheSource : ¬ Obligations.FramesAtTheSource := by
  unfold Obligations.FramesAtTheSource
  rintro ⟨-, -, -, -, hretransmit, -⟩
  obtain ⟨t, ht, htwo⟩ := retransmitTimeout_capturingMoved
  obtain ⟨u, hu, -, hone, -⟩ := hretransmit (capturingMoved (openedCtx [writeSent]) [writeReq]) 4 writeReq
    (openedCtx [writeSent]) writeSent (by decide +kernel) rfl rfl rfl rfl (by decide +kernel) (by decide +kernel)
    (by decide +kernel) (by decide +kernel) (by decide +kernel)
  rw [exec_next_unique ht hu] at hone
  have one_ctx : t.trn.send.length = 1 := by simpa using congrArg List.length hone
  have two_ctxs : t.trn.send.length = 2 := by simpa using congrArg List.length htwo
  omega

/-- Refutes O47: the CLOSE of an idle session may be recorded by a mirror session whose region has moved, and its record then
opens a session to the region's new home (R139, R250, R276), where the statement has one send context left. -/
theorem not_sessionTimers : ¬ Obligations.SessionTimers := by
  unfold Obligations.SessionTimers
  rintro ⟨-, -, hidle, -⟩
  obtain ⟨t, ht, htwo⟩ := sessionIdleClose_capturingMoved
  obtain ⟨u, hu, hone, -⟩ := hidle (capturingMoved (openedCtx []) []) (openedCtx []).sid (openedCtx [])
    (by decide +kernel) rfl rfl rfl (by decide +kernel) (by decide +kernel)
  rw [exec_next_unique ht hu] at hone
  simp [hone] at htwo

end Sys2Proof.Machine
end

section
/-!
PROOFS. Quarantine (R145, R416) and the routes after a lost link (R134). What setting or clearing a quarantine bit does is said
once (`quarHere_sets`, `quarClear_clears`): beside the bit, receive contexts and A-port sessions may change, and nothing that
could keep a device from rest (`QuarKept`). The two rows of the notice and the two mailbox rows are short uses of it.
-/

namespace Sys2Proof.Machine
open Sys2Proof

/-! ### Requests that wait for their turn -/

/-- No request of an A-port waits for its turn to leave. -/
abbrev NoTurn (s : State) : Prop := s.att.any (fun x => x.2.out.any OutReq.waitsTurn) = false

theorem mem_tput {α : Type} [DecidableEq α] {d : α} {t : Table α} {k : Nat} {v : α} {x : Nat × α} (h : x ∈ tput d t k v) :
    x = (k, v) ∨ x ∈ t := by
  unfold tput at h
  split at h
  · exact .inr (List.mem_filter.1 h).1
  · exact (mem_tins h).imp_right fun h => (List.mem_filter.1 h).1

theorem tget_default_or_mem {α : Type} (d : α) (k : Nat) : ∀ t : Table α, tget d t k = d ∨ (k, tget d t k) ∈ t
  | [] => by simp
  | (j, w) :: t => by
    rw [tget_cons]
    split
    · simp [*]
    · exact (tget_default_or_mem d k t).imp_right (List.mem_cons_of_mem _)

/-- A session written with the requests it had leaves none waiting. -/
theorem noTurn_setSess {p : Nat} {x : Session} {s : State} (hx : x.out = (sess s p).out) (h : NoTurn s) :
    NoTurn (setSess p x s) := by
  rw [NoTurn, List.any_eq_false] at h ⊢
  intro y hy
  rcases mem_tput hy with rfl | hy
  · rw [hx, sess]
    rcases tget_default_or_mem {} p s.att with hd | hm
    · rw [hd]
      simp
    · exact h _ hm
  · exact h y hy

theorem noTurn_of_quiet {s : State} (h : quiet s = true) : NoTurn s := by
  simp only [quiet, Bool.and_eq_true, Bool.not_eq_true'] at h
  obtain ⟨⟨⟨-, hturn⟩, -⟩, -⟩ := h
  exact hturn

/-! ### What quarantine leaves as it was -/

/-- From `s` to `t` quarantine bits, receive contexts, A-port sessions, pending changes and channels may change, and what is put
out grows. The requests that wait are as they were, and so is all else that could keep a device from rest. -/
structure QuarKept (s t : State) : Prop where
  out : s.out <+: t.out
  send : t.trn.send = s.trn.send
  ended : t.trn.ended = s.trn.ended
  mov : t.mov = s.mov
  coll : t.coll = s.coll
  sw : t.sw = s.sw
  home : t.home = s.home
  fab : t.fab = s.fab
  cxl : t.hif.cxl = s.hif.cxl
  turn : NoTurn s → NoTurn t

namespace QuarKept

theorem refl (s : State) : QuarKept s s := ⟨(by simp), rfl, rfl, rfl, rfl, rfl, rfl, rfl, rfl, id⟩

theorem trans {s t u : State} (h : QuarKept s t) (h' : QuarKept t u) : QuarKept s u where
  out := h.out.trans h'.out
  send := h'.send.trans h.send
  ended := h'.ended.trans h.ended
  mov := h'.mov.trans h.mov
  coll := h'.coll.trans h.coll
  sw := h'.sw.trans h.sw
  home := h'.home.trans h.home
  fab := h'.fab.trans h.fab
  cxl := h'.cxl.trans h.cxl
  turn := h'.turn ∘ h.turn

/-- Sessions aside, every part is the same and what is put out grows. -/
theorem of_parts {s t : State} (hout : s.out <+: t.out) (htrn : t.trn = s.trn) (hmov : t.mov = s.mov) (hcoll : t.coll = s.coll)
    (hsw : t.sw = s.sw) (hhome : t.home = s.home) (hfab : t.fab = s.fab) (hcxl : t.hif.cxl = s.hif.cxl)
    (hturn : NoTurn s → NoTurn t) : QuarKept s t :=
  ⟨hout, by rw [htrn], by rw [htrn], hmov, hcoll, hsw, hhome, hfab, hcxl, hturn⟩

theorem emits (es : List Emit) (s : State) : QuarKept s (Machine.emits es s) :=
  of_parts (by simp) rfl rfl rfl rfl rfl rfl rfl id

theorem setSess {p : Nat} {x : Session} {s : State} (hx : x.out = (sess s p).out) : QuarKept s (Machine.setSess p x s) :=
  of_parts (by simp) rfl rfl rfl rfl rfl rfl rfl (noTurn_setSess hx)

theorem modSess {p : Nat} {f : Session → Session} {s : State} (hf : (f (sess s p)).out = (sess s p).out) :
    QuarKept s (Machine.modSess p f s) :=
  .setSess hf

theorem setChan (c : Nat) (x : Chanl) (s : State) : QuarKept s (Machine.setChan c x s) :=
  of_parts (by simp) rfl rfl rfl rfl rfl rfl rfl id

theorem modChan (c : Nat) (f : Chanl → Chanl) (s : State) : QuarKept s (Machine.modChan c f s) := .setChan c _ s

theorem riseVec (v : Nat) (s : State) : QuarKept s (Machine.riseVec v s) :=
  of_parts (out_riseVec v s) (by simp) (by simp) (by simp) (by simp) (by simp) (by simp) (by simp) (by simp [NoTurn])

theorem dmaWrite (a : Nat) (bs : Bytes) (s : State) : QuarKept s (Machine.dmaWrite a bs s) :=
  of_parts (out_dmaWrite a bs s) (by simp) (by simp) (by simp) (by simp) (by simp) (by simp) (by simp) (by simp [NoTurn])

theorem trace (tp unit arg src : Nat) (s : State) : QuarKept s (Machine.trace tp unit arg src s) :=
  of_parts (out_trace tp unit arg src s) (by simp) (by simp) (by simp) (by simp) (by simp) (by simp) (by simp) (by simp [NoTurn])

/-- A quiet device stays quiet. -/
theorem quiet {s t : State} (h : QuarKept s t) (hq : Machine.quiet s = true) : Machine.quiet t = true := by
  have hs : NoTurn s := noTurn_of_quiet hq
  have ht : NoTurn t := h.turn hs
  rw [← hq]
  simp only [Machine.quiet, unsettled, heldLeft, hs, ht, h.send, h.ended, h.mov, h.coll, h.sw, h.cxl]

/-- A row that reaches the data path leaves what its effect does. -/
theorem bound {r : Reach} {s t : State} (h : QuarKept s t) (hd : r.data = true) : QuarKept s (r.bound s t) where
  out := by simpa using h.out
  send := by simpa [bound_part, hd] using h.send
  ended := by simpa [bound_part, hd] using h.ended
  mov := bound_mov h.mov
  coll := by simpa [bound_part, hd] using h.coll
  sw := by simpa [bound_part, hd] using h.sw
  home := by simp [Reach.bound, hd, h.home]
  fab := by simp [bound_part, h.fab]
  cxl := by simpa using h.cxl
  turn := by simpa [bound_part, hd, NoTurn] using h.turn

end QuarKept

/-- A row whose effect keeps a device at rest so: nothing follows of itself. -/
theorem run_quarKept {r : Reach} {s : State} {f : State → State} (h : AtRest s) (hd : r.data = true) (hk : QuarKept s (f s)) :
    ∃ t, run r s f = .next t ∧ (f s).out <+: t.out ∧ t.trn = (f s).trn ∧ t.home = s.home ∧ t.hif.chans = (f s).hif.chans ∧
      (r.xlat = true → t.xlat = (f s).xlat) := by
  obtain ⟨hrun, hq⟩ := h
  refine ⟨_, run_quiet hrun ((hk.bound hd).quiet hq), ?_, ?_, ?_, ?_, ?_⟩
  · simpa using out_noteReady s (advanceReady (r.bound s (f s)))
  · simp [bound_part, hd]
  · simpa using (hk.bound hd).home
  · simp
  · intro hx
    simp [bound_part, hx]

theorem puts_of_grown {s t u : State} {e : Emit} (h : s.out <+: t.out) (he : Puts t u e) : Puts s u e := by
  obtain ⟨xs, hxs⟩ := h
  obtain ⟨⟨ys, hys⟩, hmem⟩ := he
  simp_all [Puts, ← hys, ← hxs]

/-! ### A quarantine bit is set or cleared -/

/-- The bit of endpoint `e` is set or cleared, and the mailbox channels are as they were. -/
structure QuarSet (on : Bool) (e : Nat) (s t : State) : Prop where
  kept : QuarKept s t
  chans : t.hif.chans = s.hif.chans
  bit : e ∈ t.trn.quar ↔ on = true

theorem freeEndpoint_no_send {s : State} (h : s.trn.send = []) (e : Nat) (st : Status) :
    freeEndpoint e st s =
      { s with trn := { s.trn with recv := s.trn.recv.filter (fun r => !(r.sid.dst.toNat == e || r.sid.src.toNat == e)) } } := by
  simp [freeEndpoint, h]

theorem collPortLost_no_ctx {s : State} (h : s.coll.ctxs = []) (p : Nat) (st : Status) : collPortLost p st s = s := by
  simp [collPortLost, h]

/-- Without sessions of its own and without collectives, a device that sets a bit drops the receive contexts of the endpoint. -/
theorem quarHere_eq {e : Nat} {s : State} (hq : quarantined s e = false) (hsend : s.trn.send = []) (hctx : s.coll.ctxs = []) :
    quarHere e s = freeEndpoint e .targetLost
      (trace 0x40 e 0 srcHw { s with trn := { s.trn with quar := insertNat e s.trn.quar } }) := by
  rw [quarHere, if_neg (by simp [hq])]
  dsimp only
  split
  · rw [collPortLost_no_ctx]
    rw [freeEndpoint_no_send (by simp [hsend])]
    simp [hctx]
  · rfl

theorem quarHere_sets {e : Nat} {s : State} (hsend : s.trn.send = []) (hctx : s.coll.ctxs = []) :
    QuarSet true e s (quarHere e s) := by
  by_cases hq : quarantined s e = true
  · rw [quarHere, if_pos hq]
    exact ⟨.refl s, rfl, by simpa [quarantined] using hq⟩
  · rw [quarHere_eq (by simpa using hq) hsend hctx, freeEndpoint_no_send (by simp [hsend])]
    have htrace := QuarKept.trace 0x40 e 0 srcHw { s with trn := { s.trn with quar := insertNat e s.trn.quar } }
    exact ⟨⟨htrace.out, htrace.send, htrace.ended, htrace.mov, htrace.coll, htrace.sw, htrace.home, htrace.fab, htrace.cxl,
      htrace.turn⟩, by simp, by simp [mem_insertNat_self]⟩

/-- Where the bit was clear, no receive context from or to the endpoint is left. -/
theorem quarHere_recv {e : Nat} {s : State} (hq : quarantined s e = false) (hsend : s.trn.send = []) (hctx : s.coll.ctxs = []) :
    ∀ r ∈ (quarHere e s).trn.recv, r.sid.src.toNat ≠ e ∧ r.sid.dst.toNat ≠ e := by
  rw [quarHere_eq hq hsend hctx, freeEndpoint_no_send (by simp [hsend])]
  simp +contextual

theorem emitAtt_quarKept (p : Nat) (m : AttMsg) (s : State) :
    QuarKept s (emitAtt p m s) ∧ (emitAtt p m s).trn = s.trn ∧ (emitAtt p m s).hif = s.hif := by
  unfold emitAtt
  split
  · split
    · exact ⟨.setSess rfl, rfl, rfl⟩
    · exact ⟨.emits [_] s, rfl, rfl⟩
  · exact ⟨.refl s, rfl, rfl⟩

theorem maybeHello_quarKept (p : Nat) (s : State) :
    QuarKept s (maybeHello p s) ∧ (maybeHello p s).trn = s.trn ∧ (maybeHello p s).hif = s.hif := by
  unfold maybeHello
  dsimp only
  split
  · unfold startHello
    dsimp only
    obtain ⟨hkept, htrn, hhif⟩ := emitAtt_quarKept p _ (setSess p _ s)
    refine ⟨QuarKept.trans ?_ hkept, htrn, hhif⟩
    exact .setSess rfl
  · exact ⟨.refl s, rfl, rfl⟩

theorem quarClear_clears (e : Nat) (s : State) : QuarSet false e s (quarClear e s) := by
  have hbit : QuarSet false e s { s with trn := { s.trn with quar := s.trn.quar.filter (fun x => x != e) } } :=
    ⟨⟨(by simp), rfl, rfl, rfl, rfl, rfl, rfl, rfl, rfl, id⟩, rfl, by simp⟩
  unfold quarClear
  dsimp only
  split
  · split
    · obtain ⟨hkept, htrn, hhif⟩ := maybeHello_quarKept (e % 72) (modSess (e % 72) (fun x => { x with state := .down })
        { s with trn := { s.trn with quar := s.trn.quar.filter (fun x => x != e) } })
      have hdown := hbit.kept.trans (.modSess (p := e % 72) (f := fun x => { x with state := .down }) rfl)
      exact ⟨hdown.trans hkept, by simp [hhif], by simp [htrn]⟩
    · exact hbit
  · exact hbit

/-! ### Notices (R145) -/

/-- A notice is taken: the bit is set or cleared, and the Oseno that waits for it is answered. -/
theorem quarantineNotice_row {s : State} (h : AtRest s) (q : QuarNotice) (he : q.endpoint.toNat < 0x5000)
    (hset : QuarSet q.on q.endpoint.toNat s (setQuar q.on q.endpoint.toNat s)) :
    ∃ t, exec (.quarantineNotice q) s = .next t ∧ t.trn = (setQuar q.on q.endpoint.toNat s).trn ∧
      (∀ n ∈ q.sender.toList, Puts s t (.ctl n (.mapConfirm (BitVec.ofNat 11 (nodeId s)) .done))) ∧ t.home = s.home := by
  have hrow : quarNoticeAt q s = emits (q.sender.toList.map fun n => .ctl n (.mapConfirm (BitVec.ofNat 11 (nodeId s)) .done))
      (setQuar q.on q.endpoint.toNat s) := by
    have hnode : nodeId (setQuar q.on q.endpoint.toNat s) = nodeId s := by simp only [nodeId, hset.kept.fab]
    rw [quarNoticeAt, if_neg (by omega)]
    cases q.sender <;> simp [emits, emit, hnode]
  have hkept : QuarKept s (quarNoticeAt q s) := by
    rw [hrow]
    exact hset.kept.trans (.emits _ _)
  obtain ⟨t, ht, hout, htrn, hhome, -, -⟩ := run_quarKept (r := { data := true }) h rfl hkept
  rw [hrow] at hout htrn
  exact ⟨t, ht, htrn, fun n hn => puts_of_grown hset.kept.out (puts_of_mem hout (List.mem_map_of_mem hn)), hhome⟩

/-! ### Mailbox commands (R416) -/

/-- A command whose checks pass runs with its channel marked as started. -/
theorem mbxRun_of_runs {s : State} {c op : Nat} {dma inp : Bytes} (h : MbxRuns s c op dma inp)
    (f : Bytes → State → State) :
    mbxRun c op dma f s = f inp (modChan c (fun x => { x with started := true, named := inp.take 128 }) s) := by
  obtain ⟨hbusy, hstart, -, hop, hruns, hsched, hinp, hcheck, hdma⟩ := h
  have hcore : (op == 0x30 && coreSt s coreSched != .running) = false := by
    simpa using hsched
  have hread : ((chan s c).inDma && !dmaOn s) = false := by
    simpa using hdma
  simp [mbxRun, hbusy, hstart, hop, hruns, hcore, hinp, hcheck, hread]

@[simp] theorem chan_riseVec (v : Nat) (s : State) (c : Nat) : chan (riseVec v s) c = chan s c := chan_congr (by simp) c

theorem mbxEnd_ended {s : State} {c : Nat} (hbusy : (chan s c).busy = true) (hlost : (chan s c).lost = false)
    (out : Bytes) : MbxEnded (mbxEnd c .done out s) c .done := by
  unfold mbxEnd mbxEndLen
  dsimp only
  rw [if_neg (by simp [hbusy]), if_neg (by simp [hlost])]
  split <;> simp [MbxEnded, Status.code]

theorem mbxEnd_quarKept (c : Nat) (st : Status) (out : Bytes) (s : State) : QuarKept s (mbxEnd c st out s) := by
  unfold mbxEnd mbxEndLen
  dsimp only
  have hdma : QuarKept s (if ((chan s c).outDma && !out.isEmpty) = true then dmaWrite (chan s c).outAddr.toNat out s else s) := by
    split
    · exact .dmaWrite ..
    · exact .refl s
  split
  · exact .refl s
  split
  · exact .setChan ..
  split
  · exact hdma.trans (.setChan ..)
  · exact hdma.trans (.trans (.setChan ..) (.riseVec ..))

theorem mbxEnd_trn (c : Nat) (st : Status) (out : Bytes) (s : State) : (mbxEnd c st out s).trn = s.trn := by
  unfold mbxEnd mbxEndLen
  dsimp only
  (repeat' split) <;> simp

/-- The change just started is the one its number names. -/
theorem changeOf_startChange (id kind : Nat) (nodes : List Nat) (m : Ctl) (s : State) :
    changeOf (startChange id kind nodes m s) id = some { id := id, nodes := nodes, kind := kind } := by
  have hnone : (s.xlat.changes.filter (fun x => !(x.id == id))).find? (fun x => x.id == id) = none := by
    simp
  simp [changeOf, startChange, ctlNodes, emits, List.find?_append, hnone]

theorem startChange_quarKept (id kind : Nat) (nodes : List Nat) (m : Ctl) (s : State) :
    QuarKept s (startChange id kind nodes m s) :=
  .of_parts (by simp [startChange, ctlNodes]) rfl rfl rfl rfl rfl rfl rfl (fun h => h)

theorem dropChange_quarKept (id : Nat) (s : State) : QuarKept s (dropChange id s) :=
  .of_parts (by simp) rfl rfl rfl rfl rfl rfl rfl (fun h => h)

theorem changeDone_none (c kind : Nat) (m : Ctl) (s : State) :
    changeDone c (startChange c kind [] m s) = mbxEnd c .done [] (dropChange c (startChange c kind [] m s)) := by
  simp [changeDone, changeOf_startChange]

theorem changeDone_some {nodes : List Nat} (h : nodes ≠ []) (c kind : Nat) (m : Ctl) (s : State) :
    changeDone c (startChange c kind nodes m s) = startChange c kind nodes m s := by
  simp [changeDone, changeOf_startChange, h]

theorem changeDone_quarKept (c : Nat) (s : State) : QuarKept s (changeDone c s) := by
  unfold changeDone
  split
  · split
    · exact (dropChange_quarKept c s).trans (mbxEnd_quarKept c .done [] _)
    · exact .refl s
  · exact .refl s

theorem maskNodes_congr {s t : State} (h : t.fab = s.fab) (mask : Nat) : maskNodes t mask = maskNodes s mask := by
  have hracks : rackNodes t = rackNodes s := by
    funext r
    simp only [rackNodes, nodeId, h]
  simp only [maskNodes, tableNodes, knownRacks, hracks, h]

/-- What EP_QUARANTINE and EP_UNQUARANTINE leave of endpoint `e` and the planes in `mask`: the bit, where this plane is among
them; the command at its end, or waiting for the known Osenos of those planes; and a message to each of these (R416). -/
abbrev EpQuarDone (on : Bool) (c e mask : Nat) (s t : State) : Prop :=
  (mask.testBit s.fab.plane.toNat = true → (e ∈ t.trn.quar ↔ on = true)) ∧
  (maskNodes s mask = [] → MbxEnded t c .done) ∧
  (maskNodes s mask ≠ [] → changeOf t c = some { id := c, nodes := maskNodes s mask, kind := 2 }) ∧
  (∀ m ∈ (maskNodes s mask).map (fun n => Emit.ctl (BitVec.ofNat 11 n) (Ctl.quarantineSet (BitVec.ofNat 16 e) on)),
    Puts s t m)

/-- The bit is set or cleared on this plane, where the mask names it. -/
def quarOnPlane (on : Bool) (e mask : Nat) (s : State) : State := if mask.testBit s.fab.plane.toNat then setQuar on e s else s

theorem epQuarAt_eq {inp : Bytes} (he : beField inp 0 2 < 0x5000) (on : Bool) (c : Nat) (s : State) :
    epQuarAt on c inp s =
      changeDone c (startChange c 2 (maskNodes (quarOnPlane on (beField inp 0 2) (beField inp 2 1) s) (beField inp 2 1))
        (.quarantineSet (BitVec.ofNat 16 (beField inp 0 2)) on) (quarOnPlane on (beField inp 0 2) (beField inp 2 1) s)) :=
  if_neg (by omega)

theorem quarOnPlane_spec {on : Bool} {e : Nat} {s : State} (h : QuarSet on e s (setQuar on e s)) (mask : Nat) :
    QuarKept s (quarOnPlane on e mask s) ∧ (quarOnPlane on e mask s).hif.chans = s.hif.chans ∧
      (mask.testBit s.fab.plane.toNat = true → (e ∈ (quarOnPlane on e mask s).trn.quar ↔ on = true)) := by
  unfold quarOnPlane
  split
  · exact ⟨h.kept, h.chans, fun _ => h.bit⟩
  · exact ⟨.refl s, rfl, fun hmask => absurd hmask ‹_›⟩

/-- A channel's command that starts a change: it ends at once where no Oseno is to confirm, and else waits for those that are. -/
theorem changeDone_startChange {s : State} {c : Nat} (hbusy : (chan s c).busy = true) (hlost : (chan s c).lost = false)
    (kind : Nat) (nodes : List Nat) (m : Ctl) :
    (startChange c kind nodes m s).out <+: (changeDone c (startChange c kind nodes m s)).out ∧
    (changeDone c (startChange c kind nodes m s)).trn = s.trn ∧
    (nodes = [] → MbxEnded (changeDone c (startChange c kind nodes m s)) c .done) ∧
    (nodes ≠ [] → changeOf (changeDone c (startChange c kind nodes m s)) c =
      some { id := c, nodes := nodes, kind := kind }) := by
  refine ⟨(changeDone_quarKept c _).out, ?_, ?_, ?_⟩
  · by_cases hn : nodes = []
    · subst hn
      rw [changeDone_none, mbxEnd_trn]
      rfl
    · rw [changeDone_some hn]
      rfl
  · rintro rfl
    rw [changeDone_none]
    exact mbxEnd_ended (s := dropChange c (startChange c kind [] m s)) hbusy hlost []
  · intro hn
    rw [changeDone_some hn, changeOf_startChange]

/-- One of the two commands runs, where setting or clearing the bit keeps a device at rest so. -/
theorem epQuar_row {s : State} {c op : Nat} {on : Bool} {dma inp : Bytes} (h : AtRest s) (hm : MbxRuns s c op dma inp)
    (he : beField inp 0 2 < 0x5000)
    (hset : ∀ u : State, u.trn = s.trn → u.coll = s.coll → QuarSet on (beField inp 0 2) u (setQuar on (beField inp 0 2) u)) :
    ∃ t, run { xlat := true, data := true } s (mbxRun c op dma (epQuarAt on c)) = .next t ∧
      EpQuarDone on c (beField inp 0 2) (beField inp 2 1) s t ∧ t.home = s.home := by
  have ⟨hbusy, _, hlost, _⟩ := hm
  have hrow := mbxRun_of_runs hm (epQuarAt on c)
  rw [epQuarAt_eq he] at hrow
  generalize hmarked : modChan c (fun x => { x with started := true, named := inp.take 128 }) s = marked at hrow
  have hmark : QuarKept s marked := hmarked ▸ .modChan c _ s
  obtain ⟨hkept, hchans, hbit⟩ := quarOnPlane_spec (hset marked (by simp [← hmarked]) (by simp [← hmarked])) (beField inp 2 1)
  generalize quarOnPlane on (beField inp 0 2) (beField inp 2 1) marked = changed at hrow hkept hchans hbit
  have hchan : chan changed c = { chan s c with started := true, named := inp.take 128 } := by
    rw [chan_congr hchans, ← hmarked, chan_modChan]
  rw [maskNodes_congr (hmark.trans hkept).fab] at hrow
  obtain ⟨hout, htrn, hended, hwaits⟩ := changeDone_startChange (s := changed) (c := c) (by simp [hchan, hbusy])
    (by simp [hchan, hlost]) 2 (maskNodes s (beField inp 2 1)) (.quarantineSet (BitVec.ofNat 16 (beField inp 0 2)) on)
  have hall : QuarKept s (mbxRun c op dma (epQuarAt on c) s) := by
    rw [hrow]
    exact (hmark.trans hkept).trans ((startChange_quarKept ..).trans (changeDone_quarKept ..))
  obtain ⟨t, ht, hout', htrn', hhome, hchans', hxlat⟩ := run_quarKept (r := { xlat := true, data := true }) h rfl hall
  rw [hrow] at hout' htrn' hchans' hxlat
  refine ⟨t, ht, ⟨?_, ?_, ?_, ?_⟩, hhome⟩
  · rw [htrn', htrn]
    rwa [hmark.fab] at hbit
  · intro hnone
    simpa only [MbxEnded, chan_congr hchans'] using hended hnone
  · intro hsome
    rw [← hwaits hsome, changeOf, changeOf, hxlat rfl]
  · intro m hmem
    exact puts_of_grown (hmark.trans hkept).out (puts_of_mem (hout.trans hout') hmem)

/-! ### Routes (R134) -/

/-- A row that reaches the plane's view runs: the view is as its effect leaves it, the readiness state aside. -/
theorem run_fab {r : Reach} {s : State} {f : State → State} (h : s.chip.running = true) (hf : r.fab = true) :
    ∃ t, run r s f = .next t ∧ t.fab = { (f s).fab with state := t.fab.state, transit := t.fab.transit } := by
  refine ⟨_, run_running h, ?_⟩
  obtain ⟨st, tr, hready⟩ := advanceReady_eq (handOn (r.bound s (f s)))
  simp [settle, hready, bound_part, hf]

theorem repairRoutes_fab (n p : Nat) (s : State) :
    (repairRoutes n p s).fab.deadLinks = s.fab.deadLinks ++ [(BitVec.ofNat 11 n, p)] ∧
    (repairRoutes n p s).fab.routes.map (·.1) = s.fab.routes.map (·.1) := by
  simp [repairRoutes, remapOff, Function.comp_def]

theorem routeChangeFlood_row {s : State} (h : s.chip.running = true) (node : BitVec 11) (p : BitVec 8) :
    ∃ t, exec (.routeChangeFlood node p) s = .next t ∧ t.fab.deadLinks = s.fab.deadLinks ++ [(node, p.toNat)] ∧
      t.fab.routes.map (·.1) = s.fab.routes.map (·.1) := by
  obtain ⟨t, ht, hfab⟩ := run_fab (r := { fab := true }) (f := repairRoutes node.toNat p.toNat) h rfl
  obtain ⟨hdead, hroutes⟩ := repairRoutes_fab node.toNat p.toNat s
  refine ⟨t, ht, ?_, ?_⟩
  · simpa [hdead] using congrArg Fabric.deadLinks hfab
  · simpa [hroutes] using congrArg (fun x => x.routes.map (·.1)) hfab

/-! ### The statement -/

/-- Settles O48, by what setting and clearing a bit do (`quarHere_sets`, `quarClear_clears`): a device at rest stays so, and what
each row puts out comes after it. -/
theorem quarantine : Obligations.Quarantine := by
  unfold Obligations.Quarantine
  refine ⟨?noticeSet, ?noticeClear, ?flood, ?set, ?clear⟩
  case noticeSet =>
    intro s e w h he hsend hctx
    obtain ⟨t, ht, htrn, hputs, hhome⟩ := quarantineNotice_row h ⟨e, true, w⟩ he (quarHere_sets hsend hctx)
    refine ⟨t, ht, ?_, fun hq r hr => ?_, hputs, fun _ => hhome⟩
    · rw [htrn]
      exact (quarHere_sets hsend hctx).bit.2 rfl
    · rw [htrn] at hr
      obtain ⟨hsrc, hdst⟩ := quarHere_recv hq hsend hctx r hr
      exact ⟨fun heq => hsrc (congrArg BitVec.toNat heq), fun heq => hdst (congrArg BitVec.toNat heq)⟩
  case noticeClear =>
    intro s e w h he
    obtain ⟨t, ht, htrn, hputs, hhome⟩ := quarantineNotice_row h ⟨e, false, w⟩ he (quarClear_clears e.toNat s)
    refine ⟨t, ht, ?_, hputs, fun _ => hhome⟩
    rw [htrn]
    exact fun hmem => by simpa using (quarClear_clears e.toNat s).bit.1 hmem
  case flood => exact fun s node p h => routeChangeFlood_row h node p
  case set =>
    intro s c dma inp h hm he hsend hctx
    obtain ⟨t, ht, ⟨hbit, hended, hwaits, hputs⟩, hhome⟩ := epQuar_row (on := true) h hm he fun u htrn hcoll =>
      quarHere_sets (by rw [htrn, hsend]) (by rw [hcoll, hctx])
    exact ⟨t, ht, fun hmask => (hbit hmask).2 rfl, hended, hwaits, hputs, fun _ => hhome⟩
  case clear =>
    intro s c dma inp h hm he
    obtain ⟨t, ht, ⟨hbit, hended, hwaits, hputs⟩, hhome⟩ := epQuar_row (on := false) h hm he fun u _ _ => quarClear_clears _ u
    exact ⟨t, ht, fun hmask => by simp [hbit hmask], hended, hwaits, hputs, fun _ => hhome⟩

end Sys2Proof.Machine
end

section
/-!
PROOFS. The descriptor digest (R179).
-/

namespace Sys2Proof.Machine
open Sys2Proof

theorem foldl_bytes_lt (bs : Bytes) (acc : Nat) :
    bs.foldl (fun acc b => acc * 256 + b.toNat) acc < (acc + 1) * 256 ^ bs.length := by
  induction bs generalizing acc with
  | nil => simp
  | cons b bs ih =>
    have hb : b.toNat < 256 := b.isLt
    calc (b :: bs).foldl (fun acc b => acc * 256 + b.toNat) acc
        < (acc * 256 + b.toNat + 1) * 256 ^ bs.length := ih _
      _ ≤ (acc + 1) * 256 * 256 ^ bs.length := Nat.mul_le_mul_right _ (by omega)
      _ = (acc + 1) * 256 ^ (b :: bs).length := by rw [List.length_cons, Nat.pow_succ', Nat.mul_assoc]

theorem beNat_lt (bs : Bytes) : beNat bs < 256 ^ bs.length := by
  simpa [beNat] using foldl_bytes_lt bs 0

/-- Eight bytes fill a word of 64 bits at most. -/
theorem beNat_take_eight_lt (bs : Bytes) : beNat (bs.take 8) < 2 ^ 64 :=
  calc beNat (bs.take 8) < 256 ^ (bs.take 8).length := beNat_lt _
    _ ≤ 256 ^ 8 := Nat.pow_le_pow_right (by omega) (List.length_take_le 8 bs)
    _ = 2 ^ 64 := by decide

/-- Settles O13: the eight bytes lose nothing in a word of 64 bits, and only bytes 0 to 39 are looked at. -/
theorem descriptorDigest : Obligations.DescriptorDigest := by
  unfold Obligations.DescriptorDigest
  constructor
  · intro b
    rw [descDigest, BitVec.toNat_ofNat, Nat.mod_eq_of_lt (beNat_take_eight_lt _)]
  · intro a b h
    rw [descDigest, descDigest, h]

end Sys2Proof.Machine
end

section
/-!
PROOFS. The messages of collectives (R183 to R199), in two statements, each of which fails. A descriptor chunk may be taken on a
link in RECOVER, where its ACCEPT waits (R292, R297). And of a context whose run aborts nothing is asked that would keep its
handle from being freed in what follows of itself (R189, R198).
-/

namespace Sys2Proof.Machine
open Sys2Proof

/-! ### A descriptor chunk on a port in RECOVER -/

/-- ALL_REDUCE of one chunk of 128 INT32 elements by 2 members on plane 0: handle 4, SEQ 1, a window of 64 KiB. -/
def reduceDesc : Bytes :=
  [6, 5, 5, 1] ++ beBytes 4 4 ++ beBytes 6 128 ++ beBytes 2 0 ++ beBytes 2 2 ++ [1, 0] ++ beBytes 4 1 ++ [0, 0] ++ beBytes 2 1 ++
    List.replicate 36 0

/-- The members of the context are the accelerators of A-ports 5 and 6, neither of which has sent its descriptor. -/
def memberFive : MemberSt := { port := 5, index := 0 }
def memberSix : MemberSt := { port := 6, index := 1 }

/-- The only node of the tree of `reduceDesc`, in IDLE. -/
def reduceCtx : Ctx :=
  { state := .idle, tenant := 1, role := .leafRoot, handle := 4, win64k := 1, members := [memberFive, memberSix], hi := 1
    ids := [5, 6], descr := reduceDesc }

/-- The descriptor chunk of the member at A-port 5. -/
def reduceChunk : AttMsg := { opc := 7, atop := 6, addr := 0x4FFFFFFFF, len := 64, payload := reduceDesc }

/-- A-port 5 is in RECOVER, and the context is number 6 of the device. -/
def recoveringMember : State := { recovering grantedSess with coll := { ctxs := [(6, reduceCtx)] } }

/-- The descriptor chunk makes its context ACTIVE; its ACCEPT waits, and the CREDIT for its units behind it. -/
theorem descriptorChunk_recovering : ∃ t, exec (.descriptorChunk 5 reduceChunk) recoveringMember = .next t ∧ t.out = [] ∧
    (sess t 5).toLink = [{ opc := 0x3D }, { opc := 0x3F, addr := 0x2000000000000 }] ∧ (ctxOf t 6).state = .active :=
  ⟨_, rfl, by decide +kernel⟩

/-- Refutes O53: a descriptor chunk may be taken while its port is in RECOVER, and then its ACCEPT waits at the link (R37, R297). -/
theorem not_collectiveMessages : ¬ Obligations.CollectiveMessages := by
  unfold Obligations.CollectiveMessages
  rintro ⟨hdescr, -⟩
  obtain ⟨t, ht, hout, -⟩ := descriptorChunk_recovering
  obtain ⟨u, hu, hputs, -⟩ := hdescr recoveringMember 5 reduceChunk 6 reduceCtx memberFive memberSix (by decide +kernel)
    (by decide +kernel) (by decide +kernel) (by decide +kernel) (by decide +kernel) (by decide +kernel)
    (by decide +kernel) (by decide +kernel) (by decide +kernel) (by decide +kernel) (by decide +kernel)
    (by decide +kernel) (by decide +kernel) (by decide +kernel) (by decide +kernel) (by decide +kernel)
    (by decide +kernel) (by decide +kernel) (by decide +kernel) (by decide +kernel)
  exact not_puts_of_silent ht hout hu hputs

/-! ### A context that is freed as its run aborts (R189, R198) -/

/-- The context is ACTIVE, with no member here. -/
def runningRoot : Ctx := { reduceCtx with state := .active, role := .root, members := [] }

/-- A result write of context 6 is under way at HOST, with none of its parts waiting. -/
def resultAtHost : Access :=
  { id := 1, home := hpHost, op := .write, left := 1, own := 25 + 6
    frame := { type := tReq, src := 0x4800, dst := 0x4800, tenant := 1, opc := 2 } }

/-- Engine 0 reads the line at offset 128 of the host tier. -/
def hostLineRead : Access :=
  { id := 2, home := hpHost, op := .read, left := 1, own := 9
    frame := { type := tReq, src := 0x4800, dst := 0x4800, tenant := 1, opc := 1, len := 128, mid := midOf (3 * 2 ^ 44 + 128) 0 0 } }

/-- The only part of `hostLineRead`. -/
def hostLine : Part := { access := 2, src := 0x4800, ord := false, off := 3 * 2 ^ 44 + 128, len := 128 }

/-- Engine 0 copies 256 bytes of the host tier to node 1: the line at offset 0 has come. -/
def hostCopy : Move :=
  { id := 1, origin := .almanac 9 0 0, tenant := 1, desc := [0x21] ++ List.replicate 63 0, engine := some 0, phase := .reading
    n := 256, src := fpaWord 0x4800 (3 * 2 ^ 44), dst := fpaWord 0x4801 (2 ^ 44), data := [(0, List.replicate 128 0)], left := 1 }

/-- The stream of tenant 1 from this node's fabric memory to node 1's. -/
def toNodeOne : StreamId := ⟨0x4800, 0x4801, false, 1⟩

/-- A session of `toNodeOne` that is open and has no features. -/
def plainSession : SendCtx := { num := 1, sid := toNodeOne, state := .opened }

/-- The open of handle 4 by request 9 of A-port 5: the member list has been read, and node 1 has not replied. -/
def listedOpen : TreeOpenSt := { tenant := 1, handle := 4, port := 5, reqId := 9, desc := reduceDesc, wait := [1], listed := true }

/-- A read of the member list of `listedOpen` is outstanding all the same. It has the number that the next request takes too, and
needs a feature. -/
def strayListRead : FabReq := { id := 1, origin := .treeList 5 9 0, sid := toNodeOne, opc := 1, left := 1, need := 1 }

/-- A device at rest whose host link is down, with all of these; the line that engine 0 reads waits for a slot of HOST. -/
def strayAtRest : State :=
  { State.reset with
    chip := { running := true, perstN := true }
    fab := { state := .ready, joined := true, catalogue := true, nodeV := true, transit := true }
    ten := { shared := true }
    home := { State.reset.home with accesses := [resultAtHost, hostLineRead], queue := [(hpHost, hostLine)], nextAcc := 3 }
    mov := { moves := [hostCopy], nextMove := 2 }
    trn := { State.reset.trn with reqs := [strayListRead], send := [plainSession] }
    coll := { ctxs := [(6, runningRoot)], opens := [listedOpen] } }

/-- The context aborts, and its result write is cut at HOST, whose queue moves on: the line waiting there cannot be read, and
engine 0 sends what it has to node 1 under number 1. The session lacks the feature that the request of that number needs, which
is the stray list read: it ends with VERSION, and with it the open, which frees the contexts of its handle. -/
theorem collIdleAbort_strayAtRest : (ctxOf (idleAbort 6 strayAtRest) 6).state = .aborted ∧
    ∃ t, exec (.collIdleAbort 6) strayAtRest = .next t ∧ t.coll.opens = [] ∧ (ctxOf t 6).state = .free :=
  ⟨by decide +kernel, _, rfl, by decide +kernel⟩

/-- Refutes O55: the clause on COLL_IDLE_ABORT is about every device at rest, also about `strayAtRest`, where a request number is
taken twice; there what follows of the abort frees the context, which the statement has in ABORTED (R189, R198). -/
theorem not_treeMessages : ¬ Obligations.TreeMessages := by
  unfold Obligations.TreeMessages
  rintro ⟨-, -, -, -, -, -, hidle, -⟩
  obtain ⟨-, t, ht, -, hfree⟩ := collIdleAbort_strayAtRest
  obtain ⟨u, hu, haborted, -⟩ := hidle strayAtRest 6 runningRoot (by decide +kernel) (by decide +kernel) (by decide +kernel)
    (by decide +kernel) (by decide +kernel) (by decide +kernel) (by decide +kernel)
  obtain rfl := exec_next_unique ht hu
  exact absurd (hfree.symm.trans haborted) (by decide)

end Sys2Proof.Machine
end

section
/-!
PROOFS. Collective frames between the nodes of a tree (R187, R191, R193, R214).
-/

namespace Sys2Proof.Machine
open Sys2Proof

/-! ### What the work of a context leaves at rest -/

/-- A context with later instances waiting for it (R187). -/
abbrev Ctx.waits (x : Ctx) : Bool := x.state == .idle && !(x.waitDesc.isEmpty && x.waitKid.isEmpty)

/-- No context has later instances waiting. -/
abbrev NoCtxWaits (s : State) : Prop := s.coll.ctxs.any (fun x => x.2.waits) = false

/-- No session that is open has frames waiting. -/
abbrev NoSendWaits (s : State) : Prop := s.trn.send.any (fun c => c.state == .opened && !c.waiting.isEmpty) = false

/-- From `s` to `t` contexts may change and sessions may begin, and of all else nothing that could keep a device from rest. -/
structure CollKept (s t : State) : Prop where
  mov : t.mov = s.mov
  att : t.att = s.att
  cxl : t.hif.cxl = s.hif.cxl
  parked : t.sw.parked = s.sw.parked
  ended : t.trn.ended = s.trn.ended
  writes : t.coll.writes = s.coll.writes
  ctxs : NoCtxWaits s → NoCtxWaits t
  send : NoSendWaits s → NoSendWaits t

namespace CollKept

theorem trans {s t u : State} (h : CollKept s t) (h' : CollKept t u) : CollKept s u where
  mov := h'.mov.trans h.mov
  att := h'.att.trans h.att
  cxl := h'.cxl.trans h.cxl
  parked := h'.parked.trans h.parked
  ended := h'.ended.trans h.ended
  writes := h'.writes.trans h.writes
  ctxs := h'.ctxs ∘ h.ctxs
  send := h'.send ∘ h.send

/-- A quiet device stays quiet. -/
theorem quiet {s t : State} (h : CollKept s t) (hq : Machine.quiet s = true) : Machine.quiet t = true := by
  have hrest := hq
  simp only [Machine.quiet, Bool.and_eq_true, Bool.not_eq_true'] at hrest
  obtain ⟨⟨⟨⟨-, hctxs⟩, -⟩, -⟩, hsend⟩ := hrest
  rw [← hq]
  simp only [Machine.quiet, unsettled, heldLeft, h.mov, h.att, h.cxl, h.parked, h.ended, h.writes, hctxs, hsend, h.ctxs hctxs,
    h.send hsend]

/-- A row that reaches the data path leaves what its effect does. -/
theorem bound {r : Reach} {s t : State} (h : CollKept s t) (hd : r.data = true) : CollKept s (r.bound s t) where
  mov := bound_mov h.mov
  att := by simp [bound_part, hd, h.att]
  cxl := by simp [h.cxl]
  parked := by simp [bound_part, hd, h.parked]
  ended := by simp [bound_part, hd, h.ended]
  writes := by simp [bound_part, hd, h.writes]
  ctxs := by simpa [bound_part, hd] using h.ctxs
  send := by simpa [bound_part, hd] using h.send

/-- Such a row on a device at rest: collectives and transport are as its effect leaves them. -/
theorem run {r : Reach} {s : State} {f : State → State} (h : CollKept s (f s)) (hd : r.data = true) (hs : AtRest s) :
    ∃ t, Machine.run r s f = .next t ∧ t.coll = (f s).coll ∧ t.trn = (f s).trn := by
  obtain ⟨hrun, hq⟩ := hs
  exact ⟨_, run_quiet hrun ((h.bound hd).quiet hq), by simp [bound_part, hd], by simp [bound_part, hd]⟩

theorem setCtx {s : State} {x : Ctx} (c : Nat) (hx : x.waits = false) : CollKept s (Machine.setCtx c x s) where
  mov := rfl
  att := rfl
  cxl := rfl
  parked := rfl
  ended := rfl
  writes := rfl
  ctxs := by
    intro h
    rw [NoCtxWaits, List.any_eq_false] at h ⊢
    intro y hy
    rcases mem_tput hy with rfl | hy
    · simpa using hx
    · exact h y hy
  send := id

theorem modCtx {s : State} {c : Nat} {f : Ctx → Ctx} (h : (f (ctxOf s c)).waits = false) :
    CollKept s (Machine.modCtx c f s) :=
  .setCtx c h

end CollKept

/-! ### A frame that comes in its turn (R137) -/

/-- The receive contexts are `rs`. -/
def withRecv (rs : List RecvCtx) (s : State) : State := { s with trn := { s.trn with recv := rs } }

theorem withRecv_kept (rs : List RecvCtx) (s : State) : CollKept s (withRecv rs s) :=
  ⟨rfl, rfl, rfl, rfl, rfl, rfl, id, id⟩

/-- `f` is a frame of one piece that its endpoint serves, and the next of the device's only stream: of `r`. -/
structure InTurn (s : State) (f : Frame) (r : RecvCtx) : Prop where
  served : Served s f
  ord : f.ord = false
  first : f.first = true
  last : f.last = true
  recv : s.trn.recv = [r]
  sid : r.sid = fwdSid f
  session : inSession r.ipsn f.psn = true
  next : r.e = f.psn
  seen : r.seen = []
  ackDue : r.ackDue = []
  refused : r.refused = []
  feat : collFeatOk s f r.feat = true

/-- The hypotheses a clause lists are those of a frame in its turn; that no frame is held back (`r.held`) is not needed. -/
theorem InTurn.intro {s : State} {f : Frame} {r : RecvCtx} {P : Prop} (h : InTurn s f r → P) :
    Served s f → f.ord = false → f.first = true → f.last = true → s.trn.recv = [r] → r.sid = fwdSid f →
      inSession r.ipsn f.psn = true → r.e = f.psn → r.held = [] → r.seen = [] → r.ackDue = [] → r.refused = [] →
      collFeatOk s f r.feat = true → P :=
  fun served ord first last recv sid session next _ seen ackDue refused feat =>
    h ⟨served, ord, first, last, recv, sid, session, next, seen, ackDue, refused, feat⟩

/-- The stream, its session and the acknowledgements it owes are the same. -/
abbrev RecvCtx.sameStream (r q : RecvCtx) : Prop := q.sid = r.sid ∧ q.ipsn = r.ipsn ∧ q.ackDue = r.ackDue

theorem recvOf_one {s : State} {r : RecvCtx} {sid : StreamId} {psn : BitVec 32} (hrecv : s.trn.recv = [r]) (hsid : r.sid = sid)
    (hsession : inSession r.ipsn psn = true) : recvOf s sid psn = some r := by
  simp [recvOf, hrecv, hsid, hsession]

theorem modRecv_one {s : State} {r : RecvCtx} {sid : StreamId} {psn : BitVec 32} (f : RecvCtx → RecvCtx)
    (hrecv : s.trn.recv = [r]) (hsid : r.sid = sid) (hsession : inSession r.ipsn psn = true) :
    modRecv sid psn f s = withRecv [f r] s := by
  rw [modRecv, withRecv, hrecv, modFirst_one (by simp [hsid, hsession])]

theorem leading_sameStream (n : Nat) (r : RecvCtx) : r.sameStream (r.leading n) := by
  induction n generalizing r with
  | zero => exact ⟨rfl, rfl, rfl⟩
  | succ n ih =>
    unfold RecvCtx.leading
    split
    · exact ih r.next
    · exact ⟨rfl, rfl, rfl⟩

theorem noteStarts_parts (f : Frame) (r : RecvCtx) :
    r.sameStream (noteStarts f r) ∧ (noteStarts f r).e = r.e ∧ (noteStarts f r).seen = r.seen ∧
      (r.refused = [] → (noteStarts f r).refused = []) := by
  unfold noteStarts
  dsimp only
  split
  · exact ⟨⟨rfl, rfl, rfl⟩, rfl, rfl, id⟩
  · exact ⟨⟨rfl, rfl, rfl⟩, rfl, rfl, fun h => by simp [h]⟩

theorem slide_sameStream (n : Nat) (r : RecvCtx) : r.sameStream (r.slide n) := by
  induction n generalizing r with
  | zero => exact ⟨rfl, rfl, rfl⟩
  | succ n ih =>
    unfold RecvCtx.slide
    split
    · exact ih { r with acked := r.acked.erase r.cum, cum := r.cum + 1 }
    · exact ⟨rfl, rfl, rfl⟩

theorem ackPsn_sameStream (psn : BitVec 32) (r : RecvCtx) : r.sameStream (r.ackPsn psn) := by
  unfold RecvCtx.ackPsn
  split
  · exact ⟨rfl, rfl, rfl⟩
  · exact slide_sameStream _ { r with acked := psn :: r.acked }

theorem psnDiff_self (p : BitVec 32) : psnDiff p p = 0 := by simp [psnDiff]

/-- One acknowledgement that falls due does not go out yet (R130). -/
theorem ackable_one {s : State} {r : RecvCtx} {sid : StreamId} {psn : BitVec 32} (ce : Bool) (hrecv : s.trn.recv = [r])
    (hsid : r.sid = sid) (hsession : inSession r.ipsn psn = true) (hdue : r.ackDue = []) :
    ∃ q, ackable sid psn ce s = withRecv [q] s := by
  obtain ⟨hsid', hsession', -⟩ := ackPsn_sameStream psn r
  let q : RecvCtx := { r.ackPsn psn with ackDue := r.ackDue ++ [(psn, ce)], lastTick := now s }
  have hq : recvOf (withRecv [q] s) sid psn = some q :=
    recvOf_one rfl (hsid'.trans hsid) (by rw [show q.ipsn = r.ipsn from hsession', hsession])
  refine ⟨q, ?_⟩
  rw [ackable]
  dsimp only
  rw [modRecv_one _ hrecv hsid hsession, hq]
  simp [q, hdue]

theorem onFrame_taken {s : State} {f : Frame} (h : Taken s tReq f) (k : State → State) : onFrame tReq f k s = k s := by
  obtain ⟨htype, hlocal, hhcrc, hcrc, hfields, -⟩ := h
  simp [onFrame, htype, hlocal, hhcrc, hcrc, hfields]

/-- The receive context lets a relaxed frame that comes in its turn through at once (R137). -/
theorem windowed_next {s : State} {f : Frame} {r : RecvCtx} (apply : State → State) (hord : f.ord = false)
    (hrecv : s.trn.recv = [r]) (hsid : r.sid = fwdSid f) (hsession : inSession r.ipsn f.psn = true) (hnext : r.e = f.psn)
    (hseen : r.seen = []) :
    ∃ q, r.sameStream q ∧ windowed apply f s = apply (withRecv [q] s) := by
  refine ⟨(r.see f.psn).leading 1025, leading_sameStream 1025 (r.see f.psn), ?_⟩
  have hknows : r.knows f.psn = false := by simp [RecvCtx.knows, hnext, hseen, psnDiff_self]
  simp [windowed, recvOf_one hrecv hsid hsession, hknows, hnext, psnDiff_self, hord, modRecv_one _ hrecv hsid hsession]

/-- A collective frame in its turn that names a context has its effect: of the state before, only the stream has changed. -/
theorem opArrives_inTurn {s : State} {f : Frame} {r : RecvCtx} {opc : BitVec 8} (h : InTurn s f r) (hopc : f.opc = opc)
    (hcoll : 0x40 ≤ opc.toNat ∧ opc.toNat ≤ 0x44) (hnames : f.red = true → namesCtx s f = true) (found : SlotReads) :
    ∃ rs, opArrives opc found f s = collFrameAt f found (withRecv rs s) := by
  obtain ⟨⟨htaken, hok, hquar, hfenced⟩, hord, -, -, hrecv, hsid, hsession, hnext, hseen, hdue, hrefused, hfeat⟩ := h
  obtain ⟨⟨hsid1, hsession1, hdue1⟩, hnext1, hseen1, hrefused1⟩ := noteStarts_parts f r
  obtain ⟨q, ⟨hsid2, hsession2, hdue2⟩, hwindowed⟩ := windowed_next (s := withRecv [noteStarts f r] s) (applyColl found f)
    hord rfl (hsid1.trans hsid) (by rw [hsession1, hsession]) (hnext1.trans hnext) (hseen1.trans hseen)
  have hq : q.sid = fwdSid f := by rw [hsid2, hsid1, hsid]
  have hqsession : inSession q.ipsn f.psn = true := by rw [hsession2, hsession1, hsession]
  have hname : ∀ rs, (f.red && !namesCtx (withRecv rs s) f) = false := by
    intro rs
    have hsame : namesCtx (withRecv rs s) f = namesCtx s f := rfl
    cases hred : f.red <;> simp_all
  obtain ⟨q', hack⟩ := ackable_one (s := withRecv [{ q with lastTick := now s }] s) (psn := f.psn) f.ce rfl hq hqsession
    (hdue2.trans (hdue1.trans hdue))
  have happly : applyColl found f (withRecv [q] (withRecv [noteStarts f r] s)) = collFrameAt f found (withRecv [q'] s) := by
    rw [applyColl, modRecv_one _ rfl hq hqsession, if_neg (by rw [Bool.not_eq_true]; exact hname _)]
    exact congrArg _ hack
  refine ⟨[q'], ?_⟩
  have hrefuse : ofRefused (noteStarts f r) f = false := by simp [ofRefused, hrefused1 hrefused]
  rw [opArrives, if_pos (by simp [hopc]), reqArrives, onFrame_taken htaken]
  have hfeat1 : collFeatOk (withRecv [noteStarts f r] s) f r.feat = true := hfeat
  simp [hok, hquar, hfenced, recvOf_one hrecv hsid hsession, modRecv_one _ hrecv hsid hsession, hrefuse, hopc, hcoll, hfeat1,
    hwindowed, happly]

/-! ### The contexts of a handle -/

theorem noCtxWaits_of_quiet {s : State} (h : quiet s = true) : NoCtxWaits s := by
  simp only [quiet, Bool.and_eq_true, Bool.not_eq_true'] at h
  obtain ⟨⟨⟨⟨-, hctxs⟩, -⟩, -⟩, -⟩ := h
  exact hctxs

theorem ctxOf_waits {s : State} (h : quiet s = true) (c : Nat) : (ctxOf s c).waits = false := by
  rcases tget_default_or_mem {} c s.coll.ctxs with hd | hm
  · rw [ctxOf, hd]
    rfl
  · exact (Bool.not_eq_true _).mp (List.any_eq_false.1 (noCtxWaits_of_quiet h) _ hm)

theorem mem_ctxsOf_setCtx {s : State} {c handle : Nat} {x : Ctx} {tenant : BitVec 12} {y : Nat × Ctx}
    (h : y ∈ ctxsOf (setCtx c x s) tenant handle) : y = (c, x) ∨ y ∈ ctxsOf s tenant handle := by
  rw [ctxsOf, List.mem_filter] at h ⊢
  exact (mem_tput h.1).imp_right fun hm => ⟨hm, h.2⟩

theorem leafOf_mem {s : State} {tenant : BitVec 12} {handle : Nat} {l : Nat × Ctx} (h : leafOf s tenant handle = some l) :
    l ∈ ctxsOf s tenant handle ∧ l.2.isLeaf = true :=
  ⟨List.mem_of_find?_eq_some h, List.find?_some (p := fun x : Nat × Ctx => x.2.isLeaf) h⟩

theorem refOf_own {x : Ctx} (h : x.ref ≠ []) (s : State) : refOf s x = parseDesc x.ref := by
  simp [refOf, refBytes, h]

/-! ### What does not move -/

/-- Changes of which none has an effect have none together. -/
theorem each_stays {α : Type} {f : α → State → State} {s : State} (xs : List α) (h : ∀ x ∈ xs, f x s = s) : each xs f s = s :=
  each_induct (P := fun t => t = s) xs rfl fun x hx t ht => by rw [ht, h x hx]

theorem serve_nothing {s : State} {c : Nat} (h : (ctxOf s c).waitData = []) : serve c s = s := by
  rw [serve, h, each_empty]

/-- No output is formed at the nodes of the handle. -/
theorem pushHandle_nothing {s : State} {tenant : BitVec 12} {handle : Nat} (f : CelReads)
    (h : ∀ y ∈ ctxsOf s tenant handle, ∀ t ∈ (ctxOf s y.1).slots, t.out = none) : pushHandle f tenant handle s = s := by
  refine each_stays _ fun y hy => ?_
  have hnone : (ctxOf s y.1).slots.filter (fun t => t.out.isSome) = [] := by
    rw [List.filter_eq_nil_iff]
    exact fun t ht => by simp [h y hy t ht]
  rw [hnone, List.map_nil, each_empty]

/-- No output is formed at the nodes of the handle, and no data chunk waits at its leaf. -/
theorem turnHandle_nothing {s : State} {tenant : BitVec 12} {handle : Nat} (f : CelReads)
    (hout : ∀ y ∈ ctxsOf s tenant handle, ∀ t ∈ (ctxOf s y.1).slots, t.out = none)
    (hdata : ∀ y ∈ ctxsOf s tenant handle, y.2.isLeaf = true → (ctxOf s y.1).waitData = []) :
    turnHandle f tenant handle s = s := by
  have hpush : (List.range 10).foldl (fun s _ => pushHandle f tenant handle s) s = s :=
    each_stays (f := fun _ => pushHandle f tenant handle) _ fun _ _ => pushHandle_nothing f hout
  rw [turnHandle, hpush, serveHandle]
  split
  · next l hl =>
    obtain ⟨hmem, hleaf⟩ := leafOf_mem hl
    exact serve_nothing (hdata l hmem hleaf)
  · rfl

/-- The only context of a handle is written, and still holds nothing for the handle to work off. -/
theorem turnHandle_setCtx {s : State} {tenant : BitVec 12} {handle k : Nat} {x y : Ctx} (f : CelReads)
    (honly : ctxsOf s tenant handle = [(k, x)]) (hout : ∀ t ∈ y.slots, t.out = none)
    (hdata : y.waitData = [] ∨ x.isLeaf = false ∧ y.isLeaf = false) :
    turnHandle f tenant handle (setCtx k y s) = setCtx k y s := by
  have hmem : ∀ z ∈ ctxsOf (setCtx k y s) tenant handle, z.1 = k ∧ (z.2 = y ∨ z.2 = x) := by
    intro z hz
    rcases mem_ctxsOf_setCtx hz with rfl | hz
    · exact ⟨rfl, .inl rfl⟩
    · rw [honly, List.mem_singleton] at hz
      subst hz
      exact ⟨rfl, .inr rfl⟩
  refine turnHandle_nothing f (fun z hz => ?_) fun z hz hleaf => ?_
  · rw [(hmem z hz).1, ctxOf_setCtx]
    exact hout
  · obtain ⟨hk, hctx⟩ := hmem z hz
    rw [hk, ctxOf_setCtx]
    rcases hdata with hdata | ⟨hx, hy⟩
    · exact hdata
    · rcases hctx with h | h <;> simp [h, hx, hy] at hleaf

/-- A leaf that has had COLL_DONE goes on while its members have results to come (R187). -/
theorem finishCtx_undone {s : State} {c : Nat} (hleaf : (ctxOf s c).isLeaf = true) (h : membersDone s (ctxOf s c) = false) :
    finishCtx c s = s := by
  simp [finishCtx, hleaf, h]

/-- A context completes only after COLL_DONE (R187). -/
theorem finishCtx_early {s : State} {c : Nat} (h : (ctxOf s c).doneDown = false) : finishCtx c s = s := by
  simp [finishCtx, h]

/-! ### Partials (R214) -/

theorem gatherFrames_whole {f : Frame} (hfirst : f.first = true) (hlast : f.last = true) (s : State) :
    gatherFrames f s = (s, some f.payload) := by
  simp [gatherFrames, hfirst, hlast]

/-- The first partial of a chunk is written into its slot. -/
theorem childPartial_first {s : State} {c : Nat} {x : Ctx} (hx : ctxOf s c = x) (h : x.slots = []) (k : Nat) (bs : Bytes)
    (ecc mat : Ecc) :
    childPartial c k bs ecc mat s = setCtx c { x with slots := [{ chunk := k, part := some bs }] } s := by
  simp [childPartial, Ctx.slot, putSlot, modCtx, hx, h]

/-! ### Grants (R191, R192) -/

theorem takeCredit_running {s : State} {c : Nat} {x : Ctx} {seq : BitVec 32} (hx : ctxOf s c = x) (hstate : x.state = .active)
    (hseq : x.seq = seq) (lo l : Nat) : takeCredit c lo l seq s = setCtx c (x.credited lo l) s := by
  simp [takeCredit, modCtx, hx, hstate, hseq]

theorem takeCredit_early {s : State} {c : Nat} {x : Ctx} {seq : BitVec 32} (hx : ctxOf s c = x)
    (hlater : x.ran = false ∨ 0 < psnDiff seq x.seq) (hother : x.state ≠ .active ∨ x.seq ≠ seq) (lo l : Nat) :
    takeCredit c lo l seq s = setCtx c { x with early := x.early ++ [(lo, l, seq)] } s := by
  have hrun : (x.state == .active && x.seq == seq) = false := by
    rcases hother with h | h <;> simp [h]
  have hearly : (!x.ran || decide (0 < psnDiff seq x.seq)) = true := by
    rcases hlater with h | h <;> simp [h]
  simp only [takeCredit, modCtx, hx, hrun, hearly]
  rfl

/-- A grant leaves what waits in the context as it was. -/
theorem credited_waiting (x : Ctx) (lo l : Nat) :
    (x.credited lo l).slots = x.slots ∧ (x.credited lo l).waitData = x.waitData := by
  unfold Ctx.credited
  split
  · exact ⟨rfl, rfl⟩
  · exact ⟨rfl, rfl⟩

/-! ### Agreement (R187) -/

/-- Registers that have been handed a committed value take it: only registers change (R412). -/
theorem takeHanded_regs (here : Nat → Bool) (s : State) :
    ∃ regs handed, takeHanded here s = { s with regs := regs, hif := { s.hif with handed := handed } } := by
  have hfold : ∀ (xs : List (Nat × Nat × Nat × Nat)) (u : State),
      ∃ regs, xs.foldl (fun s x => setField x.1 x.2.1 x.2.2.1 x.2.2.2 s) u = { u with regs := regs } := by
    intro xs
    induction xs with
    | nil => exact fun u => ⟨u.regs, rfl⟩
    | cons x xs ih => exact fun u => ih (setField x.1 x.2.1 x.2.2.1 x.2.2.2 u)
  obtain ⟨regs, hregs⟩ := hfold (s.hif.handed.filter (fun x => here x.1)) s
  exact ⟨regs, _, by rw [takeHanded, hregs]⟩

theorem takeHanded_coll (here : Nat → Bool) (s : State) : (takeHanded here s).coll = s.coll := by
  obtain ⟨regs, handed, h⟩ := takeHanded_regs here s
  rw [h]

theorem takeHanded_kept (here : Nat → Bool) (s : State) : CollKept s (takeHanded here s) := by
  obtain ⟨regs, handed, h⟩ := takeHanded_regs here s
  rw [h]
  exact ⟨rfl, rfl, rfl, rfl, rfl, rfl, id, id⟩

/-- A grant leaves the run of the context and its members as they were. -/
theorem credited_run (x : Ctx) (lo l : Nat) :
    (x.credited lo l).state = x.state ∧ (x.credited lo l).seq = x.seq ∧ (x.credited lo l).members = x.members := by
  unfold Ctx.credited
  split
  · exact ⟨rfl, rfl, rfl⟩
  · exact ⟨rfl, rfl, rfl⟩

theorem takeEarly_run (x : Ctx) (seq : BitVec 32) :
    (x.takeEarly seq).state = x.state ∧ (x.takeEarly seq).seq = x.seq ∧ (x.takeEarly seq).members = x.members := by
  have hfold : ∀ (es : List (Nat × Nat × BitVec 32)) (y : Ctx), y.state = x.state ∧ y.seq = x.seq ∧ y.members = x.members →
      let z := es.foldl (fun x e => x.credited e.1 e.2.1) y
      z.state = x.state ∧ z.seq = x.seq ∧ z.members = x.members := by
    intro es
    induction es with
    | nil => exact fun y h => h
    | cons e es ih =>
      intro y hy
      obtain ⟨hstate, hseq, hmembers⟩ := credited_run y e.1 e.2.1
      exact ih (y.credited e.1 e.2.1) ⟨hstate.trans hy.1, hseq.trans hy.2.1, hmembers.trans hy.2.2⟩
  exact hfold _ _ ⟨rfl, rfl, rfl⟩

/-- A context that starts a run is ACTIVE, with its members as they were. -/
theorem startInst_run (c : Nat) (seq : BitVec 32) (s : State) :
    (ctxOf (startInst c seq s) c).state = .active ∧ (ctxOf (startInst c seq s) c).seq = seq ∧
      (ctxOf (startInst c seq s) c).members = (ctxOf s c).members := by
  rw [startInst, ctxOf_congr (congrArg Coll.ctxs (takeHanded_coll _ _)), ctxOf_modCtx]
  exact takeEarly_run _ seq

theorem waits_of_active {x : Ctx} (h : x.state = .active) : x.waits = false := by simp [h]

theorem startInst_kept (c : Nat) (seq : BitVec 32) (s : State) : CollKept s (startInst c seq s) := by
  refine CollKept.trans (CollKept.modCtx (c := c) (waits_of_active ?_)) (takeHanded_kept atInstance _)
  exact (takeEarly_run _ seq).1

/-- A context that waits for a member's descriptor does not agree yet. -/
theorem agree_waits {s : State} {c : Nat} (h : (ctxOf s c).members.any (fun m => m.desc.isEmpty) = true) (fuel : Nat) :
    agree fuel c s = s := by
  have hopen : allAgreed (ctxOf s c) = false := by
    obtain ⟨m, hm, hempty⟩ := List.any_eq_true.1 h
    rw [allAgreed, Bool.and_eq_false_iff]
    exact .inl (List.all_eq_false.2 ⟨m, hm, by simp [hempty]⟩)
  cases fuel with
  | zero => rw [agree]
  | succ fuel => simp [agree, hopen]

/-- The first digest of a run starts it and is its reference (R187). -/
theorem kidAgrees_starts {s : State} {c : Nat} {x : Ctx} (hx : ctxOf s c = x) (hstate : x.state = .idle)
    (hmembers : x.members.any (fun m => m.desc.isEmpty) = true) (fuel lo : Nat) (dg : BitVec 64) (seq : BitVec 32) :
    let t := kidAgrees (fuel + 1) c lo dg seq s
    CollKept s t ∧ (ctxOf t c).state = .active ∧ (ctxOf t c).digest = some dg ∧ (ctxOf t c).seq = seq := by
  obtain ⟨hactive, hseq, hsame⟩ := startInst_run c seq s
  have hkid : kidAgrees (fuel + 1) c lo dg seq s =
      modCtx c (fun x => { x with kids := modFirst (fun k => k.lo == lo) (fun k => { k with agreed := true }) x.kids })
        (modCtx c (fun x => { x with digest := some dg }) (startInst c seq s)) := by
    rw [kidAgrees]
    simp only [hx, hstate]
    exact agree_waits (by simpa [hsame, hx] using hmembers) fuel
  intro t
  simp only [t, hkid]
  refine ⟨?_, by simp [hactive], by simp, by simp [hseq]⟩
  exact (startInst_kept c seq s).trans (.trans (.modCtx (waits_of_active (by simp [hactive])))
    (.modCtx (waits_of_active (by simp [hactive]))))

/-! ### COLL_DONE (R187) -/

/-- Whether the members of a leaf are done follows from its own reference descriptor, which COLL_DONE does not touch. -/
theorem membersDone_doneDown {x : Ctx} (h : x.ref ≠ []) (s t : State) :
    membersDone t { x with doneDown := true } = membersDone s x := by
  have href : refOf t { x with doneDown := true } = refOf s x := by
    rw [refOf_own h, refOf_own (x := { x with doneDown := true }) h]
  simp only [membersDone, expected, contributed, planeN, href]
  rfl

/-- COLL_DONE at a leaf whose members have results to come. -/
theorem doneDown_undone {s : State} {c : Nat} {x : Ctx} (hx : ctxOf s c = x) (hstate : x.state = .active)
    (hdone : x.doneDown = false) (hkids : x.kids = []) (hleaf : x.isLeaf = true) (href : x.ref ≠ [])
    (hmembers : membersDone s x = false) (fuel : Nat) :
    doneDown (fuel + 1) c s = setCtx c { x with doneDown := true } s := by
  have hdown : doneDown (fuel + 1) c s = finishCtx c (modCtx c (fun x => { x with doneDown := true }) s) := by
    simp only [doneDown, hx, hstate, hdone, hkids]
    rfl
  have hnew : ctxOf (modCtx c (fun x => { x with doneDown := true }) s) c = { x with doneDown := true } := by
    rw [ctxOf_modCtx, hx]
  rw [hdown, finishCtx_undone (by rw [hnew]; exact hleaf)
    (by rw [hnew]; exact (membersDone_doneDown href s _).trans hmembers), modCtx, hx]

/-! ### Requests that open a session (R139, R140) -/

theorem memEp_source (s : State) : 0x4800 ≤ (BitVec.ofNat 16 (memEp s)).toNat := by
  have hrack := s.fab.rack.isLt
  have hplane := s.fab.plane.isLt
  simp only [BitVec.toNat_ofNat, memEp, nodeId]
  omega

theorem length_leBytes (n v : Nat) : (leBytes n v).length = n := by
  induction n generalizing v with
  | zero => rfl
  | succ n ih => simp [leBytes, ih]

/-- A frame of the control class that is no request, from this node's own endpoint, takes its place among the control frames of
its egress where there is room; without a route it is lost (R134, R264). -/
theorem submit_control {s : State} {f : Frame} (hcls : f.cls = 0) (htype : f.type ≠ tReq) (hsrc : 0x4800 ≤ f.src.toNat)
    (hroom : controlCells s + f.cells ≤ 8192) : ∃ eg, submit f s = { s with sw := { s.sw with eg := eg } } := by
  unfold submit
  split
  · next e _ =>
    have hcopy : isCopy s f = false := by
      rw [isCopy, beq_eq_false_iff_ne.2 htype]
      rfl
    have hport : originPort s f = none := by simp [originPort, Nat.not_lt.2 hsrc]
    have hwhole : mayCut s (originRate s f) e f = false := by simp [mayCut, hcls]
    simp only [enter, hcopy, submitTo, join, hcls, hroom, hport, cutThrough, hwhole]
    exact ⟨_, rfl⟩
  · exact ⟨s.sw.eg, rfl⟩

/-- From `s` to `t` a session has begun for a stream that had none, and its OPEN may have gone out. -/
structure Opening (s t : State) : Prop where
  mov : t.mov = s.mov
  att : t.att = s.att
  cxl : t.hif.cxl = s.hif.cxl
  parked : t.sw.parked = s.sw.parked
  ended : t.trn.ended = s.trn.ended
  coll : t.coll = s.coll
  reqs : t.trn.reqs = s.trn.reqs
  send : ∀ c ∈ t.trn.send, c.state = .opening

theorem Opening.trans {s t u : State} (h : Opening s t) (h' : Opening t u) : Opening s u where
  mov := h'.mov.trans h.mov
  att := h'.att.trans h.att
  cxl := h'.cxl.trans h.cxl
  parked := h'.parked.trans h.parked
  ended := h'.ended.trans h.ended
  coll := h'.coll.trans h.coll
  reqs := h'.reqs.trans h.reqs
  send := h'.send

theorem Opening.kept {s t : State} (h : Opening s t) : CollKept s t where
  mov := h.mov
  att := h.att
  cxl := h.cxl
  parked := h.parked
  ended := h.ended
  writes := by rw [h.coll]
  ctxs := by simp [h.coll]
  send _ := List.any_eq_false.2 fun c hc => by simp [h.send c hc]

theorem openFrame_parts (s : State) (c : SendCtx) :
    (openFrame s c).cls = 0 ∧ (openFrame s c).type = tOpen ∧ (openFrame s c).src = c.sid.src ∧ (openFrame s c).cells = 1 := by
  refine ⟨rfl, rfl, rfl, ?_⟩
  have hlength : (openFrame s c).payload.length = 16 := by
    simp [openFrame, ctlFrame, Frame.seal, sessionPayload, beBytes, length_leBytes]
  simp [Frame.cells, Frame.size, hlength, ceilDiv]

theorem sendOpen_opening {s : State} {c : SendCtx} (hsrc : 0x4800 ≤ c.sid.src.toNat) (hroom : controlCells s < 8192)
    (hsend : ∀ d ∈ s.trn.send, d.state = .opening) : Opening s (sendOpen c s) := by
  unfold sendOpen
  dsimp only
  split
  · obtain ⟨hcls, htype, hfrom, hcells⟩ := openFrame_parts s c
    obtain ⟨eg, heg⟩ := submit_control (f := openFrame s c) hcls (by rw [htype]; decide) (by rw [hfrom]; exact hsrc)
      (s := { s with trn := { s.trn with openAt := s.trn.openAt.filter (fun t => decide (now s < t + tickUs)) ++ [now s] } })
      (by rw [hcells]; exact hroom)
    rw [heg]
    exact ⟨rfl, rfl, rfl, rfl, rfl, rfl, rfl, hsend⟩
  · exact ⟨rfl, rfl, rfl, rfl, rfl, rfl, rfl, hsend⟩

/-- The one send context is `c`. -/
def withSend (ip : BitVec 32) (stamp : Nat) (c : SendCtx) (s : State) : State :=
  { s with trn := { s.trn with ipsn := ip, stamp := stamp, send := [c] } }

theorem withSend_opening {c : SendCtx} (hstate : c.state = .opening) (ip : BitVec 32) (stamp : Nat) (s : State) :
    Opening s (withSend ip stamp c s) :=
  ⟨rfl, rfl, rfl, rfl, rfl, rfl, rfl, by simp [withSend, hstate]⟩

theorem modSend_withSend (ip : BitVec 32) (stamp : Nat) (c : SendCtx) (f : SendCtx → SendCtx) (s : State) :
    modSend c.num f (withSend ip stamp c s) = withSend ip stamp (f c) s := by
  rw [modSend, withSend, modFirst_one (by simp), withSend]

theorem sendOf_withSend (ip : BitVec 32) (stamp : Nat) (c : SendCtx) (s : State) :
    sendOf (withSend ip stamp c s) c.num = some c := by simp [sendOf, withSend]

/-- A send context with the first PSN and the window its OPEN is sent with. -/
def SendCtx.asking (ip : BitVec 32) (cwnd : Nat) (c : SendCtx) : SendCtx :=
  { c with starved := false, ipsn := ip, next := ip, cwnd := cwnd }

theorem openCtx_withSend (ip : BitVec 32) (stamp : Nat) (c : SendCtx) (s : State) :
    openCtx c.num (withSend ip stamp c s) =
      sendOpen (c.asking ip (cwInit s)) (withSend (ip + 65536) stamp (c.asking ip (cwInit s)) s) := by
  have hmod := modSend_withSend (ip + 65536) stamp c (SendCtx.asking ip (cwInit s)) s
  have hof := sendOf_withSend (ip + 65536) stamp (c.asking ip (cwInit s)) s
  unfold openCtx
  refine Eq.trans (congrArg (fun u : State => match sendOf u c.num with | some d => sendOpen d u | none => u) hmod) ?_
  rw [show sendOf _ c.num = _ from hof]

/-- The first session of a device begins. -/
theorem newSend_opening {s : State} {sid : StreamId} (hsend : s.trn.send = []) (hsrc : 0x4800 ≤ sid.src.toNat)
    (hroom : controlCells s < 8192) (host succ : Bool) (prevEnd : BitVec 32) (waiting : List (Frame × Nat)) :
    Opening s (newSend sid host succ prevEnd waiting s) := by
  unfold newSend
  dsimp only
  rw [hsend, List.nil_append]
  split
  · exact cast (congrArg (Opening s) (openCtx_withSend s.trn.ipsn (s.trn.stamp + 1) _ s).symm)
      (.trans (withSend_opening rfl _ _ s) (sendOpen_opening hsrc hroom (by simp [withSend, SendCtx.asking])))
  · split
    · next d hd =>
      have hidle : ∀ u : State, ∀ c : SendCtx, u.trn.send = [c] → c.starved = true → ∀ n, lruIdle u n = none := by
        intro u c hu hc n
        simp [lruIdle, hu, hc]
      rw [hidle _ _ rfl rfl, ite_self] at hd
      cases hd
    · exact ⟨rfl, rfl, rfl, rfl, rfl, rfl, rfl, by simp⟩

/-- The first request of a device opens a session, and is among its requests. -/
theorem sendColl_first {s : State} (hsend : s.trn.send = []) (hroom : controlCells s < 8192) (c : Nat) (opc : BitVec 8)
    (cls : BitVec 2) (dst chunk lo hi : Nat) (bs : Bytes) :
    let t := sendColl c opc cls dst chunk lo hi bs s
    CollKept s t ∧ t.coll = s.coll ∧
      t.trn.reqs.any (fun q => q.origin == .coll c chunk && q.opc == opc && q.sid.dst == BitVec.ofNat 16 dst) = true := by
  intro t
  let x := ctxOf s c
  let frames := collFrames s x (beField x.descr 0 1) opc cls dst chunk lo hi bs
  let r : FabReq := { id := s.trn.nextReq, origin := .coll c chunk, opc := opc, left := frames.length, need := featNeed (refOf s x),
                      sid := ⟨BitVec.ofNat 16 (memEp s), BitVec.ofNat 16 dst, false, x.tenant⟩ }
  let u : State := { s with trn := { s.trn with nextReq := r.id + 1, reqs := s.trn.reqs ++ [r] } }
  have hnone : curSend u r.sid = none := by simp [curSend, u, hsend]
  have ht : t = newSend r.sid false false 0 (frames.map (fun f => (f, r.id))) u := by
    simp only [t, sendColl, sendNeeding]
    rw [show curSend _ _ = none from hnone]
  have hu : CollKept s u := ⟨rfl, rfl, rfl, rfl, rfl, rfl, id, id⟩
  have hopening : Opening u t := by
    rw [ht]
    exact newSend_opening (s := u) hsend (memEp_source s) hroom _ _ _ _
  refine ⟨hu.trans hopening.kept, hopening.coll, ?_⟩
  rw [hopening.reqs]
  simp [u, r]

/-! ### Results on their way down (R193) -/

/-- A result at a node whose only child is at another node goes on to that child. -/
theorem resultDown_child {s : State} {c : Nat} {x : Ctx} {j : Kid} (hx : ctxOf s c = x) (hmembers : x.members = [])
    (hkids : x.kids = [j]) (hnode : j.node ≠ nodeId s) (hroot : x.isRoot = false) (hdone : x.doneDown = false)
    (hstate : x.state = .active) (hsend : s.trn.send = []) (hroom : controlCells s < 8192) (fuel k : Nat) (cls : BitVec 2) (bs : Bytes) :
    let t := resultDown (fuel + 1) c k cls bs s
    CollKept s t ∧ (ctxOf t c).outs = x.outs + 1 ∧
      t.trn.reqs.any (fun q => q.origin == .coll c k && q.opc == 0x41 && q.sid.dst == BitVec.ofNat 16 (epOfNode j.node)) = true := by
  obtain ⟨hkept, hcoll, hreq⟩ := sendColl_first hsend hroom c 0x41 cls (epOfNode j.node) k j.lo j.hi bs
  let u := sendColl c 0x41 cls (epOfNode j.node) k j.lo j.hi bs s
  have hu : ctxOf u c = x := by rw [ctxOf_congr (congrArg Coll.ctxs hcoll), hx]
  have hdown : resultDown (fuel + 1) c k cls bs s = modCtx c (fun x => { x with outs := x.outs + 1 }) u := by
    have hlater : ctxOf (modCtx c (fun x => { x with outs := x.outs + 1 }) u) c = { x with outs := x.outs + 1 } := by
      rw [ctxOf_modCtx, hu]
    rw [resultDown]
    simp only [hx, hmembers, hkids, each, List.foldl_cons, List.foldl_nil, if_neg hnode, hroot]
    exact finishCtx_early (by rw [hlater]; exact hdone)
  intro t
  simp only [t, hdown]
  refine ⟨hkept.trans (.modCtx ?_), ?_, hreq⟩
  · rw [hu]
    exact waits_of_active hstate
  · rw [ctxOf_modCtx, hu]

/-! ### What each frame does (R187, R191, R193, R214) -/

/-- A first partial is held in its slot until the chunk's others come. -/
theorem collFrameAt_chunk {s : State} {f : Frame} {k : Nat} {x : Ctx} (hopc : f.opc = 0x40) (hfirst : f.first = true)
    (hlast : f.last = true) (honly : ctxsOf s f.tenant f.handle = [(k, x)]) (hparent : parentCtx s f = some (k, x))
    (hx : ctxOf s k = x) (hleaf : x.isLeaf = false) (hslots : x.slots = []) (htakes : takesPartial s x f.chunk = true)
    (found : SlotReads) :
    collFrameAt f found s = setCtx k { x with slots := [{ chunk := f.chunk, part := some f.payload }] } s := by
  simp only [collFrameAt, hopc, gatherFrames_whole hfirst hlast, hparent, htakes, childPartial_first hx hslots, if_true]
  exact turnHandle_setCtx _ honly (by simp) (.inr ⟨hleaf, hleaf⟩)

/-- A result of one frame for this node goes down the tree. -/
theorem collFrameAt_result {s : State} {f : Frame} {k : Nat} {x : Ctx} (hopc : f.opc = 0x41) (hfirst : f.first = true)
    (hlast : f.last = true) (hdst : 0x4800 ≤ f.dst.toNat) (hcover : coverCtx s f = some (k, x)) (found : SlotReads) :
    collFrameAt f found s = resultDown 16 k f.chunk f.cls f.payload s := by
  simp [collFrameAt, hopc, gatherFrames_whole hfirst hlast, Nat.not_lt.2 hdst, hcover]

/-- A grant to a gather is its leaf's, and sends what waits there. -/
theorem collFrameAt_credit_gather {s : State} {f : Frame} {l : Nat × Ctx} (hopc : f.opc = 0x42)
    (hleaf : leafOf s f.tenant f.handle = some l) (hgather : (parseDesc l.2.descr).reduces = false) (found : SlotReads) :
    collFrameAt f found s = serve l.1 (takeCredit l.1 f.loIdx (beField f.payload 0 8) (BitVec.ofNat 32 f.chunk) s) := by
  simp [collFrameAt, hopc, hleaf, hgather]

/-- A grant to a reduction is that of the node it names. -/
theorem collFrameAt_credit_reduction {s : State} {f : Frame} {l y : Nat × Ctx} (hopc : f.opc = 0x42)
    (hleaf : leafOf s f.tenant f.handle = some l) (hreduces : (parseDesc l.2.descr).reduces = true)
    (hcover : coverCtx s f = some y) (found : SlotReads) :
    collFrameAt f found s = turnHandle found.next f.tenant f.handle
      (takeCredit y.1 f.loIdx (beField f.payload 0 8) (BitVec.ofNat 32 f.chunk) s) := by
  simp [collFrameAt, hopc, hleaf, hreduces, hcover]

theorem collFrameAt_desc {s : State} {f : Frame} {y : Nat × Ctx} (hopc : f.opc = 0x43) (hparent : parentCtx s f = some y)
    (found : SlotReads) :
    collFrameAt f found s =
      kidAgrees 20 y.1 f.loIdx (BitVec.ofNat 64 (beField f.payload 0 8)) (BitVec.ofNat 32 (beField f.payload 8 4)) s := by
  simp [collFrameAt, hopc, hparent]

theorem collFrameAt_done {s : State} {f : Frame} {y : Nat × Ctx} (hopc : f.opc = 0x44) (hcover : coverCtx s f = some y)
    (hseq : y.2.seq.toNat = beField f.payload 0 4) (found : SlotReads) :
    collFrameAt f found s = doneDown 16 y.1 s := by
  simp [collFrameAt, hopc, hcover, hseq]

/-! ### A collective row on a device at rest -/

/-- The row of a collective frame in its turn: contexts and requests are as the frame leaves them. -/
theorem collRow_next {s : State} {f : Frame} {r : RecvCtx} {opc : BitVec 8} {found : SlotReads} (hs : AtRest s)
    (h : InTurn s f r) (hopc : f.opc = opc) (hcoll : 0x40 ≤ opc.toNat ∧ opc.toNat ≤ 0x44)
    (hnames : f.red = true → namesCtx s f = true)
    (hkept : ∀ rs, CollKept (withRecv rs s) (collFrameAt f found (withRecv rs s))) :
    ∃ rs t, run { xlat := true, data := true } s (opArrives opc found f) = .next t ∧
      t.coll = (collFrameAt f found (withRecv rs s)).coll ∧ t.trn = (collFrameAt f found (withRecv rs s)).trn := by
  obtain ⟨rs, harrives⟩ := opArrives_inTurn h hopc hcoll hnames found
  obtain ⟨t, hrun, ht⟩ := CollKept.run (r := { xlat := true, data := true }) (s := s) (f := opArrives opc found f)
    (by rw [harrives]; exact (withRecv_kept rs s).trans (hkept rs)) rfl hs
  exact ⟨rs, t, hrun, by rw [← harrives]; exact ht⟩

/-- The row of a frame that writes one context. -/
theorem collRow_setCtx {s : State} {f : Frame} {r : RecvCtx} {opc : BitVec 8} {found : SlotReads} {c : Nat} {y : Ctx}
    (hs : AtRest s) (h : InTurn s f r) (hopc : f.opc = opc) (hcoll : 0x40 ≤ opc.toNat ∧ opc.toNat ≤ 0x44)
    (hnames : f.red = true → namesCtx s f = true) (hy : y.waits = false)
    (heffect : ∀ rs, collFrameAt f found (withRecv rs s) = setCtx c y (withRecv rs s)) :
    ∃ t, run { xlat := true, data := true } s (opArrives opc found f) = .next t ∧ ctxOf t c = y := by
  obtain ⟨rs, t, hrun, hcoll, -⟩ := collRow_next hs h hopc hcoll hnames
    (fun rs => by rw [heffect]; exact .setCtx c hy)
  refine ⟨t, hrun, ?_⟩
  rw [ctxOf_congr (congrArg Coll.ctxs hcoll), heffect, ctxOf_setCtx]

/-- RED is 0 in a COLL_RESULT (R125). -/
theorem red_of_result {f : Frame} (hok : reqFrameOk f = true) (hopc : f.opc = 0x41) : f.red = false := by
  have hcoll : collReqOk f = true := by
    simp only [reqFrameOk, hopc, Bool.and_eq_true] at hok
    obtain ⟨⟨-, hbody⟩, -⟩ := hok
    exact hbody
  simp only [collReqOk, hopc, Bool.and_eq_true] at hcoll
  obtain ⟨⟨-, hred⟩, -⟩ := hcoll
  simpa using hred

/-! ### The rows -/

section
variable {s : State} {f : Frame} {r : RecvCtx} {k : Nat} {x : Ctx}

/-- COLL_CHUNK (R214). -/
theorem collChunk_held (hs : AtRest s) (hopc : f.opc = 0x40) (h : InTurn s f r) (honly : ctxsOf s f.tenant f.handle = [(k, x)])
    (hparent : parentCtx s f = some (k, x)) (hx : ctxOf s k = x) (hleaf : x.isLeaf = false) (hslots : x.slots = [])
    (htakes : takesPartial s x f.chunk = true) (found : SlotReads) :
    ∃ t, exec (.collChunk f found) s = .next t ∧ (ctxOf t k).slots = [{ chunk := f.chunk, part := some f.payload }] := by
  have hwaits : x.waits = false := hx ▸ ctxOf_waits hs.2 k
  obtain ⟨t, hrun, ht⟩ := collRow_setCtx (found := found) (c := k)
    (y := { x with slots := [{ chunk := f.chunk, part := some f.payload }] }) hs h hopc (by decide)
    (fun _ => by simp [namesCtx, hopc, hparent]) hwaits
    (fun rs => collFrameAt_chunk (s := withRecv rs s) hopc h.first h.last honly hparent hx hleaf hslots htakes found)
  exact ⟨t, hrun, by rw [ht]⟩

/-- COLL_CREDIT at a gather that runs (R191). -/
theorem collCredit_granted (hs : AtRest s) (hopc : f.opc = 0x42) (h : InTurn s f r)
    (hleaf : leafOf s f.tenant f.handle = some (k, x)) (hx : ctxOf s k = x) (hgather : (parseDesc x.descr).reduces = false)
    (hdata : x.waitData = []) (hstate : x.state = .active) (hseq : x.seq = BitVec.ofNat 32 f.chunk) (up : CelReads) :
    ∃ t, exec (.collCredit ⟨f, up⟩) s = .next t ∧
      (ctxOf t k).grants = x.grants.filter (fun g => !(g.1 == f.loIdx)) ++ [(f.loIdx, beField f.payload 0 8)] := by
  obtain ⟨t, hrun, ht⟩ := collRow_setCtx (found := ⟨.clean, up⟩) (c := k)
    (y := x.credited f.loIdx (beField f.payload 0 8)) hs h hopc (by decide)
    (fun _ => by simp [namesCtx, hopc, hleaf, hgather]) (waits_of_active ((credited_run x _ _).1.trans hstate)) fun rs => by
      rw [collFrameAt_credit_gather (s := withRecv rs s) hopc hleaf hgather, takeCredit_running (s := withRecv rs s) hx hstate hseq]
      exact serve_nothing (by rw [ctxOf_setCtx, (credited_waiting x _ _).2, hdata])
  exact ⟨t, hrun, by rw [ht]; simp [Ctx.credited, hgather]⟩

/-- COLL_CREDIT of a run to come (R192). -/
theorem collCredit_early (hs : AtRest s) (hopc : f.opc = 0x42) (h : InTurn s f r)
    (hleaf : leafOf s f.tenant f.handle = some (k, x)) (hx : ctxOf s k = x) (hgather : (parseDesc x.descr).reduces = false)
    (hdata : x.waitData = []) (hlater : x.ran = false ∨ 0 < psnDiff (BitVec.ofNat 32 f.chunk) x.seq)
    (hother : x.state ≠ .active ∨ x.seq ≠ BitVec.ofNat 32 f.chunk) (up : CelReads) :
    ∃ t, exec (.collCredit ⟨f, up⟩) s = .next t ∧
      (ctxOf t k).early = x.early ++ [(f.loIdx, beField f.payload 0 8, BitVec.ofNat 32 f.chunk)] ∧ (ctxOf t k).grants = x.grants := by
  have hwaits : x.waits = false := hx ▸ ctxOf_waits hs.2 k
  obtain ⟨t, hrun, ht⟩ := collRow_setCtx (found := ⟨.clean, up⟩) (c := k)
    (y := { x with early := x.early ++ [(f.loIdx, beField f.payload 0 8, BitVec.ofNat 32 f.chunk)] }) hs h hopc (by decide)
    (fun _ => by simp [namesCtx, hopc, hleaf, hgather]) hwaits fun rs => by
      rw [collFrameAt_credit_gather (s := withRecv rs s) hopc hleaf hgather, takeCredit_early (s := withRecv rs s) hx hlater hother]
      exact serve_nothing (by rw [ctxOf_setCtx, hdata])
  exact ⟨t, hrun, by rw [ht], by rw [ht]⟩

/-- COLL_CREDIT at a reduction that runs (R191). -/
theorem collCredit_limit (hs : AtRest s) (hopc : f.opc = 0x42) (h : InTurn s f r)
    (honly : ctxsOf s f.tenant f.handle = [(k, x)]) (hleaf : leafOf s f.tenant f.handle = some (k, x))
    (hcover : coverCtx s f = some (k, x)) (hx : ctxOf s k = x) (hreduces : (parseDesc x.descr).reduces = true)
    (hdata : x.waitData = []) (hslots : x.slots = []) (hstate : x.state = .active) (hseq : x.seq = BitVec.ofNat 32 f.chunk)
    (up : CelReads) :
    ∃ t, exec (.collCredit ⟨f, up⟩) s = .next t ∧ (ctxOf t k).limit = Nat.max x.limit (beField f.payload 0 8) := by
  obtain ⟨t, hrun, ht⟩ := collRow_setCtx (found := ⟨.clean, up⟩) (c := k)
    (y := x.credited f.loIdx (beField f.payload 0 8)) hs h hopc (by decide)
    (fun _ => by simp [namesCtx, hopc, hleaf, hcover]) (waits_of_active ((credited_run x _ _).1.trans hstate)) fun rs => by
      obtain ⟨hsame, hwait⟩ := credited_waiting x f.loIdx (beField f.payload 0 8)
      rw [collFrameAt_credit_reduction (s := withRecv rs s) hopc hleaf hreduces hcover,
        takeCredit_running (s := withRecv rs s) hx hstate hseq]
      exact turnHandle_setCtx (s := withRecv rs s) _ honly (by simp [hsame, hslots]) (.inl (hwait.trans hdata))
  exact ⟨t, hrun, by rw [ht]; simp [Ctx.credited, hreduces]⟩

/-- COLL_DONE at a leaf whose members have results to come (R187). -/
theorem collDone_down (hs : AtRest s) (hopc : f.opc = 0x44) (h : InTurn s f r) (hcover : coverCtx s f = some (k, x))
    (hx : ctxOf s k = x) (hseq : x.seq.toNat = beField f.payload 0 4) (hstate : x.state = .active) (hdone : x.doneDown = false)
    (hkids : x.kids = []) (hleaf : x.isLeaf = true) (href : x.ref ≠ []) (hmembers : membersDone s x = false) :
    ∃ t, exec (.collDone f) s = .next t ∧ (ctxOf t k).doneDown = true ∧ (ctxOf t k).state = .active := by
  obtain ⟨t, hrun, ht⟩ := collRow_setCtx (found := .clean) (c := k) (y := { x with doneDown := true }) hs h hopc (by decide)
    (fun _ => by simp [namesCtx, hopc, hcover]) (waits_of_active hstate) fun rs =>
      (collFrameAt_done (s := withRecv rs s) hopc hcover hseq _).trans
        (doneDown_undone (s := withRecv rs s) hx hstate hdone hkids hleaf href hmembers 15)
  exact ⟨t, hrun, by rw [ht], by rw [ht]; exact hstate⟩

/-- COLL_DESC that starts a run (R187). -/
theorem collDesc_starts (hs : AtRest s) (hopc : f.opc = 0x43) (h : InTurn s f r) (hparent : parentCtx s f = some (k, x))
    (hx : ctxOf s k = x) (hstate : x.state = .idle) (hmembers : x.members.any (fun m => m.desc.isEmpty) = true) :
    ∃ t, exec (.collDesc f) s = .next t ∧ (ctxOf t k).state = .active ∧
      (ctxOf t k).digest = some (BitVec.ofNat 64 (beField f.payload 0 8)) ∧
      (ctxOf t k).seq = BitVec.ofNat 32 (beField f.payload 8 4) := by
  have heffect (rs : List RecvCtx) := kidAgrees_starts (s := withRecv rs s) hx hstate hmembers 19 f.loIdx
    (BitVec.ofNat 64 (beField f.payload 0 8)) (BitVec.ofNat 32 (beField f.payload 8 4))
  have hframe (rs : List RecvCtx) := collFrameAt_desc (s := withRecv rs s) hopc hparent .clean
  obtain ⟨rs, t, hrun, hcoll, -⟩ := collRow_next (found := .clean) hs h hopc (by decide)
    (fun _ => by simp [namesCtx, hopc, hparent]) (fun rs => by rw [hframe]; exact (heffect rs).1)
  refine ⟨t, hrun, ?_⟩
  rw [ctxOf_congr (congrArg Coll.ctxs hcoll), hframe]
  exact (heffect rs).2

/-- COLL_RESULT at a node with one child, at another node (R193). -/
theorem collResult_down {j : Kid} (hs : AtRest s) (hopc : f.opc = 0x41) (h : InTurn s f r) (hdst : f.dst.toNat = memEp s)
    (hcover : coverCtx s f = some (k, x)) (hx : ctxOf s k = x) (hstate : x.state = .active) (hmembers : x.members = [])
    (hkids : x.kids = [j]) (hnode : j.node ≠ nodeId s) (hroot : x.isRoot = false) (hdone : x.doneDown = false)
    (hsend : s.trn.send = []) (hroom : controlCells s < 8192) :
    ∃ t, exec (.collResult f) s = .next t ∧ (ctxOf t k).outs = x.outs + 1 ∧
      t.trn.reqs.any (fun q => q.origin == .coll k f.chunk && q.opc == 0x41 && q.sid.dst == BitVec.ofNat 16 (epOfNode j.node)) =
        true := by
  have heffect (rs : List RecvCtx) := resultDown_child (s := withRecv rs s) hx hmembers hkids hnode hroot hdone hstate hsend hroom
    15 f.chunk f.cls f.payload
  have hframe (rs : List RecvCtx) := collFrameAt_result (s := withRecv rs s) hopc h.first h.last
    (by simp only [hdst, memEp, nodeId]; omega) hcover .clean
  have hred : f.red = false := by
    obtain ⟨-, hok, -⟩ := h.served
    exact red_of_result hok hopc
  obtain ⟨rs, t, hrun, hcoll, htrn⟩ := collRow_next (found := .clean) hs h hopc (by decide) (fun hr => by simp [hred] at hr)
    (fun rs => by rw [hframe]; exact (heffect rs).1)
  refine ⟨t, hrun, ?_⟩
  rw [ctxOf_congr (congrArg Coll.ctxs hcoll), htrn, hframe]
  exact (heffect rs).2

end

/-- Settles O54: each frame, in its turn at a device at rest, does at its context what its row says (R187, R191, R193, R214). -/
theorem collectiveFrames : Obligations.CollectiveFrames := by
  unfold Obligations.CollectiveFrames
  refine ⟨?chunk, ?result, ?credit, ?desc, ?done, ?early, ?limit⟩
  case chunk =>
    exact fun s f r k x ecc up hs hopc => InTurn.intro fun h honly hparent hx hleaf hslots htakes =>
      collChunk_held hs hopc h honly hparent hx hleaf hslots htakes ⟨ecc, up⟩
  case result =>
    exact fun s f r k x j hs hopc => InTurn.intro fun h hdst _ hcover hx hstate hmembers hkids hnode hroot hdone _ hsend _ hroom =>
      collResult_down hs hopc h hdst hcover hx hstate hmembers hkids hnode hroot hdone hsend hroom
  case credit =>
    exact fun s f r k x up hs hopc => InTurn.intro fun h hleaf hx hgather hdata hstate hseq =>
      collCredit_granted hs hopc h hleaf hx hgather hdata hstate hseq up
  case desc =>
    exact fun s f r k x hs hopc => InTurn.intro fun h hparent hx hstate _ _ hmembers =>
      collDesc_starts hs hopc h hparent hx hstate hmembers
  case done =>
    exact fun s f r k x hs hopc => InTurn.intro fun h hcover hx hseq hstate hdone hkids hleaf href hmembers =>
      collDone_down hs hopc h hcover hx hseq hstate hdone hkids hleaf href hmembers
  case early =>
    exact fun s f r k x up hs hopc => InTurn.intro fun h hleaf hx hgather hdata hlater hother =>
      collCredit_early hs hopc h hleaf hx hgather hdata hlater hother up
  case limit =>
    exact fun s f r k x up hs hopc => InTurn.intro fun h honly hleaf hcover hx hreduces hdata hslots hstate hseq =>
      collCredit_limit hs hopc h honly hleaf hcover hx hreduces hdata hslots hstate hseq up

end Sys2Proof.Machine
end

section
/-!
PROOFS. The reduction array (R206, R213, R226, R232), in one statement, which fails: of a leaf and its parent on the same device
it does not ask that they work on the same one of their instances, and an abort is of one only (R187, R199).
-/

namespace Sys2Proof.Machine
open Sys2Proof

/-! ### A leaf and its parent in different instances (R187, R232) -/

/-- The only contribution to chunk 0 at the leaf has landed, and is not combined yet. -/
def landedSlot : Slot := { chunk := 0, landed := [(0, List.replicate 512 1)] }

/-- The leaf of the accelerator at A-port 5, in its first run (R187). Its parent is on this device, node 0. -/
def firstLeaf : Ctx :=
  { reduceCtx with
    state := .active, role := .leaf, celSet := some 0, members := [{ memberFive with desc := reduceDesc }], parent := some 0
    hi := 0, ids := [5, 77], ref := reduceDesc.take 40, agreed := true, seq := 1, slots := [landedSlot] }

/-- The other child's partial of chunk 0 is in the slot. -/
def partialSlot : Slot := { chunk := 0, part := some (List.replicate 512 1) }

/-- The root, in its second run: its children are the leaf here and one on node 8. -/
def secondRoot : Ctx :=
  { firstLeaf with
    role := .root, members := [], parent := none, hi := 1, seq := 2, slots := [partialSlot]
    kids := [{ node := 0, lo := 0, hi := 0 }, { node := 8, lo := 1, hi := 1, agreed := true }] }

/-- A device at rest with the leaf as context 6 and the root as context 7. -/
def instancesApart : State :=
  { State.reset with
    chip := { running := true, perstN := true }
    coll := { ctxs := [(6, firstLeaf), (7, secondRoot)] } }

/-- The slot that the leaf's partial is added to does not read. -/
def partialLost : CelReads := { CelReads.clean with up := .uncorrectable }

/-- The root's run aborts, and with it every context that takes part in it; the leaf is in another one, and goes on. -/
theorem chunkEvaluate_instancesApart :
    ∃ t, exec (.chunkEvaluate 6 0 ⟨.clean, .clean, partialLost⟩) instancesApart = .next t ∧
      (ctxOf t 6).state = .active ∧ (ctxOf t 7).state = .aborted :=
  ⟨_, rfl, by decide +kernel⟩

/-- Refutes O56: its clause on a partial that is added to an uncorrectable slot is also about a leaf and a parent in different
instances, where the leaf does not abort (R187, R199, R232). -/
theorem not_reductionArray : ¬ Obligations.ReductionArray := by
  unfold Obligations.ReductionArray
  rintro ⟨-, -, -, -, hlost, -⟩
  obtain ⟨t, ht, hactive, -⟩ := chunkEvaluate_instancesApart
  obtain ⟨u, hu, haborted, -⟩ := hlost instancesApart 6 0 .clean .clean partialLost firstLeaf landedSlot 7 secondRoot partialSlot
    (List.replicate 512 1) (by decide +kernel) (by decide +kernel) rfl rfl (by decide +kernel) rfl rfl rfl (by decide +kernel)
    rfl rfl (by decide) (by decide) (by decide) (by decide +kernel) (by decide +kernel) rfl rfl (by decide) rfl
    (by decide +kernel) rfl rfl (by decide +kernel) (by decide +kernel) (by decide +kernel) rfl rfl rfl rfl rfl
    (by decide +kernel)
  obtain rfl := exec_next_unique ht hu
  exact absurd (hactive.symm.trans haborted) (by decide)

end Sys2Proof.Machine
end

section
/-!
PROOFS. Fabric memory and moves (R46, R246 to R255): five statements, each of which fails. One asks for an ACCEPT at once and
leaves RECOVER open, where it waits at the link (R292, R297). Two have an Almanac's MOVE report its end though its load is gone
(R161, R165). Two are about every device at rest, and so also about states that no run from reset is known to reach: one where a
frame lies in an egress queue that no tenant can have (R267, R437), and one where an access number is taken twice. In each of the
five a concrete state meets the statement's hypotheses, and its command is run to an outcome that the statement denies.
-/

namespace Sys2Proof.Machine
open Sys2Proof

/-! ### A RELEASE_MARK on a port in RECOVER (R46) -/

/-- A RELEASE_MARK of tag 77 at scope 2. -/
def markRequest : AttMsg := { opc := 8, tag := 77, scope := 2 }

/-- The mark is taken; its ACCEPT waits, and the CREDIT for its units behind it. -/
theorem releaseMark_recovering : ∃ t, exec (.releaseMark 5 markRequest) (recovering grantedSess) = .next t ∧ t.out = [] ∧
    (sess t 5).toLink = [{ opc := 0x3D, msn := markRequest.msn }, { opc := 0x3F, addr := 0x1000000000000 }] :=
  ⟨_, rfl, by decide +kernel⟩

/-- Refutes O38: a RELEASE_MARK may be taken while its port is in RECOVER, and then its ACCEPT waits at the link (R37, R297). -/
theorem not_movesMarksAndAnswers : ¬ Obligations.MovesMarksAndAnswers := by
  unfold Obligations.MovesMarksAndAnswers
  rintro ⟨-, hmark, -⟩
  obtain ⟨t, ht, hout, -⟩ := releaseMark_recovering
  obtain ⟨u, hu, hputs, -⟩ := hmark (recovering grantedSess) 5 markRequest (by decide +kernel) (by decide +kernel)
    (by decide +kernel)
  exact not_puts_of_silent ht hout hu hputs

/-! ### MOVEs of a load that is gone (R161, R165) -/

/-- A running device whose only MOVE is `orphanMove`, in phase `ph`. -/
def orphanAlone (ph : MovePhase) : State :=
  { State.reset with
    chip := { running := true, perstN := true }
    mov := { moves := [{ orphanMove with phase := ph }], nextMove := 2 } }

/-- Engine 0 comes to a page of `orphanMove`, whose tenant has no slot: the MOVE ends, and no Almanac hears of it. -/
theorem movePage_orphan : ∃ t, exec (.movePage 0 ⟨(.clean, .clean), [], none⟩) (orphanAlone .start) = .next t ∧
    t.mov.moves = [] ∧ t.mov.doneDesc = [] :=
  ⟨_, rfl, by decide +kernel⟩

/-- Refutes O57: a MOVE of a load that is gone has JOB_ID 0, and when its engine finds its tenant fenced it ends without a report
to an Almanac (R161, R165). -/
theorem not_movesRun : ¬ Obligations.MovesRun := by
  unfold Obligations.MovesRun
  rintro ⟨-, -, -, -, -, -, -, -, -, -, hfenced, -⟩
  obtain ⟨t, ht, -, hnone⟩ := movePage_orphan
  obtain ⟨u, hu, -, hreport⟩ := hfenced (orphanAlone .start) 0 { orphanMove with phase := .start } (.clean, .clean) [] none 0 0 0
    (by decide +kernel) rfl rfl rfl (by decide +kernel) rfl
  simp [exec_next_unique ht hu, hnone] at hreport

/-- `orphanMove` is parked on fault record 0, for a page that has no pinned mapping. -/
def orphanParked : State :=
  { orphanAlone (.parked 0) with
    mov := { (orphanAlone (.parked 0)).mov with faults := [{ num := 0, key := pageKeyOf 1 (2 ^ 63), since := 0 }] } }

/-- The record's time is over: the MOVE ends, and no Almanac hears of it. -/
theorem faultRecordExpire_orphan : ∃ t, exec (.faultRecordExpire 0) orphanParked = .next t ∧
    t.mov.moves = [] ∧ t.mov.doneDesc = [] :=
  ⟨_, rfl, by decide +kernel⟩

/-- Refutes O58: a MOVE of a load that is gone has JOB_ID 0, and when the fault record it is parked on expires it ends without a
report to an Almanac (R161, R165, R255). -/
theorem not_movesSubmitted : ¬ Obligations.MovesSubmitted := by
  unfold Obligations.MovesSubmitted
  rintro ⟨-, -, -, -, -, -, -, -, -, -, -, hexpire, -⟩
  obtain ⟨t, ht, -, hnone⟩ := faultRecordExpire_orphan
  obtain ⟨u, hu, -, -, hreport, -⟩ := hexpire orphanParked 0 { orphanMove with phase := .parked 0 } 0 0 0 (by decide +kernel)
    (by decide +kernel) (by decide +kernel) rfl
  simp [exec_next_unique ht hu, hnone] at hreport

/-! ### A frame in an egress queue that no tenant has (R101, R266 to R268) -/

/-- A running device whose host link is up. Window 0 maps the device physical addresses from 0 to the first 2 MiB of the Stacks,
for tenant 1 under descriptor 0, which is `captureRegion`. -/
def hostWindow : State :=
  sysWrite 0x09000000 captureRegion (setWord (winOff 0) 0x11 (setWord (winOff 0 + 0xC) 1
    { State.reset with
      chip := { running := true, perstN := true }
      fab := { state := .ready, joined := true, catalogue := true, nodeV := true, transit := true }
      hif := { cxl := { up := true } }
      ten := { shared := true, sysKey := 1 } }))

/-- A READ of 64 bytes by node 1. -/
def readOfNodeOne : Frame := { type := tReq, src := 0x4801, dst := 0x4800, tenant := 1, opc := 1, len := 64 }

/-- `readOfNodeOne` waits for MEM in queue 32, where the egress's round robin stands too. A tenant's queue has a number of five
bits (R437), and the statement asks for no frame in those queues only. -/
def queueBeyond : State :=
  setEg egMem { drr := 32, queues := [(32, [readOfNodeOne])], deficit := [(32, 1024)] } hostWindow

/-- The frame of the host's READ of 64 bytes at device physical address 128. -/
def windowRead : Frame :=
  { type := tReq, cls := 2, dst := 0x4800, src := 0x4800, tenant := 1, opc := 1, len := 64, mid := midOf (2 ^ 44 + 128) 0 0 }

/-- What may be cut through is not, since the turn falls to queue 32: the access still waits to cross the switching core. -/
theorem cxlMemRead_queueBeyond : mayCut queueBeyond (originRate queueBeyond windowRead) egMem windowRead = true ∧
    ∃ t, exec (.cxlMemRead 2 .clean) queueBeyond = .next t ∧ t.hif.cxl.wait = [windowRead] ∧ t.home.accesses = [] :=
  ⟨by decide +kernel, _, rfl, by decide +kernel⟩

/-- Refutes O43: its clause on a CXL.mem READ that is cut through to MEM is about every device at rest, also about `queueBeyond`;
there the turn falls to a queue that is not among the 32 of the statement, and the READ waits (R266, R268). -/
theorem not_memoryWindows : ¬ Obligations.MemoryWindows := by
  unfold Obligations.MemoryWindows
  rintro ⟨-, -, -, hcut, -⟩
  obtain ⟨hmay, t, ht, hwait, -⟩ := cxlMemRead_queueBeyond
  obtain ⟨u, hu, hnone, -⟩ := hcut queueBeyond 2 .clean (0, 128) (parseRegion captureRegion) 0x09000000 windowRead
    (by decide +kernel) (by decide +kernel) (by decide +kernel) (by decide +kernel) (by decide +kernel) (by decide +kernel)
    (by decide +kernel) (by decide +kernel) (by decide +kernel) (by decide +kernel) hmay (by decide +kernel)
    (by decide +kernel) (by decide +kernel) (by decide +kernel) (by decide +kernel) (by decide +kernel) (by decide +kernel)
    (by decide +kernel) (by decide +kernel) (by decide +kernel) (by decide +kernel) (by decide +kernel) (by decide +kernel)
    (by decide +kernel) (by decide +kernel) (by decide +kernel)
  obtain rfl := exec_next_unique ht hu
  simp [hnone] at hwait

/-! ### An access number that is taken twice (R104, R254, R404) -/

/-- A store of node 1's fabric memory that was held and goes on to the host tier here: two bytes, the second of them at OFFSET
2^44. -/
def heldAcrossEnd : Frame :=
  ({ type := tReq, src := 0x4801, dst := 0x4800, tenant := 1, ord := true, opc := 0x50, psn := 103, ttl := 9, len := 2
     mid := midOf (4 * 2 ^ 44 - 1) 0 0, payload := [7, 7] } : Frame).seal

/-- The receive context of the stream of `heldAcrossEnd`, with PSN 103 next. -/
def heldRecv : RecvCtx := { sid := fwdSid heldAcrossEnd, ipsn := 100, e := 103 }

/-- A CXL.mem write of the control host that has one part left, with number 1. -/
def hostWriteOne : Access :=
  { id := 1, home := hpHost, op := .write, left := 1, cxl := true
    frame := { type := tReq, src := 0x4800, dst := 0x4800, tenant := 1, opc := 2 } }

/-- A running device whose host window 0 maps the last 2 MiB of the host tier's OFFSETs and 2 MiB beyond. `hostWriteOne` has not
ended, and 1 is the number of the next access all the same. -/
def accessTwice : State :=
  setWord (cxlBase + 4) 1 (setWord (cxlBase + 0x100) 1 (setWord (cxlBase + 0x104) 0x7FFFFF (setWord (cxlBase + 0x108) 2
    { State.reset with
      chip := { running := true, perstN := true }
      fab := { state := .ready, joined := true, catalogue := true, nodeV := true, transit := true }
      hif := { cxl := { up := true, bme := true } }
      ten := { shared := true }
      home := { State.reset.home with accesses := [hostWriteOne], nextAcc := 1 }
      trn := { State.reset.trn with recv := [heldRecv] } })))

/-- The home is reached, since the window has both bytes. The second one's part finds no window by its own OFFSET, which counts
from 0 again, and ends; that ends access 1, and both accesses of that number go. -/
theorem holdWrite_accessTwice : homeReach accessTwice (homeOf heldAcrossEnd) heldAcrossEnd = .done ∧
    ∃ t, exec (.holdWrite ⟨heldAcrossEnd, .clean⟩) accessTwice = .next t ∧ t.home.accesses = [] :=
  ⟨by decide +kernel, _, rfl, by decide +kernel⟩

/-- Refutes O44: its clause on HOLD_WRITE is about every device at rest, also about `accessTwice`, where an access number is taken
twice; there the end of the other access of that number takes the store's away (R254, R404). -/
theorem not_heldForms : ¬ Obligations.HeldForms := by
  unfold Obligations.HeldForms
  rintro ⟨hwrite, -⟩
  obtain ⟨hreach, t, ht, hgone⟩ := holdWrite_accessTwice
  obtain ⟨u, hu, hserved, -⟩ := hwrite accessTwice heldAcrossEnd heldRecv .clean (by decide +kernel) (by decide +kernel)
    (by decide +kernel) (by decide +kernel) (by decide +kernel) rfl rfl (by decide +kernel) (by decide +kernel) rfl rfl rfl rfl
    rfl hreach
  obtain rfl := exec_next_unique ht hu
  simp [hgone] at hserved

end Sys2Proof.Machine
end

section
/-!
PROOFS. The switching core (R268): one statement, which fails. It has every turn of an egress whose control queue holds an ACK
send that ACK, and leaves out the turns in which the Stacks are read again for a port that lags in a MULTICAST (R196). A concrete
state that meets the statement's hypotheses has such a turn, and its command is run to an outcome that the statement denies.
-/

namespace Sys2Proof.Machine
open Sys2Proof

/-! ### A port that lags in a MULTICAST (R196, R268) -/

/-- An ACK of node 1's fabric memory on its way to A-port 5. -/
def ackToPort : Frame := ({ type := tAck, src := 0x4801, dst := 5, tenant := 1, ttl := 9 } : Frame).seal

/-- A-port 5 lags in a MULTICAST of tenant 1, of the byte at offset 0 of the Stacks to VOFF 0 of A-port 5 alone. -/
def laggingPort : McastPort :=
  { tenant := 1, job := 9, iter := 0, idx := 0, port := 5
    desc := [0x09, 0, 0, 0] ++ beBytes 9 (2 ^ 5) ++ [0, 0, 0] ++ beBytes 8 0 ++ beBytes 8 1 ++ List.replicate 32 0 }

/-- A running device of node 0. A-port 5 is bound to tenant 1, whose table maps page 0 of endpoint 5. `ackToPort` waits at the
egress of A-port 5, and no frame of tenant 1's queue there does any more: `laggingPort` is next to have the Stacks read again. -/
def lagBehindAck : State :=
  sysWrite 0 (leBytes 8 (1 + 5 * 8 + 2 ^ 45) ++ leBytes 8 (7 + 5 * 2 ^ 12)) (setWord (xltBase 0 + 0x100) 0x11
    (setWord (epbBase 5 + 0x40) 0x2001 (setEg 5 { control := [ackToPort] }
      { State.reset with
        chip := { running := true, perstN := true }
        fab := { state := .ready, joined := true, catalogue := true, nodeV := true, transit := true }
        ten := { shared := true, sysKey := 1 }
        sw := { lag := [laggingPort] } })))

/-- The turn of the egress goes to the lagging port: its store leaves for A-port 5 as a request, and the ACK still waits. -/
theorem egressSelect_lagBehindAck : ∃ t, exec (.egressSelect 5 ⟨0, .clean⟩) lagBehindAck = .next t ∧
    t.sw.lag = [] ∧ t.trn.reqs.map (·.origin) = [.multicast laggingPort] ∧ ackToPort ∈ (egOf t 5).control :=
  ⟨_, rfl, by decide +kernel⟩

/-- Refutes O49: its clause on EGRESS_SELECT with an ACK at the head of the control queue is about every device at rest, also about
`lagBehindAck`; there the turn serves the port that lags in a MULTICAST, and the ACK waits (R196, R268). -/
theorem not_switching : ¬ Obligations.Switching := by
  unfold Obligations.Switching
  rintro ⟨-, -, -, hcontrol, -⟩
  obtain ⟨t, ht, -, -, hwaits⟩ := egressSelect_lagBehindAck
  obtain ⟨u, hu, -, hrest⟩ := hcontrol lagBehindAck 5 0 .clean ackToPort [] (by decide +kernel) (by decide +kernel)
    (by decide +kernel) rfl (by decide +kernel) (by decide +kernel) (by decide +kernel) (by decide +kernel) (by decide +kernel)
    (by decide +kernel)
  obtain rfl := exec_next_unique ht hu
  have hempty : (egOf u 5).control = [] := hrest
  simp [hempty] at hwaits

end Sys2Proof.Machine
end

section
/-!
PROOFS. What stands on the line is read back (R32, R33, R37, R290, R291): a number from its bytes, a link group's content from its
blocks, the CAPS from that content, and the CRC-32 of an Attach message from its last four bytes.
-/

namespace Sys2Proof.Machine
open Sys2Proof

/-! ### Numbers and their bytes -/

theorem length_beBytes (n v : Nat) : (beBytes n v).length = n := by simp [beBytes, length_leBytes]

/-- What is written least significant byte first is read back. -/
theorem leNat_leBytes (n v : Nat) : leNat (leBytes n v) = v % 256 ^ n := by
  induction n generalizing v with
  | zero => simp [leBytes, leNat, Nat.mod_one]
  | succ n ih =>
    have hbyte : (BitVec.ofNat 8 v).toNat = v % 256 := BitVec.toNat_ofNat v 8
    rw [leBytes, leNat, ih, hbyte, Nat.pow_succ', Nat.mod_mul]

theorem beNat_reverse_cons (b : Byte) (bs : Bytes) : beNat (b :: bs).reverse = b.toNat + 256 * beNat bs.reverse := by
  simp [beNat, List.foldl_append]
  omega

/-- From its other end, a byte string is read in the other order. -/
theorem beNat_reverse : ∀ bs : Bytes, beNat bs.reverse = leNat bs
  | [] => rfl
  | b :: bs => by rw [beNat_reverse_cons, beNat_reverse bs, leNat]

/-- What is written most significant byte first is read back. -/
theorem beNat_beBytes (n v : Nat) : beNat (beBytes n v) = v % 256 ^ n := by
  rw [beBytes, beNat_reverse, leNat_leBytes]

/-! ### Fields of byte strings -/

theorem length_slice (bs : Bytes) (off n : Nat) : (slice bs off n).length = n := by
  simp only [slice, List.length_append, List.length_take, List.length_drop, List.length_replicate]
  omega

theorem slice_append_left {as : Bytes} (bs : Bytes) {n : Nat} (h : as.length = n) : slice (as ++ bs) 0 n = as := by
  simp [slice, ← h]

/-- A field written big-endian after `off` bytes is read back at byte `off`. -/
theorem beField_append {as : Bytes} (cs : Bytes) {off n v : Nat} (ha : as.length = off) (hv : v < 256 ^ n) :
    beField (as ++ (beBytes n v ++ cs)) off n = v := by
  have hfield : slice (as ++ (beBytes n v ++ cs)) off n = beBytes n v := by
    simp [slice, ← ha, length_beBytes]
  rw [beField, hfield, beNat_beBytes, Nat.mod_eq_of_lt hv]

theorem beField_one (bs : Bytes) (i : Nat) : beField bs i 1 = (bs.getD i 0).toNat := by
  rcases hbs : bs.drop i with _ | ⟨b, rest⟩
  · have hlen : bs.length ≤ i := List.drop_eq_nil_iff.1 hbs
    simp [beField, slice, beNat, hbs, List.getElem?_eq_none hlen]
  · have hget : bs[i]? = some b := by simpa [hbs] using (List.head?_drop (l := bs) (i := i)).symm
    simp [beField, slice, beNat, hbs, hget]

/-! ### Link groups (R290) -/

theorem slice_drop (bs : Bytes) (k off n : Nat) : slice (bs.drop k) off n = slice bs (k + off) n := by
  simp [slice]

/-- The three data blocks of a group carry its 24 data bytes. -/
theorem dataBlocks_three {bs : Bytes} (h : bs.length = 24) : (dataBlocks 3 bs).flatMap (·.bytes) = bs := by
  have hfull : ∀ k, k < 24 → (bs.drop k).isEmpty = false := fun k hk => by simp [h]; omega
  have hblock : ∀ k, k + 8 ≤ 24 → slice bs k 8 = (bs.drop k).take 8 := fun k hk => by simp [slice, h]; omega
  have h0 : bs.isEmpty = false := by simpa using hfull 0 (by omega)
  have hsplit : bs.take 8 ++ ((bs.drop 8).take 8 ++ (bs.drop 16).take 8) = bs := by
    have hlast : (bs.drop 16).take 8 = (bs.drop 8).drop 8 := by simp [h, List.take_of_length_le]
    rw [hlast, List.take_append_drop, List.take_append_drop]
  simp [dataBlocks, h0, hfull, slice_drop, hblock, hsplit]

/-- The bytes of a link group after its block type: the 29 bytes of its content and their CRC. -/
theorem linkGroupBlocks_bytes (content : Bytes) :
    ((linkGroupBlocks content).flatMap (·.bytes)).drop 1 =
      slice content 0 29 ++ beBytes 2 (crc16 (slice content 0 29)).toNat := by
  have hlen := length_slice content 0 29
  unfold linkGroupBlocks
  generalize slice content 0 29 = c at hlen ⊢
  have hdata : (c.drop 7 ++ beBytes 2 (crc16 c).toNat).length = 24 := by simp [hlen, length_beBytes]
  have htaken : (c.take 7).length = 7 := by rw [List.length_take, hlen]; rfl
  have hctl : slice (c.take 7) 0 7 = c.take 7 := by simpa only [List.append_nil] using slice_append_left [] htaken
  have hall : slice (c.drop 7 ++ beBytes 2 (crc16 c).toNat) 0 24 = c.drop 7 ++ beBytes 2 (crc16 c).toNat := by
    simpa only [List.append_nil] using slice_append_left [] hdata
  simp [groupBlocks, hctl, hall, dataBlocks_three hdata, ← List.append_assoc]

/-- What a link group was sent with, filled with zeros to 29 bytes, is its content again; the CRC passes. -/
theorem linkContent_linkGroupBlocks (content : Bytes) :
    linkContent (((linkGroupBlocks content).flatMap (·.bytes)).drop 1) = some (slice content 0 29) := by
  have hlen := length_slice content 0 29
  have hcrc := beField_append (n := 2) [] hlen (crc16 (slice content 0 29)).isLt
  rw [List.append_nil] at hcrc
  rw [linkGroupBlocks_bytes, linkContent, slice_append_left _ hlen]
  simp [hcrc]

/-! ### CAPS (R291) -/

/-- The fields of a CAPS content before its node. -/
def capsHead (c : Caps) : Bytes := [2, c.role, c.rates, c.trev, BitVec.ofNat 8 c.enc.toNat]

/-- The fields of a CAPS content lie one after the other, from byte 1 on. -/
theorem parseCaps_capsContent (c : Caps) : parseCaps (slice (capsContent c) 0 29) = some c := by
  have hbytes : slice (capsContent c) 0 29 = capsHead c ++ (beBytes 2 c.node.toNat ++ ([c.port, c.mode] ++
      (beBytes 8 c.unitId.toNat ++ (beBytes 2 c.lanes.toNat ++ List.replicate 10 0)))) := rfl
  have hnode : beField (slice (capsContent c) 0 29) 5 2 = c.node.toNat :=
    hbytes ▸ beField_append (as := capsHead c) _ rfl c.node.isLt
  have hunit : beField (slice (capsContent c) 0 29) 9 8 = c.unitId.toNat :=
    hbytes ▸ beField_append (as := capsHead c ++ beBytes 2 c.node.toNat ++ [c.port, c.mode]) _ rfl c.unitId.isLt
  have hlanes : beField (slice (capsContent c) 0 29) 17 2 = c.lanes.toNat :=
    hbytes ▸ beField_append (as := capsHead c ++ beBytes 2 c.node.toNat ++ [c.port, c.mode] ++ beBytes 8 c.unitId.toNat) _ rfl
      (Nat.lt_trans c.lanes.isLt (by decide))
  simp only [parseCaps, beField_one, hnode, hunit, hlanes]
  have henc : c.enc.toNat % 256 = c.enc.toNat := Nat.mod_eq_of_lt (Nat.lt_trans c.enc.isLt (by decide))
  simp [slice, capsContent, beBytes, leBytes, henc]

/-! ### Attach messages (R32, R33, R37) -/

theorem attCrcOk_attBytes (m : AttMsg) : attCrcOk (attBytes m) = true := by
  have h := (crc32 (attBody m)).isLt
  simp [attCrcOk, attBytes, length_leBytes, leNat_leBytes]
  omega

theorem attBytes_length (m : AttMsg) : (attBytes m).length % 4 = 0 := by
  simp [attBytes, attBody, length_leBytes]
  omega

/-- Settles O12: the content comes back with its CRC (`linkContent_linkGroupBlocks`), its fields lie where `parseCaps` reads them,
and the four bytes after the body of a message are its CRC-32. -/
theorem lineFormats : Obligations.LineFormats := by
  unfold Obligations.LineFormats
  refine ⟨fun c => ?_, fun m => ⟨attCrcOk_attBytes m, attBytes_length m⟩⟩
  rw [linkContent_linkGroupBlocks, Option.bind_some, parseCaps_capsContent]

end Sys2Proof.Machine
end

section
/-!
PROOFS. A port trains (R292, R293, R305): one statement, which fails. Its last clause has every exchange of a running port's keys
end the renewal, a failed one with the port in DETECT. The clause leaves the kind of port open. Behind a fabric port the transport
takes the port as gone; an A-port's session goes down instead (R30), and what that session answers goes out of the port at once: its
record may be due for a renewal again (R305) when the command ends.
-/

namespace Sys2Proof.Machine
open Sys2Proof

/-- A READ of a home endpoint at its access home, for A-port 5. -/
def readAtHome : Access :=
  { id := 1, home := 5, op := .read, left := 1
    frame := { type := tReq, src := 5, dst := 5, tenant := 1, opc := 1, len := 64, ttl := 9 } }

/-- A running device. A-port 5 is up and encrypted; its renewal of the keys has begun, and half its frame counter is used up.
`readAtHome` waits for its session. -/
def keyedAPort : State :=
  setPort 5 { state := .up, width := 0, enc := true, keyed := true }
    (setEg 5 { ctrTx := 2 ^ 62, rekeying := true } (setWord swcBase 3
      { State.reset with
        chip := { running := true, perstN := true }
        fab := { state := .ready, joined := true, catalogue := true, nodeV := true, transit := true }
        ten := { shared := true }
        home := { accesses := [readAtHome] } }))

/-- The exchange fails and its port's session goes down; the RSP of `readAtHome` leaves by the port, whose counter then calls for a
renewal of the keys. -/
theorem keyingExchange_keyedAPort : ∃ t, exec (.keyingExchange 5 false) keyedAPort = .next t ∧ (egOf t 5).rekeying = true :=
  ⟨_, rfl, by decide +kernel⟩

/-- Refutes O18: its last clause is about every port, also about `keyedAPort`'s A-port 5, where the failed exchange has an answer go
out of the port, and that calls for a renewal again (R305). -/
theorem not_portTrains : ¬ Obligations.PortTrains := by
  unfold Obligations.PortTrains
  rintro ⟨-, -, -, -, -, -, -, -, -, -, hrenewal⟩
  obtain ⟨t, ht, hagain⟩ := keyingExchange_keyedAPort
  obtain ⟨u, hu, hended, -⟩ := hrenewal keyedAPort 5 false (by decide +kernel) (by decide +kernel) (by decide +kernel)
  obtain rfl := exec_next_unique ht hu
  exact absurd (hagain.symm.trans hended) (by decide)

end Sys2Proof.Machine
end

section
/-!
SUPPORT. What the traffic of the data path leaves as it was besides the links: ports, lasers and quarantine (R145, R301), and the
marks of a rekey, which may begin by itself as frames are counted (R305) but neither ends nor is forgotten so. `SideSame` is for
what sends no frame, `SideKept` for the rest; one lemma per function, in the order of the model's files. Then what goes with a link
or a node: what is quarantined stays so.
-/

namespace Sys2Proof.Machine
open Sys2Proof

/-- The marks of a rekey at an egress (R305): under way, and due. -/
def rekeyOf (eg : Table EgressQ) (p : Nat) : Bool × Bool := ((tget {} eg p).rekeying, (tget {} eg p).rekeyDue)

/-- The marks `m` of port `p` stand, whatever its frame counter calls for: its rekey is under way, or is due and has to wait
(R298). -/
def RekeyStands (ports : Table PortSt) (p : Nat) (m : Bool × Bool) : Prop :=
  m.1 = true ∨
  m.2 = true ∧ ((tget {} ports p).state = .recover ∨ (tget {} ports p).state = .up ∧ (tget {} ports p).change.isSome = true)

/-- From `s` to `t` ports, lasers and quarantine are kept, and the marks of a rekey that stand. -/
abbrev SideKept (s t : State) : Prop :=
  t.ports = s.ports ∧ t.lasers = s.lasers ∧ t.trn.quar = s.trn.quar ∧
  ∀ p, RekeyStands s.ports p (rekeyOf s.sw.eg p) → rekeyOf t.sw.eg p = rekeyOf s.sw.eg p

/-- From `s` to `t` ports, lasers, quarantine and all marks of a rekey are kept: no frame leaves. -/
abbrev SideSame (s t : State) : Prop :=
  t.ports = s.ports ∧ t.lasers = s.lasers ∧ t.trn.quar = s.trn.quar ∧ ∀ p, rekeyOf t.sw.eg p = rekeyOf s.sw.eg p

theorem SideSame.refl (s : State) : SideSame s s := ⟨rfl, rfl, rfl, fun _ => rfl⟩

theorem SideSame.trans {s t u : State} (h : SideSame s t) (h' : SideSame t u) : SideSame s u := by
  obtain ⟨hp, hl, hq, hk⟩ := h
  obtain ⟨hp', hl', hq', hk'⟩ := h'
  exact ⟨hp'.trans hp, hl'.trans hl, hq'.trans hq, fun p => (hk' p).trans (hk p)⟩

theorem SideSame.ite {c : Prop} [Decidable c] {s t u : State} (h : SideSame s t) (h' : SideSame s u) :
    SideSame s (if c then t else u) := by
  split
  · exact h
  · exact h'

theorem SideSame.kept {s t : State} (h : SideSame s t) : SideKept s t := by
  obtain ⟨hp, hl, hq, hk⟩ := h
  exact ⟨hp, hl, hq, fun p _ => hk p⟩

theorem SideKept.refl (s : State) : SideKept s s := ⟨rfl, rfl, rfl, fun _ _ => rfl⟩

theorem SideKept.trans {s t u : State} (h : SideKept s t) (h' : SideKept t u) : SideKept s u := by
  obtain ⟨hp, hl, hq, hk⟩ := h
  obtain ⟨hp', hl', hq', hk'⟩ := h'
  exact ⟨hp'.trans hp, hl'.trans hl, hq'.trans hq, fun p h => (hk' p (by rwa [hk p h, hp])).trans (hk p h)⟩

theorem SideKept.ite {c : Prop} [Decidable c] {s t u : State} (h : SideKept s t) (h' : SideKept s u) :
    SideKept s (if c then t else u) := by
  split
  · exact h
  · exact h'

/-! ### Egresses -/

theorem rekeyOf_tput {eg : Table EgressQ} {e p : Nat} {x : EgressQ} (h : p = e → (x.rekeying, x.rekeyDue) = rekeyOf eg p) :
    rekeyOf (tput {} eg e x) p = rekeyOf eg p := by
  by_cases hp : p = e
  · subst hp
    simpa [rekeyOf] using h rfl
  · simp [rekeyOf, tget_tput_ne _ _ _ _ hp]

@[simp] theorem rekeyOf_setEg {e p : Nat} {x : EgressQ} {s : State}
    (h : x.rekeying = (egOf s e).rekeying ∧ x.rekeyDue = (egOf s e).rekeyDue) :
    rekeyOf (setEg e x s).sw.eg p = rekeyOf s.sw.eg p :=
  rekeyOf_tput (by rintro rfl; exact Prod.ext h.1 h.2)

@[simp] theorem rekeyOf_modEg {e p : Nat} {f : EgressQ → EgressQ} {s : State}
    (h : ∀ q, (f q).rekeying = q.rekeying ∧ (f q).rekeyDue = q.rekeyDue) :
    rekeyOf (modEg e f s).sw.eg p = rekeyOf s.sw.eg p := rekeyOf_setEg (h _)

@[simp] theorem rekeyStart_side (p : Nat) (s : State) : SideKept s (rekeyStart p s) := by
  have hkept : (rekeyStart p s).ports = s.ports ∧ (rekeyStart p s).lasers = s.lasers ∧ (rekeyStart p s).trn = s.trn := by
    unfold rekeyStart; dsimp only; (repeat' split) <;> simp
  obtain ⟨hports, hlasers, htrn⟩ := hkept
  refine ⟨hports, hlasers, by rw [htrn], fun q hq => ?_⟩
  unfold rekeyStart
  dsimp only
  split
  · rfl
  · split
    · refine rekeyOf_tput ?_
      rintro rfl
      simp_all [rekeyOf, RekeyStands, portSt, egOf]
    · split
      · have hstands : rekeyOf (setEg p { egOf s p with rekeyDue := false, rekeying := true } s).sw.eg q = rekeyOf s.sw.eg q := by
          refine rekeyOf_tput ?_
          rintro rfl
          simp_all [rekeyOf, RekeyStands, portSt, egOf]
        split <;> exact hstands
      · rfl

/-! ### Putting changes together -/

/-- What every step of a fold keeps, the fold keeps. -/
theorem foldl_rel {σ α : Type} {R : σ → σ → Prop} (hrefl : ∀ s, R s s) (htrans : ∀ {s t u}, R s t → R t u → R s u)
    {f : σ → α → σ} (h : ∀ s x, R s (f s x)) : ∀ (xs : List α) (s : σ), R s (xs.foldl f s)
  | [], s => hrefl s
  | x :: xs, s => htrans (h s x) (foldl_rel hrefl htrans h xs (f s x))

theorem foldl_fst_side {α β : Type} {f : State × β → α → State × β} (h : ∀ a x, SideKept a.1 (f a x).1) (xs : List α)
    (a : State × β) : SideKept a.1 (xs.foldl f a).1 :=
  foldl_rel (R := fun a b => SideKept a.1 b.1) (fun a => .refl a.1) .trans h xs a

theorem foldl_fst_sideSame {α β : Type} {f : State × β → α → State × β} (h : ∀ a x, SideSame a.1 (f a x).1)
    (xs : List α) (a : State × β) : SideSame a.1 (xs.foldl f a).1 :=
  foldl_rel (R := fun a b => SideSame a.1 b.1) (fun a => .refl a.1) .trans h xs a

@[simp] theorem foldl_side {α : Type} {f : State → α → State} (h : ∀ s x, SideKept s (f s x)) (xs : List α) (s : State) :
    SideKept s (xs.foldl f s) := foldl_rel .refl .trans h xs s

@[simp] theorem foldl_sideSame {α : Type} {f : State → α → State} (h : ∀ s x, SideSame s (f s x)) (xs : List α)
    (s : State) : SideSame s (xs.foldl f s) := foldl_rel .refl .trans h xs s

@[simp] theorem each_side {α : Type} {f : α → State → State} (h : ∀ x s, SideKept s (f x s)) (xs : List α)
    (s : State) : SideKept s (each xs f s) := foldl_side (fun s x => h x s) xs s

@[simp] theorem each_sideSame {α : Type} {f : α → State → State} (h : ∀ x s, SideSame s (f x s)) (xs : List α)
    (s : State) : SideSame s (each xs f s) := foldl_sideSame (fun s x => h x s) xs s

@[simp] theorem whenS_side {f : State → State} (h : ∀ s, SideKept s (f s)) (c : Bool) (s : State) :
    SideKept s (whenS c f s) := by
  cases c
  · exact .refl s
  · exact h s

theorem mov_side (s : State) (m : Movs) : SideSame s { s with mov := m } := ⟨rfl, rfl, rfl, fun _ => rfl⟩

theorem trn_side {s : State} {x : Transport} (h : x.quar = s.trn.quar) : SideSame s { s with trn := x } :=
  ⟨rfl, rfl, h, fun _ => rfl⟩

theorem modSess_side (p : Nat) (f : Session → Session) (s : State) : SideSame s (modSess p f s) :=
  ⟨rfl, rfl, rfl, fun _ => rfl⟩

/-! ### Registers -/

@[simp] theorem takeHanded_side (here : Nat → Bool) (s : State) : SideSame s (takeHanded here s) := by
  simp [takeHanded, SideSame]

/-! ### Events -/

@[simp] theorem raisePrt_side (p b : Nat) (s : State) : SideSame s (raisePrt p b s) := by
  simp [raisePrt, SideSame]

@[simp] theorem raiseEpb_side (p b : Nat) (s : State) : SideSame s (raiseEpb p b s) := by
  simp [raiseEpb, SideSame]

@[simp] theorem raiseSwc_side (b unit : Nat) (s : State) : SideSame s (raiseSwc b unit s) := by
  simp [raiseSwc, SideSame]

@[simp] theorem raiseCol_side (b unit : Nat) (s : State) : SideSame s (raiseCol b unit s) := by
  simp [raiseCol, SideSame]

@[simp] theorem raiseRda_side (b unit : Nat) (s : State) : SideSame s (raiseRda b unit s) := by
  simp [raiseRda, SideSame]

@[simp] theorem raiseMov_side (b unit : Nat) (s : State) : SideSame s (raiseMov b unit s) := by
  simp [raiseMov, SideSame]

@[simp] theorem raiseSec_side (b unit : Nat) (s : State) : SideSame s (raiseSec b unit s) := by
  simp [raiseSec, SideSame]

/-! ### Errors of the tiers -/

@[simp] theorem unitFailed_side (u : ScrubUnit) (s : State) : SideSame s (unitFailed u s) := by
  unfold unitFailed; split <;> simp [SideSame]

@[simp] theorem unitLost_side (u : ScrubUnit) (s : State) : SideSame s (unitLost u s) := by
  unfold unitLost; split <;> simp [SideSame]

@[simp] theorem channelFail_side (c : Nat) (s : State) : SideSame s (channelFail c s) := by
  unfold channelFail; (repeat' split) <;> simp [SideSame]

@[simp] theorem foundUe_side (space off : Nat) (s : State) : SideSame s (foundUe space off s) := by
  unfold foundUe; dsimp only; (repeat' split) <;> simp [SideSame]

@[simp] theorem foundCe_side (space off : Nat) (s : State) : SideSame s (foundCe space off s) := by
  unfold foundCe; split <;> simp [SideSame]

@[simp] theorem found_side (space off : Nat) (ecc : Ecc) (s : State) :
    SideSame s (found space off ecc s) := by
  unfold found; (repeat' split) <;> simp [SideSame]

@[simp] theorem sysFound_side (x : Option Nat) (ecc : Ecc) (s : State) : SideSame s (sysFound x ecc s) := by
  unfold sysFound; split <;> simp [SideSame]

@[simp] theorem clearPoison_side (space off : Nat) (s : State) : SideSame s (clearPoison space off s) := by
  simp [clearPoison, SideSame]

/-! ### The switching core -/

@[simp] theorem markJoin_side (e : Nat) (f : Frame) (s : State) : SideSame s (markJoin e f s).2 := by
  unfold markJoin; dsimp only; (repeat' split) <;> simp [SideSame]

@[simp] theorem joinUnsched_side (e : Nat) (f : Frame) (s : State) : SideSame s (joinUnsched e f s) := by
  simp [joinUnsched, SideSame]

@[simp] theorem demote_side (e : Nat) (f : Frame) (s : State) : SideSame s (demote e f s) := by
  simp [demote, SideSame]

theorem join_side {e : Nat} {f : Frame} {s t : State} (h : join e f s = some t) : SideSame s t := by
  unfold join at h
  (repeat' split at h) <;> cases h <;> simp [SideSame]

theorem joinCopy_side {e : Nat} {f : Frame} {s t : State} (h : joinCopy e f s = some t) : SideSame s t := by
  unfold joinCopy at h
  dsimp only at h
  (repeat' split at h) <;> cases h <;> simp [SideSame]

@[simp] theorem memStore_side (s : State) (src : Nat) (tenant : BitVec 12) (fpa keyidx keytag : Nat)
    (bs : Bytes) (own : Nat) :
    SideSame s (memStore s src tenant fpa keyidx keytag bs own) := by
  unfold memStore; dsimp only; (repeat' split) <;> simp [SideSame]

@[simp] theorem mirCopy_side (n p : Nat) (eg : Bool) (f : Frame) (s : State) :
    SideSame s (mirCopy n p eg f s) := by
  unfold mirCopy; dsimp only; (repeat' split) <;> simp [SideSame]

@[simp] theorem mirrorAt_side (p : Nat) (eg : Bool) (f : Frame) (s : State) :
    SideSame s (mirrorAt p eg f s) := by
  unfold mirrorAt
  refine .ite (.refl s) (foldl_sideSame (fun t n => ?_) _ s)
  dsimp only; (repeat' split) <;> simp [SideSame]

@[simp] theorem cxlCrossed_side (f : Frame) (s : State) : SideSame s (cxlCrossed f s) := by
  unfold cxlCrossed; split <;> simp [SideSame, modHif]

@[simp] theorem cxlLost_side (f : Frame) (s : State) : SideSame s (cxlLost f s) := by
  unfold cxlLost; split <;> simp [SideSame, modHif]

@[simp] theorem countFrame_side (p : Nat) (s : State) : SideKept s (countFrame p s) := by
  unfold countFrame; dsimp only; (repeat' split) <;> simp +contextual [SideKept]

@[simp] theorem send_side (e : Nat) (f : Frame) (s : State) : SideKept s (send e f s) := by
  unfold send; dsimp only; (repeat' split) <;> simp +contextual [SideKept]

@[simp] theorem sendStored_side (cells : Ecc) (e : Nat) (f : Frame) (s : State) :
    SideKept s (sendStored cells e f s) := by
  unfold sendStored; split <;> simp +contextual [SideKept]

@[simp] theorem fillTokens_side (e t : Nat) (s : State) : SideSame s (fillTokens e t s) := by
  simp [fillTokens, SideSame]

@[simp] theorem sendControl_side (cells : Ecc) (e : Nat) (f : Frame) (rest : List Frame) (s : State) :
    SideKept s (sendControl cells e f rest s) := by
  simp +contextual [sendControl, SideKept]

@[simp] theorem sendCopy_side (cells : Ecc) (e : Nat) (f : Frame) (s : State) :
    SideKept s (sendCopy cells e f s) := by
  unfold sendCopy; dsimp only; (repeat' split) <;> simp +contextual [SideKept]

@[simp] theorem demoteLane_side (e : Nat) (s : State) : SideSame s (demoteLane e s) := by
  unfold demoteLane
  refine .trans (t := modEg e (fun x => { x with lane := [] }) s) (by simp [SideSame]) (each_sideSame (fun f t => ?_) _ _)
  split <;> simp [SideSame]

@[simp] theorem sendHead_side (cells : Ecc) (e q : Nat) (defs : Table Nat) (s : State) :
    SideKept s (sendHead cells e q defs s) := by
  unfold sendHead; dsimp only; (repeat' split) <;> simp +contextual [SideKept]

@[simp] theorem selectPlain_scheduled_side (cells : Ecc) (e t : Nat) (s : State) :
    SideKept s (selectPlain.scheduled cells e t s) := by
  unfold selectPlain.scheduled; dsimp only; (repeat' split) <;> simp +contextual [SideKept]

@[simp] theorem selectPlain_side (cells : Ecc) (e t : Nat) (s : State) : SideKept s (selectPlain cells e t s) := by
  unfold selectPlain; dsimp only; (repeat' split) <;> simp +contextual [SideKept]

@[simp] theorem selectOwned_side (cells : Ecc) (p t own stop : Nat) (s : State) :
    SideKept s (selectOwned cells p t own stop s) := by
  unfold selectOwned; dsimp only; (repeat' split) <;> simp +contextual [SideKept]

@[simp] theorem selectTdm_side (cells : Ecc) (p t : Nat) (s : State) :
    SideKept s (selectTdm cells p t s) := by
  simp +contextual [selectTdm, SideKept]

@[simp] theorem selectTurn_side (cells : Ecc) (e t : Nat) (s : State) :
    SideKept s (selectTurn cells e t s) := by
  simp +contextual [selectTurn, SideKept]

@[simp] theorem sendMirror_side (e : Nat) (s : State) : SideSame s (sendMirror e s) := by
  unfold sendMirror; split <;> simp [SideSame]

@[simp] theorem choose_side (cells : Ecc) (e t : Nat) (s : State) : SideKept s (choose cells e t s) := by
  unfold choose; (repeat' split) <;> simp +contextual [SideKept]

@[simp] theorem cutThrough_side (rate e : Nat) (f : Frame) (s t : State) : SideKept t (cutThrough rate e f s t) := by
  unfold cutThrough; dsimp only; (repeat' split) <;> simp +contextual [SideKept]

@[simp] theorem submitTo_side (e : Nat) (f : Frame) (s : State) : SideKept s (submitTo e f s) := by
  unfold submitTo
  split
  · rename_i t h
    refine (join_side h).kept.trans ?_
    split <;> simp +contextual [SideKept]
  · simp +contextual [SideKept]

@[simp] theorem enter_side (e : Nat) (f : Frame) (s : State) : SideKept s (enter e f s) := by
  unfold enter
  refine .ite ?_ (by simp +contextual [SideKept])
  split
  · rename_i t h
    exact (joinCopy_side h).kept
  · simp +contextual [SideKept]

@[simp] theorem submit_side (f : Frame) (s : State) : SideKept s (submit f s) := by
  unfold submit; split <;> simp +contextual [SideKept]

@[simp] theorem unpark_side (s : State) : SideKept s (unpark s) := by
  simp +contextual [unpark, SideKept]

/-! ### The transport -/

@[simp] theorem sendOpen_side (c : SendCtx) (s : State) : SideKept s (sendOpen c s) := by
  unfold sendOpen; dsimp only; split <;> simp +contextual [SideKept]

@[simp] theorem openCtx_side (num : Nat) (s : State) : SideKept s (openCtx num s) := by
  unfold openCtx; dsimp only; split <;> simp +contextual [SideKept]

@[simp] theorem beginClose_side (num : Nat) (s : State) : SideKept s (beginClose num s) := by
  unfold beginClose; split <;> simp +contextual [SideKept]

@[simp] theorem newSend_side (sid : StreamId) (host succ : Bool) (prevEnd : BitVec 32)
    (waiting : List (Frame × Nat)) (s : State) :
    SideKept s (newSend sid host succ prevEnd waiting s) := by
  unfold newSend; dsimp only; (repeat' split) <;> simp +contextual [SideKept]

@[simp] theorem notePeak_side (u : Nat) (s : State) : SideSame s (notePeak u s) := by
  unfold notePeak; split <;> simp [SideSame]

@[simp] theorem report_side (r : FabReq) (s : State) : SideSame s (report r s) := by
  simp [report, SideSame]

@[simp] theorem forgetReq_side (id : Nat) (s : State) : SideSame s (forgetReq id s) := by
  simp [forgetReq, SideSame]

@[simp] theorem dropUnfit_side (num : Nat) (s : State) : SideKept s (dropUnfit num s) := by
  unfold dropUnfit; (repeat' split) <;> simp +contextual [SideKept]

@[simp] theorem sendOne_side (num : Nat) (s : State) : SideKept s (sendOne num s) := by
  unfold sendOne; (repeat' split) <;> simp +contextual [SideKept]

@[simp] theorem pump_side (num : Nat) (s : State) : SideKept s (pump num s) := by
  unfold pump
  split
  · exact .refl s
  · next c _ =>
    dsimp only
    refine .trans (dropUnfit_side num s) (.trans (foldl_side (fun t _ => sendOne_side num t) (List.range c.waiting.length) _) ?_)
    generalize (List.range c.waiting.length).foldl (fun t _ => sendOne num t) (dropUnfit num s) = u
    (repeat' split) <;> simp +contextual [SideKept]

@[simp] theorem handOver_side (sid : StreamId) (s : State) : SideKept s (handOver sid s) := by
  unfold handOver; dsimp only; (repeat' split) <;> simp +contextual [SideKept]

@[simp] theorem sendNeeding_side (origin : Origin) (sid : StreamId) (opc : BitVec 8) (need : Nat)
    (frames : List Frame) (s : State) :
    SideKept s (sendNeeding origin sid opc need frames s) := by
  unfold sendNeeding; dsimp only; split <;> simp +contextual [SideKept]

@[simp] theorem sendReq_side (origin : Origin) (sid : StreamId) (opc : BitVec 8) (frames : List Frame)
    (s : State) :
    SideKept s (sendReq origin sid opc frames s) := by
  simp +contextual [sendReq, SideKept]

@[simp] theorem sendAck_side (sid : StreamId) (psn : BitVec 32) (s : State) :
    SideKept s (sendAck sid psn s) := by
  unfold sendAck; split <;> simp +contextual [SideKept]

@[simp] theorem ackable_side (sid : StreamId) (psn : BitVec 32) (ce : Bool) (s : State) :
    SideKept s (ackable sid psn ce s) := by
  unfold ackable; dsimp only; (repeat' split) <;> simp +contextual [SideKept]

@[simp] theorem answer_side (f : Frame) (st : Status) (payload : Bytes) (s : State) :
    SideKept s (answer f st payload s) := by
  simp +contextual [answer, SideKept]

/-! ### Attach sessions -/

@[simp] theorem emitAtt_side (p : Nat) (m : AttMsg) (s : State) : SideSame s (emitAtt p m s) := by
  unfold emitAtt; (repeat' split) <;> simp [SideSame]

@[simp] theorem transmit_side (p : Nat) (m : AttMsg) (s : State) : SideSame s (transmit p m s) := by
  simp [transmit, SideSame]

@[simp] theorem flushAtt_side (p : Nat) (s : State) : SideSame s (flushAtt p s) := by
  unfold flushAtt
  dsimp only
  refine .trans (foldl_fst_sideSame (fun a m => ?_) (sess s p).blocked (s, [])) (modSess_side p _ _)
  split <;> simp [SideSame]

@[simp] theorem sendAtt_side (p : Nat) (m : AttMsg) (s : State) : SideSame s (sendAtt p m s) := by
  simp [sendAtt, SideSame]

@[simp] theorem finishReq_side (p id : Nat) (st : Status) (payload : Bytes) (s : State) :
    SideSame s (finishReq p id st payload s) := by
  unfold finishReq; dsimp only; (repeat' split) <;> simp [SideSame]

@[simp] theorem issueReq_side (p id : Nat) (s : State) : SideKept s (issueReq p id s) := by
  unfold issueReq; split <;> simp +contextual [SideKept]

@[simp] theorem releaseFlags_side (p : Nat) (s : State) : SideKept s (releaseFlags p s) := by
  unfold releaseFlags
  refine each_side (fun id t => ?_) _ s
  (repeat' split) <;> simp +contextual [SideKept]

@[simp] theorem endOut_side (p id : Nat) (st : Status) (payload : Bytes) (s : State) :
    SideKept s (endOut p id st payload s) := by
  simp +contextual [endOut, SideKept]

@[simp] theorem attachEnded_side (p id : Nat) (f : FabReq) (s : State) :
    SideKept s (attachEnded p id f s) := by
  unfold attachEnded; dsimp only; (repeat' split) <;> simp +contextual [SideKept]

@[simp] theorem giveCredit_side (p : Nat) (m : AttMsg) (s : State) : SideSame s (giveCredit p m s) := by
  simp [giveCredit, SideSame]

@[simp] theorem giveBack_side (p id : Nat) (m : AttMsg) (s : State) : SideSame s (giveBack p id m s) := by
  unfold giveBack; (repeat' split) <;> simp [SideSame]

@[simp] theorem sessLeave_side (p : Nat) (to_ : AttState) (s : State) : SideSame s (sessLeave p to_ s) := by
  simp [sessLeave, SideSame]

/-! ### Home points -/

@[simp] theorem sendInb_side (p : Nat) (m : AttMsg) (access off len : Nat) (locked : Bool) (s : State) :
    SideSame s (sendInb p m access off len locked s) := by
  unfold sendInb; split <;> simp [SideSame]

@[simp] theorem respond_side (f : Frame) (st : Status) (payload : Bytes) (s : State) :
    SideKept s (respond f st payload s) := by
  unfold respond; dsimp only; (repeat' split) <;> simp +contextual [SideKept]

@[simp] theorem dropParts_side (id : Nat) (s : State) : SideSame s (dropParts id s) := by
  simp [dropParts, SideSame]

@[simp] theorem dropHeld_side (id : Nat) (s : State) : SideSame s (dropHeld id s) := by
  simp [dropHeld, SideSame]

@[simp] theorem mirAdvance_side (n : Nat) : ∀ (k : Nat) (s : State), SideSame s (mirAdvance n k s)
  | 0, s => .refl s
  | k + 1, s => by
    unfold mirAdvance
    split
    · split
      · exact .trans (by simp [SideSame]) (mirAdvance_side n k _)
      · exact .refl s
    · exact .refl s

@[simp] theorem mirEnd_side (n : Nat) (f : Frame) (st : Status) (s : State) :
    SideSame s (mirEnd n f st s) := by
  unfold mirEnd; (repeat' split) <;> simp [SideSame]

@[simp] theorem finishAcc_side (a : Access) (s : State) : SideKept s (finishAcc a s) := by
  unfold finishAcc; (repeat' split) <;> simp +contextual [SideKept]

@[simp] theorem partOver_side (id off : Nat) (st : Status) (data : Bytes) (s : State) :
    SideKept s (partOver id off st data s) := by
  unfold partOver
  split
  · exact .refl s
  · dsimp only
    split
    · simp +contextual [SideKept]
    · split
      · simp +contextual [SideKept]
      · split
        · simp +contextual [SideKept]
        · refine .trans ?_ (each_side (fun mo t => ?_) _ _)
          · simp +contextual [SideKept]
          · (repeat' split) <;> simp +contextual [SideKept]

@[simp] theorem openEntry_side (h : Nat) (a : Access) (p : Part) (s : State) : SideSame s (openEntry h a p s).1 := by
  unfold openEntry; dsimp only; (repeat' split) <;> simp [SideSame]

@[simp] theorem closeEntry_side (p : Part) (s : State) : SideSame s (closeEntry p s) := by
  unfold closeEntry; (repeat' split) <;> simp [SideSame]

@[simp] theorem markBusy_side (h : Nat) (p : Part) (s : State) : SideSame s (markBusy h p s) := by
  unfold markBusy; dsimp only; split <;> simp [SideSame]

@[simp] theorem issueRun_side (h : Nat) (a : Access) (run : List Part) (s : State) :
    SideKept s (issueRun h a run s) := by
  unfold issueRun
  refine .trans (t := each run (fun p s => closeEntry p (markBusy h p s)) s) (by simp +contextual [SideKept]) (.ite ?_ (.ite ?_ ?_))
  · refine each_side (fun ps t => ?_) _ _
    dsimp only; (repeat' split) <;> simp +contextual [SideKept]
  · refine each_side (fun p t => ?_) _ _
    dsimp only; (repeat' split) <;> simp +contextual [SideKept]
  · exact .refl _

@[simp] theorem waitPart_slotPart_side (h : Nat) (tenant : BitVec 12) (more : Nat) (p : Part) (s : State) :
    SideSame s (waitPart.slotPart h tenant more p s) := by
  unfold waitPart.slotPart; dsimp only; (repeat' split) <;> simp [SideSame]

@[simp] theorem waitPart_side (h : Nat) (tenant : BitVec 12) (more : Nat) (p : Part) (s : State) :
    SideSame s (waitPart h tenant more p s) := by
  unfold waitPart; split <;> simp [SideSame]

@[simp] theorem enterPart_side (h : Nat) (a : Access) (acc : State × List Part) (p : Part) :
    SideKept acc.1 (enterPart h a acc p).1 := by
  unfold enterPart; dsimp only; (repeat' split) <;> simp +contextual [SideKept]

@[simp] theorem foldl_enterPart_side (h : Nat) (a : Access) (ps : List Part) (acc : State × List Part) :
    SideKept acc.1 (ps.foldl (enterPart h a) acc).1 := foldl_fst_side (enterPart_side h a) ps acc

@[simp] theorem drawAcc_side (s : State) : SideSame s (drawAcc s) := by
  simp [drawAcc, SideSame]

@[simp] theorem startAs_side (id h : Nat) (f : Frame) (cxl : Bool) (own : Nat) (reply : Option Frame)
    (s : State) :
    SideKept s (startAs id h f cxl own reply s) := by
  unfold startAs; dsimp only; (repeat' split) <;> simp +contextual [SideKept]

@[simp] theorem startAcc_side (h : Nat) (f : Frame) (cxl : Bool) (own : Nat) (reply : Option Frame)
    (s : State) :
    SideKept s (startAcc h f cxl own reply s) := by
  simp +contextual [startAcc, SideKept]

@[simp] theorem homeStart_side (id : Nat) (f : Frame) (s : State) : SideKept s (homeStart id f s) := by
  unfold homeStart; dsimp only; split <;> simp +contextual [SideKept]

@[simp] theorem holdStore_side (id own : Nat) (f : Frame) (s : State) :
    SideSame s (holdStore id own f s) := by
  unfold holdStore; dsimp only; split <;> simp [SideSame]

@[simp] theorem holdFeed_side : ∀ (n h : Nat) (s : State), SideSame s (holdFeed n h s)
  | 0, _, s => .refl s
  | n + 1, h, s => by
    unfold holdFeed
    split
    · exact .refl s
    · exact .trans (by simp [SideSame]) (holdFeed_side n h _)

@[simp] theorem heldOver_side (x : HeldStore) (st : Status) (payload : Bytes) (s : State) :
    SideKept s (heldOver x st payload s) := by
  unfold heldOver; (repeat' split) <;> simp +contextual [SideKept]

@[simp] theorem forwardHeld_side (p : PageMove) (x : HeldStore) (s : State) :
    SideKept s (forwardHeld p x s) := by
  unfold forwardHeld; dsimp only; (repeat' split) <;> simp +contextual [SideKept]

@[simp] theorem passHeld_side (id own : Nat) (p : PageMove) (f : Frame) (s : State) :
    SideKept s (passHeld id own p f s) := by
  unfold passHeld; dsimp only; split <;> simp +contextual [SideKept]

@[simp] theorem homePage_side (id : Nat) (f : Frame) (s : State) : SideKept s (homePage id f s) := by
  unfold homePage; dsimp only; (repeat' split) <;> simp +contextual [SideKept]

@[simp] theorem servePage_side (f : Frame) (s : State) : SideKept s (servePage f s) := by
  simp +contextual [servePage, SideKept]

@[simp] theorem applyHome_side (f : Frame) (s : State) : SideKept s (applyHome f s) := by
  unfold applyHome; split <;> simp +contextual [SideKept]

@[simp] theorem lostHeld_side (r : RecvCtx) (s : State) : SideSame s (lostHeld r s) := by
  simp [lostHeld, SideSame]

@[simp] theorem releaseOrd_side : ∀ (n : Nat) (sid : StreamId) (s : State), SideKept s (releaseOrd n sid s)
  | 0, _, s => .refl s
  | n + 1, sid, s => by
    unfold releaseOrd
    split
    · exact .refl s
    · split
      · exact .trans (by simp +contextual [SideKept]) (releaseOrd_side n sid _)
      · dsimp only
        split <;> exact .trans (by simp +contextual [SideKept]) (releaseOrd_side n sid _)

@[simp] theorem releaseStream_side (sid : StreamId) (s : State) : SideKept s (releaseStream sid s) := by
  simp +contextual [releaseStream, SideKept]

@[simp] theorem passPsn_side (f : Frame) (s : State) : SideKept s (passPsn f s) := by
  unfold passPsn; split <;> simp +contextual [SideKept]

@[simp] theorem duplicate_side (f : Frame) (r : RecvCtx) (s : State) : SideKept s (duplicate f r s) := by
  unfold duplicate; (repeat' split) <;> simp +contextual [SideKept]

@[simp] theorem noteDup_side (f : Frame) (s : State) : SideSame s (noteDup f s) := by
  exact .ite (by simp [SideSame]) (by simp [SideSame])

theorem windowed_side {apply : State → State} (ha : ∀ s, SideKept s (apply s)) (f : Frame) (s : State) :
    SideKept s (windowed apply f s) := by
  unfold windowed
  (repeat' split) <;> simp +contextual [SideKept, ha]

@[simp] theorem denyKey_side (f : Frame) (st : Status) (s : State) : SideKept s (denyKey f st s) := by
  unfold denyKey; split <;> simp +contextual [SideKept]

@[simp] theorem measBegin_side (f : Frame) (s : State) : SideKept s (measBegin f s) := by
  unfold measBegin; (repeat' split) <;> simp +contextual [SideKept]

@[simp] theorem homeEnter_side (f : Frame) (s : State) : SideKept s (homeEnter f s) := by
  unfold homeEnter
  dsimp only
  (repeat' split) <;> simp +contextual [SideKept, windowed_side (applyHome_side f)]

@[simp] theorem wakeMeas_side (s : State) : SideKept s (wakeMeas s) := by
  simp +contextual [wakeMeas, SideKept]

@[simp] theorem feedQueue_side (h : Nat) (s : State) : SideKept s (feedQueue h s) := by
  refine foldl_fst_side (fun acc x => ?_) _ (s, [])
  dsimp only; (repeat' split) <;> simp +contextual [SideKept]

@[simp] theorem tierWrite_side (space off : Nat) (bs : Bytes) (s : State) :
    SideSame s (tierWrite space off bs s) := by
  unfold tierWrite; split <;> simp [SideSame]

@[simp] theorem feedMeasured_side (num : Nat) (bs : Bytes) (s : State) :
    SideSame s (feedMeasured num bs s) := by
  unfold feedMeasured; dsimp only; (repeat' split) <;> simp [SideSame]

@[simp] theorem dropHome_side (h : Nat) (st : Status) (which : Access → Bool) (s : State) :
    SideKept s (dropHome h st which s) := by
  unfold dropHome
  refine each_side (fun a t => ?_) _ s
  refine .trans ?_ (each_side (fun b u => ?_) _ _)
  · split <;> simp +contextual [SideKept]
  · dsimp only; (repeat' split) <;> simp +contextual [SideKept]

@[simp] theorem inboundLost_side (h : Nat) (s : State) : SideKept s (inboundLost h s) := by
  simp +contextual [inboundLost, SideKept]

@[simp] theorem sessDown_side (p : Nat) (to_ : AttState) (s : State) : SideKept s (sessDown p to_ s) := by
  simp +contextual [sessDown, SideKept]

@[simp] theorem cutResults_side (c : Nat) (s : State) : SideKept s (cutResults c s) := by
  unfold cutResults; dsimp only; split <;> simp +contextual [SideKept]

/-! ### The mailbox -/

@[simp] theorem mbxEndLen_side (c : Nat) (st : Status) (len : Nat) (out : Bytes) (s : State) :
    SideSame s (mbxEndLen c st len out s) := by
  unfold mbxEndLen; dsimp only; (repeat' split) <;> simp [SideSame]

@[simp] theorem mbxEnd_side (c : Nat) (st : Status) (out : Bytes) (s : State) :
    SideSame s (mbxEnd c st out s) := by
  simp [mbxEnd, SideSame]

@[simp] theorem ctlNodes_side (nodes : List Nat) (m : Ctl) (s : State) : SideSame s (ctlNodes nodes m s) := by
  simp [ctlNodes, SideSame]

/-! ### Moves -/

@[simp] theorem endMove_side (m : Move) (st : Status) (s : State) : SideKept s (endMove m st s) := by
  unfold endMove; (repeat' split) <;> simp +contextual [SideKept]

@[simp] theorem noteRead_side (k : PageKey) (ecc : Ecc) (s : State) : SideSame s (noteRead k ecc s) := by
  unfold noteRead; (repeat' split) <;> simp [SideSame]

@[simp] theorem writeTier_side (x : Nat) (bs : Bytes) (s : State) : SideSame s (writeTier x bs s).1 := by
  unfold writeTier; dsimp only; (repeat' split) <;> simp [SideSame]

@[simp] theorem zeroRange_side (space off n : Nat) (s : State) : SideSame s (zeroRange space off n s) := by
  simp [zeroRange, SideSame]

@[simp] theorem clearMarks_side (old new runner : Nat) (s : State) :
    SideSame s (clearMarks old new runner s) := by
  simp [clearMarks, SideSame]

@[simp] theorem wakeArriving_recordPage_side (id own : Nat) (f : Frame) (s : State) :
    SideKept s (wakeArriving.recordPage id own f s) := by
  unfold wakeArriving.recordPage; (repeat' split) <;> simp +contextual [SideKept]

@[simp] theorem wakeArriving_side (s : State) : SideKept s (wakeArriving s) := by
  unfold wakeArriving
  refine .trans (t := { s with mov := { s.mov with arrWait := [] } }) (by simp +contextual [SideKept])
    (each_side (fun x t => ?_) _ _)
  split <;> simp +contextual [SideKept]

@[simp] theorem heldBack_side (x : HeldStore) (s : State) : SideKept s (heldBack x s) := by
  unfold heldBack; dsimp only; (repeat' split) <;> simp +contextual [SideKept]

@[simp] theorem giveUpPage_side (old new size runner : Nat) (s : State) :
    SideKept s (giveUpPage old new size runner s) := by
  unfold giveUpPage
  refine .trans ?_ (wakeArriving_side _)
  (repeat' split) <;> simp +contextual [SideKept]

@[simp] theorem dropPage_side (m : Move) (s : State) : SideKept s (dropPage m s) := by
  simp +contextual [dropPage, SideKept]

@[simp] theorem partWritten_side (m : Move) (st : Status) (s : State) : SideKept s (partWritten m st s) := by
  unfold partWritten; dsimp only; (repeat' split) <;> simp +contextual [SideKept]

@[simp] theorem engineIssue_side (m : Move) (opc : BitVec 8) (x n key tag : Nat) (bs : Bytes) (s : State) :
    SideKept s (engineIssue m opc x n key tag bs s) := by
  unfold engineIssue
  refine .ite ?_ (by simp +contextual [SideKept])
  refine .trans ?_ (each_side (fun f t => ?_) _ _)
  · simp +contextual [SideKept]
  · split <;> simp +contextual [SideKept]

@[simp] theorem partRead_held_side (m : Move) (buf : Bytes) (key tag : Nat) (s : State) :
    SideKept s (partRead.held m buf key tag s) := by
  unfold partRead.held
  refine .trans ?_ (each_side (fun f t => ?_) _ _)
  · simp +contextual [SideKept]
  · split <;> simp +contextual [SideKept]

@[simp] theorem partRead_side (m : Move) (buf : Bytes) (st : Status) (s : State) :
    SideKept s (partRead m buf st s) := by
  unfold partRead; dsimp only; (repeat' split) <;> simp +contextual [SideKept]

@[simp] theorem partAnswered_side (e : Nat) (st : Status) (data : List (Nat × Bytes)) (s : State) :
    SideKept s (partAnswered e st data s) := by
  unfold partAnswered; dsimp only; (repeat' split) <;> simp +contextual [SideKept]

@[simp] theorem pageFinished_side (m : Move) (s : State) : SideKept s (pageFinished m s) := by
  unfold pageFinished; dsimp only; (repeat' split) <;> simp +contextual [SideKept]

@[simp] theorem confirmTo_side (node : BitVec 11) (st : Status) (s : State) :
    SideSame s (confirmTo node st s) := by
  simp [confirmTo, SideSame]

@[simp] theorem drainsSettle_side (s : State) : SideSame s (drainsSettle s) := by
  simp [drainsSettle, SideSame]

@[simp] theorem movesSettle_side (s : State) : SideKept s (movesSettle s) := by
  unfold movesSettle
  extract_lets s1 s2 s3 due m s4
  have h1 : SideKept s s1 := each_side (fun _ _ => by split <;> simp +contextual [SideKept]) _ s
  have h2 : SideKept s1 s2 := each_side (fun _ _ => by split <;> simp +contextual [SideKept]) _ s1
  have h3 : SideKept s2 s3 := each_side (fun _ _ => (holdFeed_side _ _ _).kept) _ s2
  have h4 : SideKept s3 s4 := (mov_side s3 _).kept
  clear_value s1 s2 s3 due m s4
  have h5 := each_side (fun (x : BitVec 11 × Bool × PageMove) t => (confirmTo_side x.1 .done t).kept) due s4
  exact h1.trans <| h2.trans <| h3.trans <| h4.trans <| h5.trans <| (wakeMeas_side _).trans ((drainsSettle_side _).kept)

/-! ### The array -/

@[simp] theorem landPeakNote_side (g : Nat) (s : State) : SideSame s (landPeakNote g s) := by
  unfold landPeakNote; dsimp only; split <;> simp [SideSame]

@[simp] theorem landAsk_side (g ctx chunk bytes : Nat) (s : State) :
    SideSame s (landAsk g ctx chunk bytes s) := by
  simp [landAsk, SideSame]

@[simp] theorem landClear_side (ctx : Nat) (s : State) : SideSame s (landClear ctx s) := by
  simp [landClear, SideSame]

/-! ### Collectives -/

@[simp] theorem toIdle_side (c : Nat) (s : State) : SideSame s (toIdle c s) := by
  simp [toIdle, SideSame]

@[simp] theorem startInst_side (c : Nat) (seq : BitVec 32) (s : State) : SideSame s (startInst c seq s) := by
  simp [startInst, SideSame]

/-- A tree node takes its context; the others are taken from the state that leaves. Stated of the functional that
`takeNodes` is the fixed point of: Lean unfolds `List.range 4096` when asked for its equation. -/
theorem takeNodes_cons_side {tenant : BitVec 12} {alm : Option (BitVec 32)} {descr : Bytes} {ids : List (BitVec 16)}
    {n : TNode} {ts : List TNode} {below : List.below (motive := fun _ => State → Except NoRoom State) (n :: ts)}
    (hb : ∀ s t, below.1 s = .ok t → SideKept s t) {s t : State}
    (h : takeNodes._f tenant alm descr ids (n :: ts) below s = .ok t) : SideKept s t := by
  delta takeNodes._f at h
  dsimp -zeta only at h
  extract_lets d full free set fits at h
  clear_value full fits free
  split at h
  · cases h
  · split at h
    · cases h
    · split at h
      · exact .trans (by simp +contextual [SideKept]) (hb _ t h)
      · cases h

theorem takeNodes_side {tenant : BitVec 12} {alm : Option (BitVec 32)} {descr : Bytes} {ids : List (BitVec 16)}
    {ts : List TNode} : ∀ s t, takeNodes tenant alm descr ids ts s = .ok t → SideKept s t := by
  delta takeNodes
  induction ts with
  | nil => intro s t h; cases h; exact .refl s
  | cons n ts ih =>
    intro s t h
    with_reducible exact takeNodes_cons_side ih h

theorem collReserve_side {tenant : BitVec 12} {alm : Option (BitVec 32)} {descr : Bytes} {ids : List (BitVec 16)}
    {s t : State} (h : collReserve tenant alm descr ids s = .ok t) : SideKept s t := by
  unfold collReserve at h
  split at h
  · cases h
  · exact takeNodes_side s t h

@[simp] theorem noteNoRoom_side (e : NoRoom) (s : State) : SideSame s (noteNoRoom e s) := by
  simp [noteNoRoom, SideSame]

@[simp] theorem sendColl_side (c : Nat) (opc : BitVec 8) (cls : BitVec 2) (dst chunk lo hi : Nat) (bs : Bytes)
    (s : State) :
    SideKept s (sendColl c opc cls dst chunk lo hi bs s) := by
  simp +contextual [sendColl, SideKept]

@[simp] theorem endDesc_side (c : Nat) (m : MemberSt) (st : Status) (s : State) :
    SideKept s (endDesc c m st s) := by
  unfold endDesc; split <;> simp +contextual [SideKept]

@[simp] theorem enterAbort_side (c : Nat) (st : Status) (seq : BitVec 32) (who : List (Nat × Status))
    (s : State) :
    SideKept s (enterAbort c st seq who s) := by
  unfold enterAbort
  extract_lets x s1 s2 s3
  have h1 : SideKept s s1 := each_side (fun m t => endDesc_side c m _ t) _ s
  have h2 : SideKept s1 s2 := each_side (fun w t => endOut_side _ _ _ _ t) _ s1
  clear_value s1 s2
  exact h1.trans (h2.trans (by simp +contextual [s3, SideKept]))

@[simp] theorem sendAborts_side (x : Ctx) (st : Status) (seq : BitVec 32) (s : State) :
    SideKept s (sendAborts x st seq s) := by
  simp +contextual [sendAborts, SideKept]

@[simp] theorem abortHandle_side (tenant : BitVec 12) (handle : Nat) (seq : BitVec 32) (st : Status)
    (who : List (Nat × Status)) (s : State) :
    SideKept s (abortHandle tenant handle seq st who s) := by
  unfold abortHandle
  have hall : ∀ (hears : List (Nat × Ctx)) (g : Nat × Ctx → Ctx → Ctx), SideKept s (each hears (fun x t =>
      sendAborts x.2 st seq (modCtx x.1 (g x) (if x.2.takesAbort seq then enterAbort x.1 st seq who t else t))) s) :=
    fun hears g => each_side (fun x t => by split <;> simp +contextual [SideKept]) hears s
  dsimp only
  split
  · exact .refl s
  · (repeat' split) <;> simp +contextual [SideKept, hall]

@[simp] theorem abortCtx_side (c : Nat) (st : Status) (who : List (Nat × Status)) (s : State) :
    SideKept s (abortCtx c st who s) := by
  unfold abortCtx; dsimp only; split <;> simp +contextual [SideKept]

@[simp] theorem notePages_side (tenant fva n : Nat) (s : State) : SideSame s (notePages tenant fva n s) := by
  simp [notePages, SideSame]

@[simp] theorem memberWrite_side (c : Nat) (m : MemberSt) (fva key : Nat) (bs : Bytes) (ord : Bool)
    (s : State) :
    SideKept s (memberWrite c m fva key bs ord s) := by
  unfold memberWrite; dsimp only; (repeat' split) <;> simp +contextual [SideKept]

@[simp] theorem finishCtx_side (c : Nat) (s : State) : SideKept s (finishCtx c s) := by
  unfold finishCtx; dsimp only; (repeat' split) <;> simp +contextual [SideKept]

@[simp] theorem doneDown_side : ∀ (n c : Nat) (s : State), SideKept s (doneDown n c s)
  | 0, _, s => .refl s
  | n + 1, c, s => by
    unfold doneDown
    dsimp only
    split
    · exact .refl s
    · refine .trans (.trans ?_ (each_side (fun k t => ?_) _ _)) (finishCtx_side c _)
      · simp +contextual [SideKept]
      · (repeat' split) <;> simp +contextual [SideKept, doneDown_side n]

@[simp] theorem rootDone_side (c : Nat) (s : State) : SideKept s (rootDone c s) := by
  unfold rootDone; dsimp only; split <;> simp +contextual [SideKept]

@[simp] theorem toMember_side (c i k lo hi : Nat) (cls : BitVec 2) (bs : Bytes) (s : State) :
    SideKept s (toMember c i k lo hi cls bs s) := by
  unfold toMember; dsimp only; split <;> simp +contextual [SideKept]

@[simp] theorem putSlot_side (c : Nat) (t : Slot) (s : State) : SideSame s (putSlot c t s) := by
  simp [putSlot, SideSame]

@[simp] theorem sendCredit_side (c dst lo hi l : Nat) (s : State) :
    SideKept s (sendCredit c dst lo hi l s) := by
  simp +contextual [sendCredit, SideKept]

@[simp] theorem serveOne_side (c : Nat) (w : Nat × Nat × Nat × Bool) (s : State) :
    SideKept s (serveOne c w s) := by
  unfold serveOne
  dsimp only
  split
  · exact .refl s
  · split
    · simp [SideKept]
    · split
      · exact .refl s
      · split
        · (repeat' split) <;> simp +contextual [SideKept]
        · split
          · exact .refl s
          · refine .trans ?_ (finishCtx_side c _)
            split <;> simp +contextual [SideKept]

@[simp] theorem serve_side (c : Nat) (s : State) : SideKept s (serve c s) := by
  simp +contextual [serve, SideKept]

@[simp] theorem grantFor_side (c i : Nat) (s : State) : SideKept s (grantFor c i s) := by
  unfold grantFor; dsimp only; (repeat' split) <;> simp +contextual [SideKept]

@[simp] theorem grantAll_side (c : Nat) (s : State) : SideKept s (grantAll c s) := by
  simp +contextual [grantAll, SideKept]

theorem agree_kidAgrees_side : ∀ n : Nat, (∀ (c : Nat) (s : State), SideKept s (agree n c s)) ∧
    ∀ (c lo : Nat) (dg : BitVec 64) (seq : BitVec 32) (s : State), SideKept s (kidAgrees n c lo dg seq s)
  | 0 => by simp +contextual [agree, kidAgrees, SideKept]
  | n + 1 => by
    obtain ⟨ha, hk⟩ := agree_kidAgrees_side n
    constructor
    · intro c s
      unfold agree
      dsimp only
      split
      · exact .refl s
      · refine .trans ?_ ((serve_side c _).trans (rootDone_side c _))
        (repeat' split) <;> simp +contextual [SideKept, hk]
    · intro c lo dg seq s
      unfold kidAgrees
      dsimp only
      (repeat' split) <;> simp +contextual [SideKept, ha]

@[simp] theorem agree_side (n c : Nat) (s : State) : SideKept s (agree n c s) := (agree_kidAgrees_side n).1 c s

@[simp] theorem kidAgrees_side (n c lo : Nat) (dg : BitVec 64) (seq : BitVec 32) (s : State) :
    SideKept s (kidAgrees n c lo dg seq s) := (agree_kidAgrees_side n).2 c lo dg seq s

@[simp] theorem recordDesc_side (c i id : Nat) (bs : Bytes) (s : State) :
    SideKept s (recordDesc c i id bs s) := by
  unfold recordDesc; dsimp only; (repeat' split) <;> simp +contextual [SideKept]

@[simp] theorem descStep_side (p id : Nat) (m : AttMsg) (held : Bool) (s : State) :
    SideKept s (descStep p id m held s) := by
  unfold descStep; dsimp only; (repeat' split) <;> simp +contextual [SideKept]

@[simp] theorem dataStep_side (p id : Nat) (m : AttMsg) (s : State) : SideKept s (dataStep p id m s) := by
  unfold dataStep; dsimp only; (repeat' split) <;> simp +contextual [SideKept]

@[simp] theorem moveOn_side (c : Nat) (s : State) : SideKept s (moveOn c s) := by
  unfold moveOn
  extract_lets x kids ws s1 s2 s3
  refine .ite (.refl s) ?_
  have h1 : SideKept s s1 := by simp +contextual [s1, SideKept]
  have h2 : SideKept s1 s2 := by unfold s2; split <;> simp +contextual [SideKept]
  have h3 : SideKept s2 s3 := each_side (fun _ _ => kidAgrees_side _ _ _ _ _ _) kids s2
  clear_value s1 s2 s3
  refine h1.trans <| h2.trans <| h3.trans <| each_side (fun w t => ?_) ws s3
  (repeat' split) <;> simp +contextual [SideKept]

@[simp] theorem freeCtx_side (c : Nat) (s : State) : SideKept s (freeCtx c s) := by
  unfold freeCtx
  extract_lets x s1
  have h1 : SideKept s s1 := each_side (fun w t => by dsimp only; (repeat' split) <;> simp +contextual [SideKept]) _ s
  exact h1.trans (by simp +contextual [SideKept])

@[simp] theorem freeHandle_side (tenant : BitVec 12) (handle : Nat) (which : Ctx → Bool) (s : State) :
    SideKept s (freeHandle tenant handle which s) := by
  exact (each_side (fun (x : Nat × Ctx) t => abortCtx_side x.1 .aborted [] t) _ s).trans
    (each_side (fun (x : Nat × Ctx) t => freeCtx_side x.1 t) _ _)

@[simp] theorem modOpen_side (p id : Nat) (f : TreeOpenSt → TreeOpenSt) (s : State) :
    SideSame s (modOpen p id f s) := by
  simp [modOpen, SideSame]

@[simp] theorem endOpen_side (o : TreeOpenSt) (st : Status) (s : State) : SideKept s (endOpen o st s) := by
  unfold endOpen
  refine .trans ?_ (endOut_side _ _ _ _ _)
  dsimp only; (repeat' split) <;> simp +contextual [SideKept]

@[simp] theorem listRead_side (o : TreeOpenSt) (s : State) : SideKept s (listRead o s) := by
  unfold listRead
  extract_lets d bs ids chk
  refine .ite (by simp +contextual [SideKept]) (.ite (by simp +contextual [SideKept]) ?_)
  split
  · simp +contextual [SideKept]
  · rename_i t h
    exact (collReserve_side h).trans (.ite (by simp +contextual [SideKept]) (by simp +contextual [SideKept]))

@[simp] theorem listPart_side (p id run : Nat) (st : Status) (data : List (Nat × Bytes)) (s : State) :
    SideKept s (listPart p id run st data s) := by
  unfold listPart; dsimp only; (repeat' split) <;> simp +contextual [SideKept]

@[simp] theorem collEnded_side (c : Nat) (st : Status) (s : State) : SideKept s (collEnded c st s) := by
  unfold collEnded; (repeat' split) <;> simp +contextual [SideKept]

@[simp] theorem gatherWords_side (c : Nat) (m : MemberSt) (src n : Nat) (s : State) :
    SideKept s (gatherWords c m src n s) := by
  simp +contextual [gatherWords, SideKept]

@[simp] theorem resultWritten_side (w : Nat × Nat × Nat × Status) (s : State) :
    SideKept s (resultWritten w s) := by
  unfold resultWritten
  extract_lets c i key st x left mine s1 s2 s3 x3 d src s4 y s5 n s6
  have h1 : SideKept s s1 := by simp +contextual [s1, SideKept]
  have h2 : SideKept s1 s2 := by unfold s2; split <;> simp +contextual [SideKept]
  have h3 : SideKept s2 s3 := by simp +contextual [s3, SideKept]
  have h4 : SideKept s3 s4 := by simp +contextual [s4, SideKept]
  have h5 : SideKept s4 s5 := by simp +contextual [s5, SideKept]
  have h6 : SideKept s3 s6 := by
    refine .ite (h4.trans (.ite (h5.trans ?_) (.refl s4))) (.refl s3)
    split <;> simp +contextual [SideKept]
  clear_value s1 s2 s3 s4 s5 s6
  refine .ite (.refl s) ((h1.trans h2).trans (.ite (abortCtx_side _ _ _ _) (.ite ?_ (finishCtx_side _ _))))
  exact (h3.trans h6).trans (finishCtx_side _ _)

@[simp] theorem collSettle_side (s : State) : SideKept s (collSettle s) := by
  have hwrites : SideKept s { s with coll := { s.coll with writes := [] } } := ⟨rfl, rfl, rfl, fun _ _ => rfl⟩
  exact hwrites.trans ((each_side (fun w t => resultWritten_side w t) _ _).trans
    (each_side (fun (x : Nat × Ctx) t => moveOn_side x.1 t) _ _))

/-! ### Almanacs -/

theorem deviceStore_side {o : Origin} {tenant : BitVec 12} {ep fva key tag : Nat} {bs : Bytes} {cls : BitVec 2}
    {ord : Bool} : ∀ {fuel : Nat} {s t : State},
      deviceStore o tenant ep fva key tag bs cls ord fuel s = some t → SideKept s t
  | 0, _, _, h => by cases h
  | fuel + 1, s, t, h => by
    unfold deviceStore at h
    dsimp only at h
    split at h
    · cases h
    · cases h
      simp +contextual [SideKept]

@[simp] theorem multicastEnded_side (x : McastPort) (st : Status) (s : State) :
    SideKept s (multicastEnded x st s) := by
  unfold multicastEnded
  refine .ite (.refl s) ?_
  dsimp only
  cases h : deviceStore .record x.tenant (slotEp s x.port) (fvaAt (slotEp s x.port) (beField x.desc 48 8))
      (beField x.desc 40 2) (beField x.desc 42 4) (leBytes 8 (x.iter + 1)) 2 true 3 s with
  | none => exact .refl s
  | some t => exact deviceStore_side h

/-! ### Routes -/

@[simp] theorem remapOff_side (n p : Nat) (s : State) : SideSame s (remapOff n p s) := by
  simp [remapOff, SideSame]

@[simp] theorem repairRoutes_side (n p : Nat) (s : State) : SideSame s (repairRoutes n p s) := by
  simp [repairRoutes, SideSame]

@[simp] theorem dropQueued_side (p : Nat) (s : State) : SideKept s (dropQueued p s) := by
  simp +contextual [dropQueued, SideKept]

@[simp] theorem unsettle_side (s : State) : SideSame s (unsettle s) := by
  unfold unsettle; split <;> simp [SideSame]

@[simp] theorem fabricLinkFailed_side (p : Nat) (s : State) : SideKept s (fabricLinkFailed p s) := by
  simp +contextual [fabricLinkFailed, SideKept]

/-! ### The host link -/

@[simp] theorem cxlServe_side (f : Frame) (s : State) : SideKept s (cxlServe f s) := by
  unfold cxlServe; split <;> simp +contextual [SideKept]

/-! ### What follows of itself -/

@[simp] theorem forwardEnded_side (id : Nat) (r : FabReq) (s : State) : SideKept s (forwardEnded id r s) := by
  unfold forwardEnded; split <;> simp +contextual [SideKept]

@[simp] theorem originEnded_side (r : FabReq) (s : State) : SideKept s (originEnded r s) := by
  unfold originEnded; split <;> simp +contextual [SideKept]

@[simp] theorem settleOnce_side (s : State) : SideKept s (settleOnce s) := by
  unfold settleOnce
  extract_lets es tr s1 hs mv s2 cs s3
  have h1 : SideKept s s1 := (trn_side rfl).kept.trans (each_side originEnded_side es _)
  have h2 : SideKept s1 s2 := (mov_side s1 _).kept.trans (each_side (fun _ _ => partAnswered_side _ _ _ _) hs _)
  have h3 : SideKept s2 s3 := .trans (by simp +contextual [SideKept, modHif]) (each_side cxlServe_side cs _)
  clear_value s1 s2 s3
  exact h1.trans <| h2.trans <| h3.trans <| (collSettle_side _).trans (movesSettle_side _)

@[simp] theorem settleLoop_side : ∀ (n : Nat) (s : State), SideKept s (settleLoop n s)
  | 0, s => .refl s
  | n + 1, s => by
    unfold settleLoop
    dsimp only
    split
    · exact (settleOnce_side s).trans (settleLoop_side n _)
    · exact settleOnce_side s

@[simp] theorem moveWaiting_side (s : State) : SideKept s (moveWaiting s) := by
  unfold moveWaiting
  extract_lets s1 s2
  have h1 : SideKept s s1 := each_side (fun (x : Nat × Session) t => releaseFlags_side x.1 t) _ s
  have h2 : SideKept s1 s2 := .ite (.refl s1) (unpark_side s1)
  exact h1.trans (h2.trans (each_side (fun (c : SendCtx) t => pump_side c.num t) _ s2))

/-! ### What is lost with a link or a node (R134, R145) -/

theorem mem_insertNat {d e : Nat} : ∀ {xs : List Nat}, d ∈ xs → d ∈ insertNat e xs
  | x :: xs, h => by
    unfold insertNat
    split
    · exact .tail _ h
    · split
      · exact h
      · rcases List.mem_cons.1 h with rfl | h
        · exact .head _
        · exact .tail _ (mem_insertNat h)

@[simp] theorem feedStarved_side (u : Nat) (s : State) : SideKept s (feedStarved u s) := by
  unfold feedStarved; (repeat' split) <;> simp +contextual [SideKept]

@[simp] theorem freeSend_side (num : Nat) (st : Status) (s : State) : SideKept s (freeSend num st s) := by
  unfold freeSend
  split
  · exact .refl s
  · next c h =>
    have hdrop : SideKept s (dropSend num s) := ⟨rfl, rfl, rfl, fun _ _ => rfl⟩
    refine hdrop.trans (.trans (each_side (fun id t => ?_) _ _) (feedStarved_side _ _))
    (repeat' split) <;> simp +contextual [SideKept]

@[simp] theorem freeEndpoint_side (e : Nat) (st : Status) (s : State) : SideKept s (freeEndpoint e st s) := by
  simp +contextual [freeEndpoint, SideKept]

@[simp] theorem collPortLost_side (p : Nat) (st : Status) (s : State) : SideKept s (collPortLost p st s) := by
  refine each_side (fun x t => ?_) _ s
  split <;> simp +contextual [SideKept]

@[simp] theorem treeOpenExpire_side (tenant : BitVec 12) (handle : Nat) (s : State) :
    SideKept s (treeOpenExpire tenant handle s) := by
  unfold treeOpenExpire; (repeat' split) <;> simp +contextual [SideKept]

@[simp] theorem edgesLost_side (n : Nat) (s : State) : SideKept s (edgesLost n s) := by
  refine .trans (each_side (fun x t => ?_) _ s) (each_side (fun o t => treeOpenExpire_side _ _ t) _ _)
  simp +contextual [SideKept]

@[simp] theorem retimerPresets_side (p : Nat) (s : State) : SideKept s (retimerPresets p s) := by
  unfold retimerPresets; (repeat' split) <;> simp +contextual [SideKept]

/-- From `s` to `t` ports and lasers are kept, and what is quarantined stays so. -/
structure LossKept (s t : State) : Prop where
  ports  : t.ports = s.ports
  lasers : t.lasers = s.lasers
  quar   : ∀ e ∈ s.trn.quar, e ∈ t.trn.quar

namespace LossKept

theorem trans {s t u : State} (h : LossKept s t) (h' : LossKept t u) : LossKept s u :=
  ⟨h'.ports.trans h.ports, h'.lasers.trans h.lasers, fun e he => h'.quar e (h.quar e he)⟩

theorem of_side {s t : State} (h : SideKept s t) : LossKept s t := by
  obtain ⟨hp, hl, hq, -⟩ := h
  exact ⟨hp, hl, fun e he => hq ▸ he⟩

theorem each {α : Type} {f : α → State → State} (h : ∀ x s, LossKept s (f x s)) :
    ∀ (xs : List α) (s : State), LossKept s (Machine.each xs f s) :=
  foldl_rel (R := LossKept) (fun s => of_side (.refl s)) trans (fun s x => h x s)

/-- After the bit of an endpoint is set, the end of its sessions keeps ports, lasers and quarantine. -/
theorem quarHere_of_mark {e : Nat} {s : State} (h : quarantined s e = false) :
    LossKept { s with trn := { s.trn with quar := insertNat e s.trn.quar } } (quarHere e s) := by
  have htrace : LossKept { s with trn := { s.trn with quar := insertNat e s.trn.quar } }
      (trace 0x40 e 0 srcHw { s with trn := { s.trn with quar := insertNat e s.trn.quar } }) :=
    .of_side (by simp +contextual [SideKept])
  rw [quarHere, if_neg (by simp [h])]
  refine htrace.trans (.of_side (.trans (freeEndpoint_side e .targetLost _) ?_))
  dsimp only
  split <;> simp +contextual [SideKept]

theorem quarHere (e : Nat) (s : State) : LossKept s (quarHere e s) := by
  by_cases h : quarantined s e = true
  · rw [Machine.quarHere, if_pos h]
    exact .of_side (.refl s)
  · have hmark : LossKept s { s with trn := { s.trn with quar := insertNat e s.trn.quar } } :=
      ⟨rfl, rfl, fun d hd => mem_insertNat hd⟩
    exact hmark.trans (quarHere_of_mark (by simpa using h))

theorem quarFound (e : Nat) (s : State) : LossKept s (quarFound e s) := by
  unfold Machine.quarFound
  split
  · exact .of_side (.refl s)
  · exact (quarHere e s).trans (.of_side (by simp +contextual [SideKept]))

theorem nodeDown (n : Nat) (gone : List Nat) (s : State) : LossKept s (nodeDown n gone s) := by
  have hgone := each (fun m t => (of_side (edgesLost_side m t)).trans (each quarFound (nodeEps m) _)) gone
    (notice .deviceDown 0 (0x4800 + n) 0 s)
  have hnotice : LossKept s (notice .deviceDown 0 (0x4800 + n) 0 s) := .of_side (by simp +contextual [SideKept])
  exact hnotice.trans ⟨hgone.ports, hgone.lasers, hgone.quar⟩

theorem linkLost (p : Nat) (s : State) : LossKept s (linkLost p s) := by
  unfold Machine.linkLost
  dsimp only
  split
  · have hmarks : LossKept s (modEg p (fun q => { q with rekeying := false, rekeyDue := false }) s) := ⟨rfl, rfl, fun _ => id⟩
    refine hmarks.trans (.of_side ?_)
    split <;> simp +contextual [SideKept]
  · exact .of_side (.refl s)

end LossKept

/-- An endpoint the device finds lost is quarantined then (R145). -/
theorem mem_quar_quarFound (e : Nat) (s : State) : e ∈ (quarFound e s).trn.quar := by
  by_cases h : quarantined s e = true
  · rw [quarFound, if_pos h]
    simpa [quarantined] using h
  · have hmark := (LossKept.quarHere_of_mark (by simpa using h)).quar e (mem_insertNat_self e s.trn.quar)
    rw [quarFound, if_neg h]
    simpa using hmark

theorem mem_quar_each {e : Nat} : ∀ {es : List Nat}, e ∈ es → ∀ s : State, e ∈ (each es quarFound s).trn.quar
  | d :: es, he, s => by
    rcases List.mem_cons.1 he with rfl | he
    · exact (LossKept.each LossKept.quarFound es _).quar e (mem_quar_quarFound e s)
    · exact mem_quar_each he _

theorem each_cons {α : Type} (x : α) (xs : List α) (f : α → State → State) (s : State) :
    each (x :: xs) f s = each xs f (f x s) := rfl

theorem nodeDown_trn (n : Nat) (gone : List Nat) (s : State) : (nodeDown n gone s).trn =
    (each gone (fun m s => each (nodeEps m) quarFound (edgesLost m s)) (notice .deviceDown 0 (0x4800 + n) 0 s)).trn := rfl

/-- The endpoints of a node that goes down are quarantined, those of the nodes behind it after them (R145). -/
theorem mem_quar_nodeDown {n e : Nat} (he : e ∈ nodeEps n) (gone : List Nat) (s : State) :
    e ∈ (nodeDown n (n :: gone) s).trn.quar := by
  rw [nodeDown_trn]
  generalize notice .deviceDown 0 (0x4800 + n) 0 s = u
  have hgone : ∀ u, LossKept u (each gone (fun m s => each (nodeEps m) quarFound (edgesLost m s)) u) :=
    .each (fun m t => (LossKept.of_side (edgesLost_side m t)).trans (.each LossKept.quarFound (nodeEps m) _)) gone
  have hnode := mem_quar_each he (edgesLost n u)
  rw [each_cons]
  exact (hgone _).quar e hnode

/-! ### A row's settling -/

/-- What follows of itself keeps ports, lasers and quarantine, and the marks of a rekey that stand. -/
theorem settle_side (s : State) : SideKept s (settle s) := by
  by_cases hq : quiet s = true
  · simp [settle_quiet hq, SideKept]
  · have hloops : SideKept { s with out := [] } (settleLoop 64 (moveWaiting (settleLoop 64 { s with out := [] }))) :=
      (settleLoop_side 64 _).trans ((moveWaiting_side _).trans (settleLoop_side 64 _))
    obtain ⟨-, -, hquar, hmarks⟩ := hloops
    exact ⟨by simp, by simp, by simp [settle, handOn, hq], by simpa [settle, handOn, hq] using hmarks⟩

end Sys2Proof.Machine
end

section
/-!
PROOFS. Retimers and lasers (R300 to R302): how a row of the ports runs, what a port's way back to DETECT leaves (R292), and the
rows.
-/

namespace Sys2Proof.Machine
open Sys2Proof

/-! ### How a row of the ports runs -/

/-- A row that reaches the ports runs: the ports are as its effect leaves them, and what that puts out stands first. -/
theorem run_ports {r : Reach} {s : State} {f : State → State} (h : s.chip.running = true) (hp : r.ports = true) :
    ∃ t, run r s f = .next t ∧ t.ports = (f s).ports ∧ (f s).out <+: t.out := by
  obtain ⟨t, ht, ⟨-, hports, -, -, -⟩, hout⟩ := run_links (r := r) (f := f) h
  exact ⟨t, ht, by simpa [Reach.bound, hp] using hports, hout⟩

/-- A row that reaches the lasers runs: they are as its effect leaves them. -/
theorem run_lasers {r : Reach} {s : State} {f : State → State} (h : s.chip.running = true)
    (hp : r.ports = true ∨ (f s).ports = s.ports) (hl : r.lasers = true) :
    ∃ t, run r s f = .next t ∧ t.ports = (f s).ports ∧ t.lasers = (f s).lasers := by
  refine ⟨_, run_running h, ?_, by simp [Reach.bound, hl]⟩
  rcases hp with hp | hp <;> simp [Reach.bound, hp]

/-! ### Back to DETECT -/

/-- A port in use that goes to DETECT loses its link and starts afresh, without lanes. -/
theorem toDetect_eq {p : Nat} {failed : Bool} {s : State} (h : ¬ PortIdle s p) :
    ∃ x : PortSt, x.state = .detect ∧ x.active = 0 ∧ x.locked = 0 ∧
      toDetect p failed s = bump (cntPrtRetrainCnt p) (retimerPresets p (setPort p x (linkLost p s))) := by
  have hx : ((portSt s p).state == .disabled || (portSt s p).state == .detect) = false := by
    simpa [PortIdle] using h
  unfold toDetect
  extract_lets x training u x1 x2 full x3 x4
  have hx4 : x4.state = .detect ∧ x4.active = 0 ∧ x4.locked = 0 := by
    simp only [x4, x3, groupRate]
    split <;> exact ⟨rfl, rfl, rfl⟩
  obtain ⟨hstate, hactive, hlocked⟩ := hx4
  exact ⟨x4, hstate, hactive, hlocked, by rw [if_neg (by simp [x, hx])]⟩

/-- A port in use is in DETECT then, without lanes; ports beside it stay as they were. -/
theorem toDetect_fresh {p : Nat} {failed : Bool} {s : State} (h : ¬ PortIdle s p) :
    ∃ x : PortSt, x.state = .detect ∧ x.active = 0 ∧ x.locked = 0 ∧ (toDetect p failed s).ports = tput {} s.ports p x := by
  obtain ⟨x, hstate, hactive, hlocked, heq⟩ := toDetect_eq (failed := failed) h
  exact ⟨x, hstate, hactive, hlocked, by simp [heq, setPort]⟩

theorem toDetect_state (p : Nat) (failed : Bool) (s : State) :
    (portSt (toDetect p failed s) p).state = if (portSt s p).state = .disabled then .disabled else .detect := by
  by_cases h : PortIdle s p
  · rw [toDetect_idle h]
    rcases h with h | h <;> simp [h]
  · obtain ⟨x, hx, -, -, hports⟩ := toDetect_fresh (failed := failed) h
    have hstate : (portSt s p).state ≠ .disabled := fun hd => h (.inl hd)
    rw [if_neg hstate]
    simp [portSt, hports, hx]

theorem toDetect_other {p q : Nat} (hq : q ≠ p) (failed : Bool) (s : State) :
    portSt (toDetect p failed s) q = portSt s q := by
  by_cases h : PortIdle s p
  · rw [toDetect_idle h]
  · obtain ⟨x, -, -, -, hports⟩ := toDetect_fresh (failed := failed) h
    simp [portSt, hports, tget_tput_ne _ _ _ _ hq]

/-- A port's way to DETECT keeps the lasers, and what is quarantined stays so. -/
theorem toDetect_lasers_quar (p : Nat) (failed : Bool) (s : State) :
    (toDetect p failed s).lasers = s.lasers ∧ ∀ e ∈ s.trn.quar, e ∈ (toDetect p failed s).trn.quar := by
  by_cases h : PortIdle s p
  · simp [toDetect_idle h]
  · obtain ⟨x, -, -, -, heq⟩ := toDetect_eq (failed := failed) h
    have hlost := LossKept.linkLost p s
    exact ⟨by simp [heq, hlost.lasers], fun e he => by simpa [heq] using hlost.quar e he⟩

/-! ### Retimers and lasers (R300 to R302) -/

theorem raisePrt_ite_keeps (c : Bool) (p b : Nat) (s : State) : (if c then s else raisePrt p b s).lasers = s.lasers ∧
    ∀ q, portSt (if c then s else raisePrt p b s) q = portSt s q := by
  cases c <;> simp [raisePrt, portSt_raiseAt]

/-- A module's failure writes its own record, and takes its two ports to DETECT. -/
theorem moduleFail_eq (m : Nat) (present : Bool) (s : State) :
    (tget {} (moduleFail m present s).lasers m = { tget {} s.lasers m with
      present := present, enabled := false, interlock := !present, fault := present }) ∧
    ∀ p ∈ [72 + 2 * m, 73 + 2 * m], (portSt (moduleFail m present s) p).state =
      if (portSt s p).state = .disabled then .disabled else .detect := by
  have hkeeps := raisePrt_ite_keeps present
  have hfirst : 72 + 2 * m ≠ 73 + 2 * m := by omega
  refine ⟨?_, ?_⟩
  · simp [moduleFail, each, hkeeps, toDetect_lasers_quar]
  · simp only [moduleFail, each, List.foldl_cons, List.foldl_nil, List.mem_cons, List.not_mem_nil, or_false, hkeeps]
    rintro p (rfl | rfl)
    · rw [toDetect_other hfirst, (hkeeps ..).2, toDetect_state]
      rfl
    · rw [toDetect_state, (hkeeps ..).2, toDetect_other hfirst.symm]
      rfl

/-- Settles O22: each row's effect is run (`run_ports`, `run_lasers`), and none but the failure of a module reaches more than a
port's own record, or than what is put out. -/
theorem retimersAndLasers : Obligations.RetimersAndLasers := by
  unfold Obligations.RetimersAndLasers
  refine ⟨?poll, ?reset, ?shutoff, ?probe, ?back, ?fail, ?enable⟩
  case poll =>
    intro s p present lock temp hrun hon hcluster hmgmt
    obtain ⟨t, ht, hports, -⟩ := run_ports (r := { ports := true }) (f := retimerPoll p present lock temp) hrun rfl
    have hport := portSt_congr hports p
    exact ⟨t, ht, by simp [hport, retimerPoll, hon, hcluster, hmgmt]⟩
  case reset =>
    intro s p hrun hon hcluster hmgmt hdetect
    obtain ⟨t, ht, -, hout⟩ := run_links (r := {}) (f := retimerRst p) hrun
    exact ⟨t, ht, puts_of_appended (by simpa [retimerRst, hon, hcluster, hmgmt, hdetect] using hout)⟩
  case shutoff =>
    intro s p hrun hopt hstate hlit
    obtain ⟨t, ht, hports, -⟩ := run_ports (r := { ports := true, fab := true, data := true }) (f := lightLost p) hrun rfl
    have hport := portSt_congr hports p
    have hdetect := toDetect_state p true s
    exact ⟨t, ht, by simpa [hport, lightLost, hopt, hstate, hlit, raisePrt, portSt_raiseAt] using hdetect⟩
  case probe =>
    intro s p hrun hdark hlasers
    obtain ⟨t, ht, -, hout⟩ := run_links (r := {}) (f := laserProbe p) hrun
    have hraised : s.out <+: (raisePrt p evPrtSafety s).out :=
      out_raiseAt (prtBase p + 0x18) evPrtSafety (16 + p / 8) (some 0x20) p s
    exact ⟨t, ht, puts_of_grown hraised (puts_of_appended (by simpa [laserProbe, hdark, hlasers] using hout))⟩
  case back =>
    intro s p hrun hdark
    obtain ⟨t, ht, hports, -⟩ := run_ports (r := { ports := true }) (f := lightBack p) hrun rfl
    have hport := portSt_congr hports p
    exact ⟨t, ht, by simp [hport, lightBack, hdark, raisePrt, portSt_raiseAt]⟩
  case fail =>
    intro s m present hrun
    obtain ⟨t, ht, hports, hlasers⟩ := run_lasers (r := { ports := true, lasers := true, fab := true, data := true })
      (f := moduleFail m present) hrun (.inl rfl) rfl
    obtain ⟨hmodule, hdetect⟩ := moduleFail_eq m present s
    refine ⟨t, ht, by simp [hlasers, hmodule], by simp [hlasers, hmodule], by simp [hlasers, hmodule],
      by simp [hlasers, hmodule], ?_⟩
    rw [List.all_eq_true]
    intro p hp
    rw [portSt_congr hports p, hdetect p hp]
    simp
  case enable =>
    intro s m hrun
    obtain ⟨t, ht, -, hlasers⟩ := run_lasers (r := { lasers := true }) (f := moduleEnable m) hrun (.inr rfl) rfl
    exact ⟨t, ht, by simp [hlasers, moduleEnable]⟩

end Sys2Proof.Machine
end

section
/-!
PROOFS. Tuning, keys and link groups of a running port (R286, R290, R294, R305): what each row makes of the port and puts out, and
that the marks of a rekey stand while traffic goes on.
-/

namespace Sys2Proof.Machine
open Sys2Proof

/-! ### Link groups and keys (R286, R290, R294, R305) -/

/-- A row runs: what its effect makes of ports, lasers and quarantine within its reach is kept, and so are the marks of a rekey that
stand then. -/
theorem run_side {r : Reach} {s : State} {f : State → State} (h : s.chip.running = true) :
    ∃ t, run r s f = .next t ∧ SideKept (r.bound s (f s)) t ∧ (f s).out <+: t.out := by
  refine ⟨_, run_running h, ?_, ?_⟩
  · exact (settle_side _).trans (by simp [SideKept])
  · simpa using (out_settle (r.bound s (f s))).trans (out_noteReady s (settle (r.bound s (f s))))

/-- At a link group that passes its check delineation is regained (R286). -/
theorem portSt_regain (p : Nat) (s : State) : portSt (regain p s) p = { portSt s p with delin := true } := by
  unfold regain
  split
  · next h => rw [← h]
  · exact portSt_modPort p _ s

theorem regain_eq (p : Nat) (s : State) : ∃ ports, regain p s = { s with ports := ports } := by
  unfold regain
  split
  · exact ⟨s.ports, rfl⟩
  · exact ⟨_, rfl⟩

theorem regain_tuning (p : Port) (lane : Nat) (s : State) : coeffLane (portSt (regain p s) p) lane = coeffLane (portSt s p) lane ∧
    tapsOf (portSt (regain p s) p) lane = tapsOf (portSt s p) lane ∧ laneMask (regain p s) p = laneMask s p ∧
    (regain p s).out = s.out := by
  rw [portSt_regain]
  obtain ⟨ports, h⟩ := regain_eq p s
  rw [h]
  exact ⟨rfl, rfl, rfl, rfl⟩

/-- What our receiver asks for is put out under a fresh free value; all else stays as it was (R294). -/
theorem coeffSend_eq (p lane : Nat) (first : Bool) (s : State) :
    ∃ n o, coeffSend p lane first s = { s with fresh := n, out := s.out ++ o } := by
  unfold coeffSend
  dsimp only
  split
  · split
    · exact ⟨_, _, rfl⟩
    · split
      · exact ⟨s.fresh + 1, [], by simp [draw]⟩
      · exact ⟨_, _, rfl⟩
  · exact ⟨s.fresh + 1, [], by simp [draw]⟩

theorem coeffSend_ports (p lane : Nat) (first : Bool) (s : State) : (coeffSend p lane first s).ports = s.ports := by
  obtain ⟨n, o, h⟩ := coeffSend_eq p lane first s
  rw [h]

/-- A request for taps within the amplitude cap and the range of a tap is carried out and answered. -/
theorem coeffAt_accepted {p : Port} {c : Coeff} {s : State} (hreply : c.reply = 0) (hreq : c.req ≠ 0)
    (hinc : ¬(c.req = 2 ∧ (tapsOf (portSt s p) c.lane).getD (c.tap.toNat % 4) 0 = 0x7F))
    (hdec : ¬(c.req = 3 ∧ (tapsOf (portSt s p) c.lane).getD (c.tap.toNat % 4) 0 = 0x80))
    (hlane : coeffLane (portSt s p) c.lane = true) (hmask : (laneMask s p).testBit c.lane = true)
    (htaps : tapsOk (coeffAsk (tapsOf (portSt s p) c.lane) c) = true) :
    coeffAt p c s = emit (.linkCoeff p { c with reply := 1 }) (setPort p { portSt s p with
      taps := tput [0, 0, 0x40, 0] (portSt s p).taps c.lane (coeffAsk (tapsOf (portSt s p) c.lane) c) } s) := by
  have hwraps : ((c.req == 2 && (tapsOf (portSt s p) c.lane).getD (c.tap.toNat % 4) 0 == 0x7F) ||
      (c.req == 3 && (tapsOf (portSt s p) c.lane).getD (c.tap.toNat % 4) 0 == 0x80)) = false := by
    simp_all
  unfold coeffAt
  dsimp only
  rw [if_neg (by simp [hlane, hmask]), if_neg (by simp [hreply]), if_neg hreq, if_pos (by rw [htaps, hwraps]; rfl)]

theorem coeffAt_refused {p : Port} {c : Coeff} {s : State} (hreply : c.reply = 0) (hreq : c.req ≠ 0)
    (hlane : coeffLane (portSt s p) c.lane = true) (hmask : (laneMask s p).testBit c.lane = true)
    (htaps : tapsOk (coeffAsk (tapsOf (portSt s p) c.lane) c) = false) :
    coeffAt p c s = emit (.linkCoeff p { c with reply := 2 }) s := by
  unfold coeffAt
  dsimp only
  rw [if_neg (by simp [hlane, hmask]), if_neg (by simp [hreply]), if_neg hreq, if_neg (by simp [htaps])]

/-- A reply changes no tap of ours. -/
theorem coeffAt_reply {p : Port} {c : Coeff} {s : State} (hreply : c.reply ≠ 0) : (coeffAt p c s).ports = s.ports := by
  unfold coeffAt
  dsimp only
  split
  · rfl
  · rw [if_pos (by simpa using hreply), coeffSend_ports]

/-- A rekey of a running port that no planned change holds up begins (R305). -/
theorem rekeyStart_begins {p : Port} {s : State} (henc : (portSt s p).enc = true) (hkeyed : (portSt s p).keyed = true)
    (hup : (portSt s p).state = .up) (hchange : (portSt s p).change = none) (hidle : (egOf s p).rekeying = false) :
    rekeyStart p s = emit (.keying p) (modEg p (fun q => { q with rekeyDue := false, rekeying := true }) s) := by
  simp [rekeyStart, henc, hkeyed, hup, hchange, hidle, p.isLt]

/-- A rekey in RECOVER or during a planned change waits (R298, R305). -/
theorem rekeyStart_waits {p : Nat} {s : State} (henc : (portSt s p).enc = true) (hkeyed : (portSt s p).keyed = true)
    (hwait : (portSt s p).state = .recover ∨ (portSt s p).state = .up ∧ (portSt s p).change ≠ none)
    (hidle : (egOf s p).rekeying = false) : rekeyStart p s = modEg p (fun q => { q with rekeyDue := true }) s := by
  have hcond : ((portSt s p).state == .recover || ((portSt s p).state == .up && (portSt s p).change.isSome)) = true := by
    simpa [Option.isSome_iff_ne_none] using hwait
  unfold rekeyStart
  dsimp only
  rw [if_neg (by simp [henc, hkeyed, hidle]), if_pos hcond]

theorem rekeyOf_modEg_same (p : Nat) (f : EgressQ → EgressQ) (s : State) :
    rekeyOf (modEg p f s).sw.eg p = ((f (egOf s p)).rekeying, (f (egOf s p)).rekeyDue) :=
  congrArg (fun q : EgressQ => (q.rekeying, q.rekeyDue)) (egOf_modEg p f s)

/-- Settles O21: what each row makes of the port and puts out is said once (`coeffAt_accepted`, `rekeyStart_begins`, …); traffic
that goes on leaves the marks of the rekey as they stand (`run_side`). -/
theorem portLinkGroups : Obligations.PortLinkGroups := by
  unfold Obligations.PortLinkGroups
  refine ⟨?tuned, ?rekey, ?old, ?groups, ?refused, ?reply, ?waits⟩
  case tuned =>
    intro s p cf hrun hreply hreq hinc hdec hlane hmask htaps
    obtain ⟨t, ht, hports, hout⟩ := run_ports (r := { ports := true }) (f := fun s => coeffAt p cf (regain p s)) hrun rfl
    obtain ⟨hlane', htaps', hmask', hout'⟩ := regain_tuning p cf.lane s
    rw [coeffAt_accepted hreply hreq (by rwa [htaps']) (by rwa [htaps']) (by rwa [hlane']) (by rwa [hmask'])
      (by rwa [htaps'])] at hports hout
    refine ⟨t, ht, ?_, puts_of_appended (by simpa [hout'] using hout)⟩
    have hport := (portSt_congr hports p).trans (portSt_setPort p _ (regain p s))
    rw [hport, htaps']
    exact tget_tput_same _ _ _ _
  case rekey =>
    intro s p hrun henc hkeyed hup hchange hidle
    obtain ⟨t, ht, ⟨hports, -, -, hmarks⟩, hout⟩ := run_side (r := { data := true }) (f := rekeyStart p) hrun
    rw [rekeyStart_begins henc hkeyed hup hchange hidle] at hports hmarks hout
    have hport : portSt t p = portSt s p := portSt_congr (by simpa [Reach.bound] using hports) p
    have hbegun := rekeyOf_modEg_same p (fun q => { q with rekeyDue := false, rekeying := true }) s
    have hstands : rekeyOf t.sw.eg p = (true, false) := (hmarks p (.inl (congrArg Prod.fst hbegun))).trans hbegun
    obtain ⟨hunder, hdue⟩ := Prod.mk.inj hstands
    exact ⟨t, ht, hunder, hdue, by rw [hport], by rw [hport, hup], puts_of_appended (by simpa using hout)⟩
  case old =>
    intro s p hrun
    obtain ⟨t, ht, hports, -⟩ :=
      run_ports (r := { ports := true }) (f := modPort p (fun x => { x with oldKey := false })) hrun rfl
    have hport := portSt_congr hports p
    exact ⟨t, ht, by simp [hport]⟩
  case groups =>
    intro s p hrun hstate
    obtain ⟨t, ht, -, hout⟩ := run_links (r := {}) (f := linkGroups p) hrun
    have hsent : ((portSt s p).state == .align || (portSt s p).state == .negotiate || (portSt s p).state == .keying ||
        (portSt s p).state == .up) = true := by
      rcases hstate with h | h | h | h <;> simp [h]
    have hstatus : (emit (.linkStatus p (BitVec.ofNat 8 (portSt s p).state.code) (readySent (portSt s p))) s).out <+: t.out := by
      refine .trans ?_ hout
      simp only [linkGroups, hsent, if_true]
      split <;> simp
    refine ⟨t, ht, puts_of_appended (by simpa [readySent] using hstatus), fun hneg => ?_⟩
    simp only [linkGroups, hneg, if_true, beq_self_eq_true] at hout
    exact puts_of_grown (by simp) (puts_of_appended hout)
  case refused =>
    intro s p cf hrun hreply hreq hlane hmask htaps
    obtain ⟨t, ht, hports, hout⟩ := run_ports (r := { ports := true }) (f := fun s => coeffAt p cf (regain p s)) hrun rfl
    obtain ⟨hlane', htaps', hmask', hout'⟩ := regain_tuning p cf.lane s
    rw [coeffAt_refused hreply hreq (by rwa [hlane']) (by rwa [hmask']) (by rwa [htaps'])] at hports hout
    refine ⟨t, ht, ?_, puts_of_appended (by simpa [hout'] using hout)⟩
    have hport : portSt t p = portSt (regain p s) p := portSt_congr hports p
    rw [hport, portSt_regain]
  case reply =>
    intro s p cf hrun hreply
    obtain ⟨t, ht, hports, -⟩ := run_ports (r := { ports := true }) (f := fun s => coeffAt p cf (regain p s)) hrun rfl
    have hport := portSt_congr (hports.trans (coeffAt_reply hreply)) p
    exact ⟨t, ht, by rw [hport, portSt_regain], by rw [hport, portSt_regain]⟩
  case waits =>
    intro s p hrun henc hkeyed hwait hidle
    obtain ⟨t, ht, ⟨hports, -, -, hmarks⟩, -⟩ := run_side (r := { data := true }) (f := rekeyStart p) hrun
    rw [rekeyStart_waits henc hkeyed hwait hidle] at hports hmarks
    have hport : portSt t p = portSt s p := portSt_congr (by simpa [Reach.bound] using hports) p
    have hdue := rekeyOf_modEg_same p (fun q => { q with rekeyDue := true }) s
    have hstands : rekeyOf t.sw.eg p = ((egOf s p).rekeying, true) := by
      refine (hmarks p (.inr ⟨congrArg Prod.snd hdue, ?_⟩)).trans hdue
      simpa [Reach.bound, portSt, Option.isSome_iff_ne_none] using hwait
    exact ⟨t, ht, congrArg Prod.snd hstands, by rw [hport]⟩

end Sys2Proof.Machine
end

section
/-!
PROOFS. A port that fails a stage (R292, R293, R299, R305, R358, R381): where it is left, and what a DOWN group of its neighbour
quarantines (R145).
-/

namespace Sys2Proof.Machine
open Sys2Proof

theorem raisePrt_ports (p b : Nat) (s : State) : (raisePrt p b s).ports = s.ports := by simp [raisePrt]

/-- A failed exchange of keys takes the port to DETECT (R305). -/
theorem keyingEnd_failed {p : Nat} {s : State} (h : (portSt s p).state = .keying) :
    (portSt (keyingEnd p false s) p).state = .detect := by
  have hdetect := toDetect_state p true s
  rw [keyingEnd, if_pos (by simp [h]), if_neg (by simp), portSt_congr (raisePrt_ports ..), hdetect, h]
  rfl

/-- A stopped port is DISABLED. -/
theorem stopPort_state (p : Nat) (s : State) : (portSt (stopPort p s) p).state = .disabled := by
  unfold stopPort
  split
  · next h => simpa using h
  · rw [portSt_modPort]
    rfl

/-- A DOWN group takes a port in use to DETECT; that its neighbour goes down changes no port more (R299). -/
theorem downAt_ports {p reason : Nat} {s : State} (h : (portSt s p).state ≠ .disabled) :
    (downAt p reason s).ports = (toDetect p false (raisePrt p evPrtPeerDown s)).ports := by
  unfold downAt
  dsimp only
  rw [if_neg (by simpa using h)]
  split
  · split
    · exact (LossKept.nodeDown _ _ _).ports
    · rfl
  · rfl

theorem downAt_state {p reason : Nat} {s : State} (h : (portSt s p).state ≠ .disabled) :
    (portSt (downAt p reason (regain p s)) p).state = .detect := by
  have hregained : (portSt (regain p s) p).state ≠ .disabled := by rwa [portSt_regain]
  rw [portSt_congr (downAt_ports hregained), toDetect_state, portSt_congr (raisePrt_ports ..), if_neg hregained]

theorem linkRuns_state {p : Nat} {s : State} (h : linkRuns s p = true) : (portSt s p).state ≠ .disabled := by
  intro hd
  rw [linkRuns, hd] at h
  simp at h

/-- With a reason of 2 to 4 the neighbour itself goes down, and all that is reached only through it (R145, R299). -/
theorem downAt_node {p reason : Nat} {n : BitVec 11} {s : State} (h : linkRuns s p = true) (hpeer : (portSt s p).peerNode = some n)
    (hlow : 2 ≤ reason) (hhigh : reason ≤ 4) :
    downAt p reason s = nodeDown n.toNat (cutOff s n.toNat) (toDetect p false (raisePrt p evPrtPeerDown s)) := by
  unfold downAt
  dsimp only
  rw [if_neg (by simpa using linkRuns_state h), if_pos h, hpeer]
  exact if_pos ⟨hlow, hhigh⟩

theorem linkRuns_regain (p : Nat) (s : State) : linkRuns (regain p s) p = linkRuns s p := by
  have hstate : (portSt (regain p s) p).state = (portSt s p).state := by rw [portSt_regain]
  have hkind : isFabricPort (regain p s) p = isFabricPort s p := by
    obtain ⟨ports, h⟩ := regain_eq p s
    rw [h]
    rfl
  rw [linkRuns, linkRuns, hstate, hkind]

/-- Settles O19: every stage that fails ends in `toDetect` or `stopPort`; a neighbour that goes down is among the nodes cut off with
it, and stays quarantined while traffic goes on (`run_side`). -/
theorem portFallsBack : Obligations.PortFallsBack := by
  unfold Obligations.PortFallsBack
  refine ⟨?keying, ?bound, ?retry, ?giveUp, ?down, ?forced, ?gone⟩
  case keying =>
    intro s p hrun hstate
    obtain ⟨t, ht, hports, -⟩ :=
      run_ports (r := { time := true, ports := true, fab := true, data := true }) (f := keyingEnd p false) hrun rfl
    exact ⟨t, ht, by rw [portSt_congr hports p, keyingEnd_failed hstate]⟩
  case bound =>
    intro s p b hrun hfails
    obtain ⟨t, ht, hports, -⟩ := run_ports (r := { ports := true, fab := true, data := true }) (f := portBound_ p b) hrun rfl
    have hinUse : ¬ PortIdle s p := by
      rcases hfails with ⟨h | h | h | h, -⟩ | h | ⟨h, -⟩ <;> simp [PortIdle, h]
    have hbound : portBound_ p b s = toDetect p true s := by
      rw [portBound_]
      rcases hfails with ⟨h | h | h | h, hc⟩ | h | ⟨h, hb⟩ <;> simp [*]
    obtain ⟨x, hstate, hactive, hlocked, hnew⟩ := toDetect_fresh (failed := true) hinUse
    have hport : portSt t p = x := by rw [portSt_congr hports p, hbound]; simp [portSt, hnew]
    exact ⟨t, ht, by rw [hport, hstate], by rw [hport, hactive], by rw [hport, hlocked]⟩
  case retry =>
    intro s p hrun
    obtain ⟨t, ht, hports, -⟩ := run_ports (r := { ports := true }) (f := portRetry p) hrun rfl
    have hport : portSt t p = { portSt s p with refused := false } := (portSt_congr hports p).trans (portSt_modPort p _ s)
    exact ⟨t, ht, by rw [hport], by rw [hport]⟩
  case giveUp =>
    intro s p hrun hstate hsignal
    obtain ⟨t, ht, hports, -⟩ := run_ports (r := { ports := true }) (f := portGiveUp p) hrun rfl
    have hport := portSt_congr hports p
    exact ⟨t, ht, by simp [hport, portGiveUp, hstate, hsignal]⟩
  case down =>
    intro s p reason hrun hstate
    obtain ⟨t, ht, hports, -⟩ := run_ports (r := { ports := true, fab := true, data := true })
      (f := fun s => downAt p reason.toNat (regain p s)) hrun rfl
    exact ⟨t, ht, by rw [portSt_congr hports p, downAt_state hstate]⟩
  case forced =>
    intro s p hrun hpower hshed hstate hcap
    obtain ⟨t, ht, hports, -⟩ := run_ports (r := { ports := true, fab := true, data := true }) (f := portForcedAt p) hrun rfl
    have hcond : (powerRuns s && s.pwr.level == 3 && ((portSt s p).state == .up || (portSt s p).state == .recover) &&
        decide (capLanes s p < lanesOf (portSt s p).width.toNat)) = true := by
      rcases hstate with h | h <;> simp [hpower, hshed, h, hcap]
    have hstopped : t.ports = (stopPort p (modPort p (fun x => { x with forced := true }) s)).ports := by
      rw [hports, portForcedAt, if_pos hcond]
      simp [raisePwr]
    exact ⟨t, ht, by rw [portSt_congr hstopped p, stopPort_state]⟩
  case gone =>
    rintro s p reason n ⟨hrun, -⟩ hlink hpeer hlow hhigh - -
    obtain ⟨t, ht, ⟨hports, -, hquar, -⟩, -⟩ := run_side (r := { ports := true, fab := true, data := true })
      (f := fun s => downAt p reason.toNat (regain p s)) hrun
    have hpeer' : (portSt (regain p s) p).peerNode = some n := by rwa [portSt_regain]
    have hdown := downAt_node ((linkRuns_regain p s).trans hlink) hpeer' hlow hhigh
    have hquarantined : 0x4800 + n.toNat ∈ t.trn.quar := by
      rw [hquar]
      simp only [bound_part, if_true, hdown, cutOff]
      exact mem_quar_nodeDown List.mem_cons_self _ _
    have hstate := downAt_state (reason := reason.toNat) (linkRuns_state hlink)
    exact ⟨t, ht, by rw [portSt_congr (by simpa [bound_part] using hports) p, hstate],
      by simpa [quarantined] using hquarantined⟩

end Sys2Proof.Machine
end

section
/-!
SUPPORT. What the changes of a port's lanes do to it (R296 to R298): a planned change starts, lanes are put in use, and what waited
for the lanes to settle goes on, which leaves the lanes in use alone.
-/

namespace Sys2Proof.Machine
open Sys2Proof

/-! ### Registers beside the events -/

theorem word_setField_ne {off o : Nat} (h : o ≠ off) (lo w x : Nat) (s : State) : word (setField off lo w x s) o = word s o :=
  word_setWord_ne h _ s

theorem word_bump_ne {c : Cnt} {o : Nat} (h : o ≠ c.off) (s : State) : word (bump c s) o = word s o := by
  rw [← word_setField_ne h c.lo c.w (Nat.min (2 ^ c.w - 1) (fieldOf s c.off c.lo c.w + 1)) s]
  unfold bump bumpBy
  dsimp only
  split <;> rfl

theorem word_riseVec (v : Nat) (s : State) (o : Nat) : word (riseVec v s) o = word s o := by
  refine word_congr ?_ o
  unfold riseVec sendVec
  dsimp only
  (repeat' split) <;> rfl

theorem dmaWrite_regs (a : Nat) (bs : Bytes) (s : State) : (dmaWrite a bs s).regs = s.regs := by
  unfold dmaWrite
  split <;> simp

/-- Of the registers, what the Ledger does writes those of MGT alone. -/
theorem word_mirrorEntry {o : Nat} (h : o < mgtBase) (e : LedgerEntry) (s : State) : word (mirrorEntry e s) o = word s o := by
  have hlost : o ≠ cntMgtLedgerLostCnt.off := by simp only; omega
  have hevents : o ≠ mgtBase + 8 := by omega
  unfold mirrorEntry
  extract_lets wanted
  split
  · split
    · exact word_congr (dmaWrite_regs ..) o
    · split
      · rw [word_setField_ne hevents, word_bump_ne hlost]
      · rw [word_riseVec, word_setField_ne hevents, word_bump_ne hlost]
  · rfl

theorem word_trace {o : Nat} (h : o < mgtBase) (tp unit arg src : Nat) (s : State) :
    word (trace tp unit arg src s) o = word s o := by
  unfold trace
  dsimp only
  split
  · rfl
  · split
    · exact word_bump_ne (by simp only; omega) s
    · rw [word_mirrorEntry h]
      rfl

/-- An event writes its own register, and below MGT none but it. -/
theorem word_raiseAt {off o : Nat} (hoff : o ≠ off) (h : o < mgtBase) (b vec : Nat) (tp : Option Nat) (unit : Nat) (s : State) :
    word (raiseAt off b vec tp unit s) o = word s o := by
  unfold raiseAt
  dsimp only
  split <;> split
  · rw [word_trace h, word_setField_ne hoff]
  · rw [word_setField_ne hoff]
  · rw [word_riseVec, word_trace h, word_setField_ne hoff]
  · rw [word_riseVec, word_setField_ne hoff]

theorem prtBase_lt (p : Port) : prtBase p + 0x1000 ≤ mgtBase := by
  have := p.isLt
  simp only [prtBase, mgtBase]
  omega

/-- An event of the port leaves its control register alone. -/
theorem word_raisePrt (p : Port) (b : Nat) (s : State) : word (raisePrt p b s) (prtBase p) = word s (prtBase p) :=
  word_raiseAt (by omega) (by have := prtBase_lt p; omega) ..

theorem capLanes_congr {s t : State} {p : Nat} (h : word t (prtBase p) = word s (prtBase p)) : capLanes t p = capLanes s p := by
  simp only [capLanes, fieldOf, h]

/-! ### Lanes of a port -/

/-- State, width, and the lanes in use and LOCKED are the same. -/
structure SameLanes (x y : PortSt) : Prop where
  state  : y.state = x.state
  width  : y.width = x.width
  active : y.active = x.active
  locked : y.locked = x.locked

theorem SameLanes.refl (x : PortSt) : SameLanes x x := ⟨rfl, rfl, rfl, rfl⟩

theorem SameLanes.trans {x y z : PortSt} (h : SameLanes x y) (h' : SameLanes y z) : SameLanes x z :=
  ⟨h'.state.trans h.state, h'.width.trans h.width, h'.active.trans h.active, h'.locked.trans h.locked⟩

theorem coeffSends_eq (p : Nat) (first : Bool) : ∀ (lanes : List Nat) (s : State),
    ∃ n o, each lanes (fun k => coeffSend p k first) s = { s with fresh := n, out := s.out ++ o }
  | [], s => ⟨s.fresh, [], by simp⟩
  | k :: ks, s => by
    obtain ⟨n, o, h⟩ := coeffSend_eq p k first s
    obtain ⟨m, o', h'⟩ := coeffSends_eq p first ks (coeffSend p k first s)
    exact ⟨m, o ++ o', by rw [each_cons, h', h]; simp⟩

theorem portSt_emit (e : Emit) (s : State) (p : Nat) : portSt (emit e s) p = portSt s p := rfl

/-- A planned change starts. -/
theorem portSt_startLaneChange (p op m : Nat) (power : Bool) (s : State) :
    portSt (startLaneChange p op m power s) p = { portSt s p with
      change := some { op := op, mask := BitVec.ofNat 9 m, group := BitVec.ofNat 24 (groupNow s p + 16).toNat
                       power := power } } := by
  unfold startLaneChange
  dsimp only
  split
  · rw [portSt_emit, portSt_modPort]
  · rw [portSt_modPort]

theorem wakeLanes_same (p : Nat) (s : State) : SameLanes (portSt s p) (portSt (wakeLanes p s) p) := by
  obtain ⟨n, o, h⟩ := coeffSends_eq p true (bitsSet 9 (portSt s p).off.toNat)
    (setPort p { portSt s p with off := 0, signal := (portSt s p).signal ||| (portSt s p).off } s)
  have hport : portSt (wakeLanes p s) p = { portSt s p with off := 0, signal := (portSt s p).signal ||| (portSt s p).off } := by
    rw [wakeLanes, h]
    exact portSt_setPort p _ s
  rw [hport]
  exact ⟨rfl, rfl, rfl, rfl⟩

theorem startLaneChange_same (p op m : Nat) (power : Bool) (s : State) :
    SameLanes (portSt s p) (portSt (startLaneChange p op m power s) p) := by
  rw [portSt_startLaneChange]
  exact ⟨rfl, rfl, rfl, rfl⟩

/-- The width cap has a narrowing begin or wait; the lanes in use stay until it is agreed. -/
theorem narrowToCap_same (p : Nat) (s : State) : SameLanes (portSt s p) (portSt (narrowToCap p s) p) := by
  unfold narrowToCap
  extract_lets x n u y
  have hwoken : SameLanes (portSt s p) y := by
    simp only [y, u]
    split
    · exact wakeLanes_same p s
    · exact .refl _
  refine hwoken.trans ?_
  split
  · rw [portSt_modPort]
    exact ⟨rfl, rfl, rfl, rfl⟩
  · split
    · rw [portSt_setPort]
      exact ⟨rfl, rfl, rfl, rfl⟩
    · split
      · refine .trans ?_ (startLaneChange_same ..)
        rw [portSt_setPort]
        exact ⟨rfl, rfl, rfl, rfl⟩
      · exact .refl _

/-- Where a running port without a planned change carries more lanes than the cap, a narrowing starts. -/
theorem narrowToCap_narrows {p : Nat} {s : State} (hup : (portSt s p).state = .up) (hchange : (portSt s p).change = none)
    (hcap : capLanes s p < lanesOf (portSt s p).width.toNat) :
    ∃ c : LaneChange, c.op = 2 ∧ portSt (narrowToCap p s) p = { portSt s p with narrowDue := false, change := some c } := by
  have hn : ¬lanesOf (portSt s p).width.toNat ≤ capLanes s p := by omega
  unfold narrowToCap
  extract_lets x n u y
  have hu : u = s := if_neg (by simp [x, n]; omega)
  rw [show y = portSt s p from congrArg (portSt · p) hu, hu, if_neg hn, if_neg (by simp [hup, hchange]), if_pos (by simp [hup]),
    portSt_startLaneChange, portSt_setPort]
  exact ⟨_, rfl, rfl⟩

theorem laneSettled_ports (p : Nat) (s : State) :
    (laneSettled p s).ports = (if (portSt s p).narrowDue then narrowToCap p s else s).ports := by
  unfold laneSettled
  extract_lets u
  split
  · exact (rekeyStart_side p u).1
  · rfl

/-- What waited for the lanes to settle goes on, and leaves the lanes in use alone (R298). -/
theorem laneSettled_same (p : Nat) (s : State) : SameLanes (portSt s p) (portSt (laneSettled p s) p) := by
  rw [portSt_congr (laneSettled_ports p s)]
  split
  · exact narrowToCap_same p s
  · exact .refl _

/-! ### Lanes put in use (R288, R296) -/

/-- The port's record once the lanes of `m` carry it; `power` says that those removed are turned off. -/
def PortSt.withLanes (x : PortSt) (m : Nat) (power : Bool) : PortSt :=
  let gone := x.active &&& ~~~(BitVec.ofNat 9 m)
  { x with
    active := BitVec.ofNat 9 m, order := newOrder x.order m, width := widthCode (popCount 9 m), spareUsed := m.testBit 8
    locked := x.locked &&& ~~~gone, off := if power then x.off ||| gone else x.off
    signal := if power then x.signal &&& ~~~gone else x.signal }

/-- From `s` to `t` ports and the control register of port `p` are kept, and what is put out grows. -/
structure EventKept (p : Nat) (s t : State) : Prop where
  ports : t.ports = s.ports
  ctrl  : word t (prtBase p) = word s (prtBase p)
  out   : s.out <+: t.out

namespace EventKept

theorem refl (p : Nat) (s : State) : EventKept p s s := ⟨rfl, rfl, [], List.append_nil _⟩

theorem trans {p : Nat} {s t u : State} (h : EventKept p s t) (h' : EventKept p t u) : EventKept p s u :=
  ⟨h'.ports.trans h.ports, h'.ctrl.trans h.ctrl, h.out.trans h'.out⟩

theorem hlth_raisePrt (p : Port) (weight b : Nat) (s : State) : EventKept p s (hlth (792 + p) weight (raisePrt p b s)) :=
  ⟨raisePrt_ports p b s, word_raisePrt p b s, out_raiseAt (prtBase p + 0x18) b (16 + p / 8) (some 0x20) p s⟩

theorem coeffSends (p : Nat) (lanes : List Nat) (s : State) : EventKept p s (each lanes (fun k => coeffSend p k true) s) := by
  obtain ⟨n, o, h⟩ := coeffSends_eq p true lanes s
  rw [h]
  exact ⟨rfl, rfl, _, rfl⟩

end EventKept

/-- Lanes put in use: the port's record, and then what is asked of the peer and the events. -/
theorem useLanes_kept (p : Port) (m : Nat) (power : Bool) (s : State) :
    EventKept p (setPort p ((portSt s p).withLanes m power) s) (useLanes p m power s) := by
  unfold useLanes
  extract_lets x w spare gone u v v'
  have hasked : EventKept p u v := by
    simp only [v]
    split
    · exact .refl p u
    · exact .coeffSends p _ u
  have hspare : EventKept p v v' := by
    simp only [v']
    split
    · exact .hlth_raisePrt p _ _ v
    · exact .refl p v
  refine .trans (t := v') (hasked.trans hspare) ?_
  split
  · exact .hlth_raisePrt p _ _ v'
  · exact .refl p v'

theorem portSt_useLanes (p : Port) (m : Nat) (power : Bool) (s : State) :
    portSt (useLanes p m power s) p = (portSt s p).withLanes m power :=
  (portSt_congr (useLanes_kept p m power s).ports p).trans (portSt_setPort p _ s)

/-! ### A lane is lost (R297, R298) -/

/-- The lane matters to the port as it is: it carries a running port, or the port is in RECOVER. -/
abbrev PortSt.carriedBy (x : PortSt) (lane : Nat) : Prop :=
  x.state = .recover ∨ x.state = .up ∧ x.active.getLsbD lane = true

/-- The planned change of the port would use the lane. -/
def PortSt.cutBy (x : PortSt) (lane : Nat) : Bool := match x.change with | some c => c.mask.getLsbD lane | none => false

/-- A lane that was LOCKED is so no more; a planned change that would use it is cancelled. -/
def unlockLane (p lane : Nat) (s : State) : State :=
  modPort p (fun x => { x with
    locked := x.locked &&& ~~~(BitVec.ofNat 9 (2 ^ lane)), change := if (portSt s p).cutBy lane then none else x.change })
    (hlth (9 * p + lane) (64 * 1024) s)

theorem portSt_unlockLane (p lane : Nat) (s : State) : portSt (unlockLane p lane s) p = { portSt s p with
    locked := (portSt s p).locked &&& ~~~(BitVec.ofNat 9 (2 ^ lane))
    change := if (portSt s p).cutBy lane then none else (portSt s p).change } := portSt_modPort p _ _

section
variable {p : Nat} {lane : Nat} {s : State} (hon : (portSt s p).state ≠ .disabled) (hsees : (portSt s p).state ≠ .detect)
  (hlocked : (portSt s p).locked.getLsbD lane = true)
include hon hsees hlocked

/-- A lane that does not carry the port. -/
theorem lockLostOn_spare (hcarries : ¬(portSt s p).carriedBy lane) :
    lockLostOn p lane s = if (portSt s p).cutBy lane then laneSettled p (unlockLane p lane s) else unlockLane p lane s := by
  unfold lockLostOn
  dsimp only
  rw [if_neg (by simp [hon, hsees, hlocked]), if_neg (by simpa using hcarries)]
  rfl

/-- Too few lanes are left to RECOVER. -/
theorem lockLostOn_few (hcarries : (portSt s p).carriedBy lane)
    (hfew : popCount 9 (recoverMask (unlockLane p lane s) p) < 2) :
    lockLostOn p lane s = toDetect p false (unlockLane p lane s) := by
  unfold lockLostOn
  dsimp only
  rw [if_neg (by simp [hon, hsees, hlocked]), if_pos (by simpa using hcarries)]
  exact if_pos hfew

/-- A running port proposes the lanes left. -/
theorem lockLostOn_recovers (hup : (portSt s p).state = .up) (hactive : (portSt s p).active.getLsbD lane = true)
    (henough : 2 ≤ popCount 9 (recoverMask (unlockLane p lane s) p)) :
    lockLostOn p lane s = sendRecover p (enterRecover p (unlockLane p lane s)) := by
  unfold lockLostOn
  dsimp only
  rw [if_neg (by simp [hon, hsees, hlocked]), if_pos (by simp [hup, hactive])]
  refine (if_neg (Nat.not_lt.2 henough)).trans ?_
  exact if_pos (by simp [hup])

end

/-- What the lanes proposed in RECOVER depend on. -/
theorem recoverMask_congr {s t : State} {p : Nat} (hactive : (portSt t p).active = (portSt s p).active)
    (hlocked : (portSt t p).locked = (portSt s p).locked) (hwidth : (portSt t p).width = (portSt s p).width)
    (hlit : (portSt t p).everLit = (portSt s p).everLit) (hrc : t.hif.rcAt = s.hif.rcAt) (htime : t.time = s.time) :
    recoverMask t p = recoverMask s p := by
  have hcount : ceSyms t p = ceSyms s p := by
    funext k
    unfold ceSyms codecCnt now
    rw [hlit, hrc, htime]
  have hbest : bestLanes t p = bestLanes s p := by
    unfold bestLanes
    rw [hcount]
  unfold recoverMask spareFree
  dsimp only
  rw [hbest, hactive, hlocked, hwidth]

theorem recoverMask_unlockLane (p lane : Nat) (s : State) : recoverMask (unlockLane p lane s) p =
    recoverMask (setPort p { portSt s p with locked := (portSt s p).locked &&& ~~~(BitVec.ofNat 9 (2 ^ lane)) } s) p := by
  have hunlocked := portSt_unlockLane p lane s
  have hset := portSt_setPort p { portSt s p with locked := (portSt s p).locked &&& ~~~(BitVec.ofNat 9 (2 ^ lane)) } s
  exact recoverMask_congr (by rw [hunlocked, hset]) (by rw [hunlocked, hset]) (by rw [hunlocked, hset])
    (by rw [hunlocked, hset]) rfl rfl

end Sys2Proof.Machine
end

section
/-!
PROOFS. The rows that change a port's lanes (R296 to R298): what each makes of the port's record, and that what is put out only
grows meanwhile.
-/

namespace Sys2Proof.Machine
open Sys2Proof

/-! ### What the rows make of the lanes -/

theorem laneSettled_kept {p : Nat} {s : State} (h : (portSt s p).narrowDue = false) : (laneSettled p s).ports = s.ports := by
  rw [laneSettled_ports, if_neg (by simp [h])]

/-- The effective group of a planned change for which nothing waits. -/
theorem portSt_widthSwitch {p : Port} {s : State} {c : LaneChange} (hc : (portSt s p).change = some c)
    (hdue : (portSt s p).narrowDue = false) : portSt (widthSwitch p s) p =
      if c.agreed && (portSt s p).state == .up then { portSt s p with change := none }.withLanes c.mask.toNat c.power
      else { portSt s p with change := none } := by
  unfold widthSwitch
  simp only [hc]
  split
  · have hlanes := portSt_useLanes p c.mask.toNat c.power (setPort p { portSt s p with change := none } s)
    rw [portSt_setPort] at hlanes
    rw [portSt_congr (laneSettled_kept (by rw [hlanes]; exact hdue)), hlanes]
  · rw [portSt_congr (laneSettled_kept (by rw [portSt_setPort]; exact hdue)), portSt_setPort]

/-- A narrowing for the width cap that has waited starts once an agreed change is in effect. -/
theorem portSt_widthSwitch_due {p : Port} {s : State} {c : LaneChange} (hc : (portSt s p).change = some c)
    (hdue : (portSt s p).narrowDue = true) (hup : (portSt s p).state = .up) (hagreed : c.agreed = true)
    (hcap : capLanes s p < lanesOf (widthCode (popCount 9 c.mask.toNat)).toNat) :
    ∃ d : LaneChange, d.op = 2 ∧ portSt (widthSwitch p s) p =
      { { portSt s p with change := none }.withLanes c.mask.toNat c.power with narrowDue := false, change := some d } := by
  have hlanes := portSt_useLanes p c.mask.toNat c.power (setPort p { portSt s p with change := none } s)
  have hctrl := (useLanes_kept p c.mask.toNat c.power (setPort p { portSt s p with change := none } s)).ctrl
  rw [portSt_setPort] at hlanes
  unfold widthSwitch
  simp only [hc]
  rw [if_pos (by simp [hagreed, hup])]
  generalize useLanes p c.mask.toNat c.power (setPort p { portSt s p with change := none } s) = u at hlanes hctrl
  have hcap' : capLanes u p < lanesOf (portSt u p).width.toNat := by
    rw [hlanes, capLanes_congr (s := s) hctrl]
    exact hcap
  obtain ⟨d, hop, hnarrowed⟩ := narrowToCap_narrows (by rw [hlanes]; exact hup) (by rw [hlanes]; rfl) hcap'
  refine ⟨d, hop, ?_⟩
  rw [portSt_congr (laneSettled_ports p u), if_pos (by rw [hlanes]; exact hdue), hnarrowed, hlanes]

/-- Lanes that have retrained are LOCKED, whatever becomes of them. -/
theorem retrainDone_locked {p : Nat} {lanes : BitVec 9} {s : State} (hup : (portSt s p).state = .up) :
    (portSt (retrainDone p lanes s) p).locked = BitVec.ofNat 9 (Nat.lor (portSt s p).locked.toNat
      (Nat.land (lanes &&& ~~~(portSt s p).off).toNat (laneMask s p))) := by
  unfold retrainDone
  extract_lets x got lk u use_ n
  have hlocked : (portSt u p).locked = lk := congrArg PortSt.locked (portSt_setPort p _ s)
  rw [if_neg (by simp [x, hup])]
  split
  · rw [portSt_modPort]
    exact hlocked
  · split
    · rw [portSt_startLaneChange]
      exact hlocked
    · exact hlocked

/-- Widening starts where it is allowed (R296). -/
theorem retrainDone_widens {p : Nat} {lanes : BitVec 9} {s : State} {m n : Nat} (hup : (portSt s p).state = .up)
    (hcluster : clusterRuns s p = true) (hauto : autoWiden s p = true) (hchange : (portSt s p).change = none)
    (hm : m = Nat.lor (portSt s p).active.toNat
      (Nat.land (Nat.land (lanes &&& ~~~(portSt s p).off).toNat (laneMask s p)) 0xFF))
    (hn : n = Nat.min (widest (popCount 9 m)) (capLanes s p)) (hwider : lanesOf (portSt s p).width.toNat < n) :
    ((portSt (retrainDone p lanes s) p).change.map (fun c => (c.op, c.mask))) =
      some (3, BitVec.ofNat 9 (maskNat ((bitsSet 9 m).take n))) := by
  subst hm
  subst hn
  unfold retrainDone
  extract_lets x got lk u use_ n
  have hcluster' : clusterRuns u p = true := hcluster
  have hauto' : autoWiden u p = true := hauto
  have hwider' : lanesOf x.width.toNat < n := hwider
  rw [if_neg (by simp [x, hup]), if_neg (by simp [hcluster']), if_pos (by simp [hauto', x, hchange, hwider']),
    portSt_startLaneChange]
  rfl

/-! ### What is put out meanwhile -/

theorem out_startLaneChange (p op m : Nat) (power : Bool) (s : State) : s.out <+: (startLaneChange p op m power s).out := by
  unfold startLaneChange
  dsimp only
  split <;> simp

theorem out_wakeLanes (p : Nat) (s : State) : s.out <+: (wakeLanes p s).out :=
  (EventKept.coeffSends p (bitsSet 9 (portSt s p).off.toNat)
    (setPort p { portSt s p with off := 0, signal := (portSt s p).signal ||| (portSt s p).off } s)).out

theorem out_narrowToCap (p : Nat) (s : State) : s.out <+: (narrowToCap p s).out := by
  unfold narrowToCap
  extract_lets x n u y
  have hwoken : s.out <+: u.out := by
    simp only [u]
    split
    · exact out_wakeLanes p s
    · exact ⟨[], List.append_nil _⟩
  refine hwoken.trans ?_
  split
  · simp
  · split
    · simp
    · split
      · exact out_startLaneChange p 2 _ true (setPort p { y with narrowDue := false } u)
      · exact ⟨[], List.append_nil _⟩

theorem out_rekeyStart (p : Nat) (s : State) : s.out <+: (rekeyStart p s).out := by
  unfold rekeyStart
  dsimp only
  split
  · exact ⟨[], List.append_nil _⟩
  · split
    · simp
    · split
      · split <;> simp
      · exact ⟨[], List.append_nil _⟩

theorem out_laneSettled (p : Nat) (s : State) : s.out <+: (laneSettled p s).out := by
  unfold laneSettled
  extract_lets u
  have hnarrowed : s.out <+: u.out := by
    simp only [u]
    split
    · exact out_narrowToCap p s
    · exact ⟨[], List.append_nil _⟩
  refine hnarrowed.trans ?_
  split
  · exact out_rekeyStart p u
  · exact ⟨[], List.append_nil _⟩

theorem out_emitAtt (p : Nat) (m : AttMsg) (s : State) : s.out <+: (emitAtt p m s).out := by
  unfold emitAtt
  (repeat' split) <;> simp

/-- The messages that waited for the end of RECOVER leave; no port changes. -/
theorem releaseLink_kept (p : Nat) (s : State) : (releaseLink p s).ports = s.ports ∧ s.out <+: (releaseLink p s).out := by
  obtain ⟨-, hports, -⟩ := each_links (emitAtt_links p) (sess s p).toLink (modSess p (fun x => { x with toLink := [] }) s)
  refine ⟨hports, ?_⟩
  exact each_induct (P := fun t => s.out <+: t.out) _ (by simp) (fun m _ t h => h.trans (out_emitAtt p m t))

/-! ### RECOVER (R297) -/

/-- With the lanes of `m` agreed the port runs again. -/
theorem resumeUp_lanes (p : Port) (m : Nat) (s : State) : (portSt (resumeUp p m s) p).state = .up ∧
    (portSt (resumeUp p m s) p).active = BitVec.ofNat 9 m ∧ (portSt (resumeUp p m s) p).width = widthCode (popCount 9 m) := by
  have hsettled := laneSettled_same p
    (releaseLink p (useLanes p m false (modPort p (fun x => { x with state := .up, secondLoss := false }) s)))
  rw [portSt_congr (releaseLink_kept ..).1, portSt_useLanes, portSt_modPort] at hsettled
  exact ⟨hsettled.state, hsettled.active, hsettled.width⟩

theorem out_resumeUp (p : Port) (m : Nat) (s : State) : s.out <+: (resumeUp p m s).out := by
  have hlanes := (useLanes_kept p m false (modPort p (fun x => { x with state := .up, secondLoss := false }) s)).out
  exact .trans (.trans (by simp) hlanes) ((releaseLink_kept ..).2.trans (out_laneSettled ..))

/-- RECOVER begins: what it changes of the port, of what the lanes proposed depend on, and of what is put out. -/
theorem enterRecover_kept (p : Nat) (s : State) :
    SameLanes { portSt s p with state := .recover } (portSt (enterRecover p s) p) ∧
    (portSt (enterRecover p s) p).change = none ∧ (portSt (enterRecover p s) p).everLit = (portSt s p).everLit ∧
    (enterRecover p s).hif.rcAt = s.hif.rcAt ∧ (enterRecover p s).time = s.time ∧ s.out <+: (enterRecover p s).out := by
  unfold enterRecover
  extract_lets x u
  have hport : portSt (raisePrt p evPrtRecover (bump (cntPrtRecoverCnt p) u)) p = portSt u p := portSt_congr (by simp [raisePrt]) p
  have hout : u.out <+: (raisePrt p evPrtRecover (bump (cntPrtRecoverCnt p) u)).out :=
    .trans (by simp) (out_raiseAt (prtBase p + 0x18) evPrtRecover (16 + p / 8) (some 0x20) p _)
  rw [hport, portSt_modPort]
  exact ⟨⟨rfl, rfl, rfl, rfl⟩, rfl, rfl, by simp [u, raisePrt], by simp [u, raisePrt], hout⟩

theorem sendRecover_eq (p : Port) (s : State) : sendRecover p s =
    emit (.linkWidth p { op := 4, mask := BitVec.ofNat 9 (recoverMask s p), group := 0, ok := false }) s := by
  simp [sendRecover, p.isLt]

/-! ### WIDTH groups (R296, R297) -/

/-- The peer accepts our change. -/
theorem widthAt_accepted {p : Port} {w : WidthMsg} {c : LaneChange} {s : State} (hup : (portSt s p).state = .up) (hop : w.op ≠ 4)
    (hok : w.ok = true) (hc : (portSt s p).change = some c) (hsame : c.op = w.op.toNat ∧ c.mask = w.mask ∧ c.group = w.group) :
    widthAt p w s = setPort p { portSt s p with change := some { c with agreed := true } } s := by
  unfold widthAt
  dsimp only
  rw [if_neg hop, if_neg (by simp [hup]), if_pos hok]
  simp only [hc]
  exact if_pos hsame

/-- The peer's change fits the port: it is accepted and answered. -/
theorem widthAt_answered {p : Port} {w : WidthMsg} {n : Nat} {s : State} (hup : (portSt s p).state = .up) (hok : w.ok = false)
    (hc : (portSt s p).change = none) (hlocked : w.mask &&& ~~~(portSt s p).locked = 0) (hn : n = popCount 9 w.mask.toNat)
    (hwidth : n = 8 ∨ n = 4 ∨ n = 2)
    (hshape : (w.op = 1 ∧ n = lanesOf (portSt s p).width.toNat) ∨ (w.op = 2 ∧ n < lanesOf (portSt s p).width.toNat) ∨
      (w.op = 3 ∧ lanesOf (portSt s p).width.toNat < n)) :
    widthAt p w s = emit (.linkWidth p { w with ok := true }) (setPort p { portSt s p with
      change := some { op := w.op.toNat, mask := w.mask, group := w.group, agreed := true } } s) := by
  subst hn
  have hop : ¬w.op = 4 := by
    rcases hshape with ⟨h, -⟩ | ⟨h, -⟩ | ⟨h, -⟩ <;> simp [h]
  unfold widthAt
  dsimp only
  rw [if_neg hop, if_neg (by simp [hup]), if_neg (by simp [hok])]
  have hfits : ((w.mask &&& ~~~(portSt s p).locked) == 0 && decide (popCount 9 w.mask.toNat = 8 ∨ popCount 9 w.mask.toNat = 4 ∨
      popCount 9 w.mask.toNat = 2)) = true := by simp only [hlocked, hwidth]; rfl
  refine if_pos ?_
  rw [hc, hfits]
  simpa [or_assoc] using hshape

/-- In RECOVER the lanes the peer proposes or agrees to are taken where they are LOCKED. -/
theorem widthAt_recover {p : Port} {w : WidthMsg} {n : Nat} {s : State} (hrec : (portSt s p).state = .recover) (hop : w.op = 4)
    (hlocked : w.mask &&& ~~~(portSt s p).locked = 0) (hn : n = popCount 9 w.mask.toNat) (hwidth : n = 8 ∨ n = 4 ∨ n = 2) :
    widthAt p w s = resumeUp p w.mask.toNat (if w.ok then s else emit (.linkWidth p { w with ok := true }) s) := by
  subst hn
  unfold widthAt
  dsimp only
  rw [if_pos hop]
  refine if_pos ?_
  simp only [hrec, hlocked, hwidth]
  rfl

end Sys2Proof.Machine
end

section
/-!
PROOFS. Errored codewords and blocks (R285, R286): what they leave of a port, of its counter, and of a device at rest.
-/

namespace Sys2Proof.Machine
open Sys2Proof

/-! ### Errored units (R285) -/

theorem corruptAt_ports (p : Nat) (s : State) : (corruptAt p s).ports = s.ports := by
  unfold corruptAt
  dsimp only
  split
  · simp [sendAttNak, raiseEpb]
  · rfl

theorem portSt_bump (c : Cnt) (s : State) (p : Nat) : portSt (bump c s) p = portSt s p := portSt_congr (by simp) p

theorem portSt_undelineated {p : Nat} {errored : List Bool} {s : State} (hdelin : (portSt s p).delin = true)
    (hfate : unitFate (!isFabricPort s p) errored = .undelineated) :
    portSt (unitErrored p errored s) p = { portSt s p with delin := false } := by
  unfold unitErrored
  dsimp only
  rw [if_neg (by simp [hdelin])]
  simp only [hfate]
  rw [portSt_bump, portSt_modPort]
  split
  · rw [portSt_bump]
  · rw [portSt_congr (corruptAt_ports p s)]

theorem portSt_inverted {p : Nat} {errored : List Bool} {s : State} (hdelin : (portSt s p).delin = true)
    (hfate : unitFate (!isFabricPort s p) errored = .inverted) :
    portSt (unitErrored p errored s) p = { portSt s p with late := true } := by
  unfold unitErrored
  dsimp only
  rw [if_neg (by simp [hdelin])]
  simp only [hfate]
  exact portSt_modPort p _ s

/-- A port in UP hands on the units it takes from the codeword; on others the counter alone is kept. -/
theorem codewordAt_eq {p lane : Nat} {a : ErroredAt} {s : State} (hon : (portSt s p).state ≠ .disabled)
    (hsees : (portSt s p).state ≠ .detect) : codewordAt p lane a s =
      each (if (portSt s p).state == .up && (portSt s p).active.getLsbD lane then a.units else []) (unitErrored p)
        (if a.sync then s else bump (cntLnkUeCwCnt p lane) s) := by
  unfold codewordAt
  dsimp only
  rw [if_neg (by simp [hon, hsees])]
  by_cases hcarries : ((portSt s p).state == .up && (portSt s p).active.getLsbD lane) = true
  · rw [if_pos hcarries, if_neg (by simp_all)]
  · have hnot : ((portSt s p).state != .up || !(portSt s p).active.getLsbD lane) = true := by
      rw [bne, ← Bool.not_and, eq_false_of_ne_true hcarries]
      rfl
    rw [if_neg hcarries, if_pos hnot, each_empty]

/-- On a lane that carries a running port, the unit is handed on. -/
theorem codewordAt_unit {p lane : Nat} {sync : Bool} {errored : List Bool} {s : State} (hup : (portSt s p).state = .up)
    (hactive : (portSt s p).active.getLsbD lane = true) :
    ∃ u : State, u.ports = s.ports ∧ u.fab = s.fab ∧ codewordAt p lane ⟨sync, [errored]⟩ s = unitErrored p errored u := by
  refine ⟨if sync then s else bump (cntLnkUeCwCnt p lane) s, ?_, ?_, ?_⟩
  · split <;> simp
  · split <;> simp
  · rw [codewordAt_eq (by simp [hup]) (by simp [hup]), if_pos (by simp [hup, hactive]), each_one]

/-! ### The rest of the device -/

theorem bump_quarKept (c : Cnt) (s : State) : QuarKept s (bump c s) :=
  .of_parts (by simp) (by simp) (by simp) (by simp) (by simp) (by simp) (by simp) (by simp) (by simp [NoTurn])

theorem modPort_quarKept (p : Nat) (f : PortSt → PortSt) (s : State) : QuarKept s (modPort p f s) :=
  .of_parts (by simp) rfl rfl rfl rfl rfl rfl rfl id

theorem raiseEpb_quarKept (p b : Nat) (s : State) : QuarKept s (raiseEpb p b s) :=
  .of_parts (out_raiseAt (epbBase p + 0x14) b (16 + p / 8) (some 0x30) p s) (by simp [raiseEpb]) (by simp [raiseEpb])
    (by simp [raiseEpb]) (by simp [raiseEpb]) (by simp [raiseEpb]) (by simp [raiseEpb]) (by simp [raiseEpb])
    (by simp [raiseEpb, NoTurn])

theorem corruptAt_quarKept (p : Nat) (s : State) : QuarKept s (corruptAt p s) := by
  unfold corruptAt
  dsimp only
  split
  · have hmark : QuarKept s (modSess p (fun x => { x with nakSent := true }) s) := .modSess rfl
    exact hmark.trans ((emitAtt_quarKept p _ _).1.trans ((bump_quarKept _ _).trans (raiseEpb_quarKept p _ _)))
  · exact .refl s

theorem unitErrored_quarKept (p : Nat) (errored : List Bool) (s : State) : QuarKept s (unitErrored p errored s) := by
  unfold unitErrored
  dsimp only
  split
  · exact .refl s
  · split
    · exact .refl s
    · exact modPort_quarKept p _ s
    · exact corruptAt_quarKept p s
    · refine .trans ?_ ((modPort_quarKept p _ _).trans (bump_quarKept _ _))
      split
      · exact bump_quarKept _ s
      · exact corruptAt_quarKept p s

theorem codewordAt_quarKept {p lane : Nat} {a : ErroredAt} {s : State} (hon : (portSt s p).state ≠ .disabled)
    (hsees : (portSt s p).state ≠ .detect) : QuarKept s (codewordAt p lane a s) := by
  have hcounted : QuarKept s (if a.sync then s else bump (cntLnkUeCwCnt p lane) s) := by
    split
    · exact .refl s
    · exact bump_quarKept _ s
  rw [codewordAt_eq hon hsees]
  exact each_induct (P := fun t => QuarKept s t) _ hcounted (fun e _ t h => h.trans (unitErrored_quarKept p e t))

/-- A unit leaves delineation as it was, unless its header is errored. -/
theorem unitErrored_delin {p : Nat} {errored : List Bool} {s : State}
    (h : unitFate (!isFabricPort s p) errored ≠ .undelineated) :
    (portSt (unitErrored p errored s) p).delin = (portSt s p).delin := by
  unfold unitErrored
  dsimp only
  split
  · rfl
  · split
    · rfl
    · rw [portSt_modPort]
    · rw [portSt_congr (corruptAt_ports p s)]
    · contradiction

theorem isFabricPort_congr {s t : State} (h : t.fab = s.fab) (p : Nat) : isFabricPort t p = isFabricPort s p := by
  simp only [isFabricPort, clusterMode, h]

theorem unitsErrored_delin {p : Nat} {units : List (List Bool)} {s : State}
    (h : units.all (fun e => unitFate (!isFabricPort s p) e != .undelineated) = true) :
    (portSt (each units (unitErrored p) s) p).delin = (portSt s p).delin := by
  refine (each_induct (P := fun t => t.fab = s.fab ∧ (portSt t p).delin = (portSt s p).delin) units ⟨rfl, rfl⟩
    (fun e he t ht => ?_)).2
  obtain ⟨hfab, hdelin⟩ := ht
  have hfate : unitFate (!isFabricPort t p) e ≠ .undelineated := by
    simpa [isFabricPort_congr hfab] using List.all_eq_true.1 h e he
  exact ⟨(unitErrored_quarKept p e t).fab.trans hfab, (unitErrored_delin hfate).trans hdelin⟩

theorem codewordAt_delin {p lane : Nat} {a : ErroredAt} {s : State} (hon : (portSt s p).state ≠ .disabled)
    (hsees : (portSt s p).state ≠ .detect)
    (h : a.units.all (fun e => unitFate (!isFabricPort s p) e != .undelineated) = true) :
    (portSt (codewordAt p lane a s) p).delin = (portSt s p).delin := by
  have hcounted : ∀ u : State, u = (if a.sync then s else bump (cntLnkUeCwCnt p lane) s) →
      u.fab = s.fab ∧ portSt u p = portSt s p := by
    rintro u rfl
    split
    · exact ⟨rfl, rfl⟩
    · exact ⟨by simp, portSt_bump _ s p⟩
  obtain ⟨hfab, hport⟩ := hcounted _ rfl
  rw [codewordAt_eq hon hsees, unitsErrored_delin, hport]
  split
  · simpa only [isFabricPort_congr hfab] using h
  · rfl

/-! ### The counter of the lane (R285) -/

theorem emitAtt_regs (p : Nat) (m : AttMsg) (s : State) : (emitAtt p m s).regs = s.regs := by
  unfold emitAtt
  (repeat' split) <;> simp

theorem word_corruptAt {p o : Nat} (hnak : o ≠ epbBase p + 0x18) (hev : o ≠ epbBase p + 0x14) (hm : o < mgtBase) (s : State) :
    word (corruptAt p s) o = word s o := by
  unfold corruptAt sendAttNak raiseEpb
  dsimp only
  split
  · rw [word_raiseAt hev hm, word_bump_ne hnak, word_congr (emitAtt_regs ..)]
    rfl
  · rfl

/-- The registers that an errored unit writes are not those of the lanes. -/
theorem word_unitErrored (p : Port) (lane : Fin 9) (errored : List Bool) (s : State) :
    word (unitErrored p errored s) (lnkBase p lane + 0xC) = word s (lnkBase p lane + 0xC) := by
  have hp := p.isLt
  have hlane := lane.isLt
  have hcorrupt : ∀ u, word (corruptAt p u) (lnkBase p lane + 0xC) = word u (lnkBase p lane + 0xC) := fun u =>
    word_corruptAt (by simp only [lnkBase, epbBase]; omega) (by simp only [lnkBase, epbBase]; omega)
      (by simp only [lnkBase, mgtBase]; omega) u
  have hhcrc : lnkBase p lane + 0xC ≠ cntTrnHcrcDropCnt.off := by simp only [lnkBase, trnBase]; omega
  have hresync : lnkBase p lane + 0xC ≠ (cntPrtResyncCnt p).off := by simp only [lnkBase, prtBase]; omega
  unfold unitErrored
  dsimp only
  split
  · rfl
  · split
    · rfl
    · rfl
    · exact hcorrupt s
    · refine (word_bump_ne hresync _).trans ?_
      split
      · exact word_bump_ne hhcrc s
      · exact hcorrupt s

theorem fieldOf_bump_word (off : Nat) (s : State) :
    fieldOf (bump ⟨off, 0, 32⟩ s) off 0 32 = Nat.min (2 ^ 32 - 1) (fieldOf s off 0 32 + 1) := by
  have hword : word (bump ⟨off, 0, 32⟩ s) off = putBits (word s off) 0 32 (Nat.min (2 ^ 32 - 1) (fieldOf s off 0 32 + 1)) := by
    rw [← word_setWord_same off (putBits (word s off) 0 32 _) s]
    unfold bump bumpBy
    dsimp only
    split <;> rfl
  have hlt : Nat.min (2 ^ 32 - 1) (fieldOf s off 0 32 + 1) < 2 ^ 32 := Nat.lt_of_le_of_lt (Nat.min_le_left _ _) (by decide)
  rw [fieldOf, hword]
  generalize Nat.min (2 ^ 32 - 1) (fieldOf s off 0 32 + 1) = x at hlt
  have hwhole := (word s off).isLt
  simp only [bitsOf, putBits, BitVec.toNat_ofNat]
  omega

theorem codewordAt_count {p : Port} {lane : Fin 9} {a : ErroredAt} {s : State} (hon : (portSt s p).state ≠ .disabled)
    (hsees : (portSt s p).state ≠ .detect) : fieldOf (codewordAt p lane a s) (lnkBase p lane + 0xC) 0 32 =
      if a.sync then fieldOf s (lnkBase p lane + 0xC) 0 32
      else Nat.min (2 ^ 32 - 1) (fieldOf s (lnkBase p lane + 0xC) 0 32 + 1) := by
  have hunits := fun units u => each_same (fun t => word t (lnkBase p lane + 0xC)) units u (f := unitErrored p)
    (fun e _ t => word_unitErrored p lane e t)
  rw [codewordAt_eq hon hsees, fieldOf, hunits, ← fieldOf]
  split
  · rfl
  · exact fieldOf_bump_word _ s

/-- A port whose cluster does not run keeps the failed lane for later. -/
theorem laneUe_waits {p lane : Nat} {s : State} (hup : (portSt s p).state = .up) (hchange : (portSt s p).change = none)
    (hactive : (portSt s p).active.getLsbD lane = true) (hcluster : clusterRuns s p = false) :
    laneUe p lane s = setPort p { portSt s p with ueDue := insertNat lane (portSt s p).ueDue } s := by
  unfold laneUe
  dsimp only
  rw [if_neg (by rw [hactive]; simp [hup, hchange]), if_pos (by rw [hcluster]; rfl)]

/-- Otherwise the spare lane takes its place where it is free, and else the port narrows (R296). -/
theorem laneUe_changes {p lane : Nat} {s : State} (hup : (portSt s p).state = .up) (hchange : (portSt s p).change = none)
    (hactive : (portSt s p).active.getLsbD lane = true) (hcluster : clusterRuns s p = true) :
    laneUe p lane s =
      if spareFree (portSt s p) then startLaneChange p 1 ((portSt s p).active.toNat - 2 ^ lane + 2 ^ 8) false s
      else if widest (popCount 9 ((portSt s p).active.toNat - 2 ^ lane)) = 0 then s
      else startLaneChange p 2 (bestLanes s p ((portSt s p).active.toNat - 2 ^ lane)
        (widest (popCount 9 ((portSt s p).active.toNat - 2 ^ lane)))) false s := by
  unfold laneUe
  dsimp only
  rw [if_neg (by rw [hactive]; simp [hup, hchange]), if_neg (by simp [hcluster])]

/-- A row that leaves a device at rest: what its effect leaves of ports and of the registers below MGT stays, but for the events of
GLB. -/
theorem run_rest {r : Reach} {s : State} {f : State → State} (h : AtRest s) (hp : r.ports = true) (hd : r.data = true)
    (hk : QuarKept s (f s)) : ∃ t, run r s f = .next t ∧ t.ports = (f s).ports ∧ t.home = s.home ∧
      ∀ o, o ≠ 0x24 → o < mgtBase → word t o = word (f s) o := by
  obtain ⟨hrun, hq⟩ := h
  refine ⟨_, run_quiet hrun ((hk.bound hd).quiet hq), ?_, ?_, fun o ho hm => ?_⟩
  · simp [bound_part, hp]
  · simpa using (hk.bound hd).home
  · refine Eq.trans ?_ (word_congr (t := advanceReady (r.bound s (f s))) (by simp) o)
    change word (noteReady s _) o = _
    unfold noteReady raiseGlb
    split
    · rfl
    · exact word_raiseAt ho hm ..

end Sys2Proof.Machine
end

section
/-!
PROOFS. Lanes and widths of a running port (R285, R296, R297).
-/

namespace Sys2Proof.Machine
open Sys2Proof

/-- Settles O20: each row's effect on the port's record is said once (`lockLostOn_spare`, `widthAt_answered`, `portSt_widthSwitch`,
…), and the row leaves the ports as its effect does (`run_ports`). -/
theorem portLanes : Obligations.PortLanes := by
  unfold Obligations.PortLanes
  refine ⟨?spare, ?cut, ?undelineated, ?inverted, ?accepted, ?toSpare, ?switch, ?retrained, ?recovers, ?few, ?counted, ?answered,
    ?agreed, ?narrows, ?waits, ?due, ?widens⟩
  case spare =>
    intro s p lane hrun hon hsees hrec hlocked hactive
    obtain ⟨t, ht, hports, -⟩ := run_ports (r := { ports := true, fab := true, data := true }) (f := lockLostOn p lane) hrun rfl
    have hlanes : SameLanes (portSt (unlockLane p lane s) p) (portSt (lockLostOn p lane s) p) := by
      rw [lockLostOn_spare hon hsees hlocked (by rw [PortSt.carriedBy, hactive]; simp [hrec])]
      split
      · exact laneSettled_same p _
      · exact .refl _
    rw [← portSt_congr hports p, portSt_unlockLane] at hlanes
    exact ⟨t, ht, hlanes.locked, hlanes.state, hlanes.active⟩
  case cut =>
    intro s p lane c hrun hup hlocked hactive hc hmask hdue
    obtain ⟨t, ht, hports, -⟩ := run_ports (r := { ports := true, fab := true, data := true }) (f := lockLostOn p lane) hrun rfl
    have hcut : (portSt s p).cutBy lane = true := by simp [PortSt.cutBy, hc, hmask]
    have hunlocked := portSt_unlockLane p lane s
    have hport : portSt t p = portSt (unlockLane p lane s) p := by
      rw [portSt_congr hports p, lockLostOn_spare (by simp [hup]) (by simp [hup]) hlocked
        (by rw [PortSt.carriedBy, hactive]; simp [hup]),
        if_pos hcut, portSt_congr (laneSettled_kept (by rw [hunlocked]; exact hdue)) p]
    refine ⟨t, ht, ?_⟩
    rw [hport, hunlocked, if_pos hcut]
    exact ⟨rfl, hup, rfl⟩
  case undelineated =>
    intro s p lane sync errored hrun hup hactive hdelin hfate
    obtain ⟨t, ht, hports, -⟩ :=
      run_ports (r := { ports := true, data := true }) (f := codewordAt p lane ⟨sync, [errored]⟩) hrun rfl
    obtain ⟨u, hsame, hfab, hunit⟩ := codewordAt_unit (sync := sync) (errored := errored) hup hactive
    have hx := portSt_congr hsame p
    refine ⟨t, ht, ?_⟩
    rw [portSt_congr hports p, hunit, portSt_undelineated (by rwa [hx]) (by rwa [isFabricPort_congr hfab]), hx]
    exact ⟨rfl, hup⟩
  case inverted =>
    intro s p lane sync errored hrun hup hactive hdelin hfate
    obtain ⟨t, ht, hports, -⟩ :=
      run_ports (r := { ports := true, data := true }) (f := codewordAt p lane ⟨sync, [errored]⟩) hrun rfl
    obtain ⟨u, hsame, hfab, hunit⟩ := codewordAt_unit (sync := sync) (errored := errored) hup hactive
    have hx := portSt_congr hsame p
    refine ⟨t, ht, ?_⟩
    rw [portSt_congr hports p, hunit, portSt_inverted (by rwa [hx]) (by rwa [isFabricPort_congr hfab]), hx]
    exact ⟨rfl, hdelin, hup⟩
  case accepted =>
    intro s p w c hrun hup hop hok hc hkind hmask hgroup
    obtain ⟨t, ht, hports, -⟩ :=
      run_ports (r := { ports := true, data := true }) (f := fun s => widthAt p w (regain p s)) hrun rfl
    have hx := portSt_regain p s
    have hport := portSt_congr hports p
    rw [widthAt_accepted (by rw [hx]; exact hup) hop hok (by rw [hx]; exact hc) ⟨hkind, hmask, hgroup⟩, portSt_setPort] at hport
    exact ⟨t, ht, by rw [hport]⟩
  case toSpare =>
    intro s p lane hrun hup hchange hactive hcluster hfree
    obtain ⟨t, ht, hports, -⟩ := run_ports (r := { ports := true }) (f := laneUe p lane) hrun rfl
    have hstarts : laneUe p lane s = startLaneChange p 1 ((portSt s p).active.toNat - 2 ^ lane.val + 2 ^ 8) false s := by
      rw [laneUe_changes hup hchange hactive hcluster, if_pos hfree]
    refine ⟨t, ht, ?_⟩
    rw [portSt_congr hports p, hstarts, portSt_startLaneChange]
    rfl
  case switch =>
    intro s p c hrun hc hdue
    obtain ⟨t, ht, hports, -⟩ := run_ports (r := { ports := true, data := true }) (f := widthSwitch p) hrun rfl
    refine ⟨t, ht, ?_⟩
    rw [portSt_congr hports p, portSt_widthSwitch hc hdue]
    by_cases h : c.agreed = true ∧ (portSt s p).state = .up
    · simp [h, PortSt.withLanes]
    · rw [if_neg (by simpa using h), if_neg h, if_neg h]
      exact ⟨rfl, rfl, rfl⟩
  case retrained =>
    intro s p lanes hrun hup
    obtain ⟨t, ht, hports, -⟩ := run_ports (r := { ports := true }) (f := retrainDone p lanes) hrun rfl
    exact ⟨t, ht, by rw [portSt_congr hports p, retrainDone_locked hup]⟩
  case recovers =>
    intro s p lane x hrun hup hlocked hactive hx hmask
    subst hx
    obtain ⟨t, ht, hports, hout⟩ :=
      run_ports (r := { ports := true, fab := true, data := true }) (f := lockLostOn p lane) hrun rfl
    have hunlocked := portSt_unlockLane p lane s
    have hsame := recoverMask_unlockLane p lane s
    obtain ⟨hlanes, hchange, hlit, hrc, htime, hgrown⟩ := enterRecover_kept p (unlockLane p lane s)
    have hkept := recoverMask_congr hlanes.active hlanes.locked hlanes.width hlit hrc htime
    rw [lockLostOn_recovers (by simp [hup]) (by simp [hup]) hlocked hup hactive (by rwa [hsame]), sendRecover_eq, hkept, hsame]
      at hports hout
    refine ⟨t, ht, ?_⟩
    rw [portSt_congr hports p, portSt_emit]
    exact ⟨hlanes.state, hchange, hlanes.locked.trans (by rw [hunlocked]), puts_of_grown hgrown (puts_of_appended hout)⟩
  case few =>
    intro s p lane x hrun hstate hlocked hactive hx hmask
    subst hx
    obtain ⟨t, ht, hports, -⟩ := run_ports (r := { ports := true, fab := true, data := true }) (f := lockLostOn p lane) hrun rfl
    have hinUse : (portSt s p).state ≠ .disabled ∧ (portSt s p).state ≠ .detect := by
      rcases hstate with h | h <;> simp [h]
    have hcarries : (portSt s p).carriedBy lane :=
      hstate.elim (fun h => .inr ⟨h, hactive⟩) .inl
    have hsame := recoverMask_unlockLane p lane s
    refine ⟨t, ht, ?_⟩
    rw [portSt_congr hports p, lockLostOn_few hinUse.1 hinUse.2 hlocked hcarries (by rwa [hsame]), toDetect_state,
      portSt_unlockLane, if_neg hinUse.1]
  case counted =>
    intro s p lane sync units k hrest hon hsees hk
    subst hk
    obtain ⟨t, ht, hports, hhome, hword⟩ :=
      run_rest (r := { ports := true, data := true }) (f := codewordAt p lane ⟨sync, units⟩)
      hrest rfl rfl (codewordAt_quarKept hon hsees)
    have hlow : lnkBase p lane + 0xC ≠ 0x24 ∧ lnkBase p lane + 0xC < mgtBase := by
      have := p.isLt
      have := lane.isLt
      simp only [lnkBase, mgtBase]
      omega
    refine ⟨t, ht, ?_, fun hfates => ?_, hhome⟩
    · rw [fieldOf, hword _ hlow.1 hlow.2]
      exact codewordAt_count hon hsees
    · rw [portSt_congr hports p]
      exact codewordAt_delin hon hsees hfates
  case answered =>
    intro s p w n hrun hup hok hc hlocked hn hwidth hshape
    obtain ⟨t, ht, hports, hout⟩ :=
      run_ports (r := { ports := true, data := true }) (f := fun s => widthAt p w (regain p s)) hrun rfl
    have hx := portSt_regain p s
    have hregained : (regain p s).out = s.out := (regain_tuning p 0 s).2.2.2
    rw [widthAt_answered (by rw [hx]; exact hup) hok (by rw [hx]; exact hc) (by rw [hx]; exact hlocked) hn hwidth
      (by rw [hx]; exact hshape)] at hports hout
    have hport := (portSt_congr hports p).trans (portSt_setPort p _ _)
    exact ⟨t, ht, by rw [hport], puts_of_appended (by simpa [hregained] using hout)⟩
  case agreed =>
    intro s p w n hrun hrec hop hlocked hn hwidth
    obtain ⟨t, ht, hports, hout⟩ :=
      run_ports (r := { ports := true, data := true }) (f := fun s => widthAt p w (regain p s)) hrun rfl
    have hx := portSt_regain p s
    have hregained : (regain p s).out = s.out := (regain_tuning p 0 s).2.2.2
    rw [widthAt_recover (by rw [hx]; exact hrec) hop (by rw [hx]; exact hlocked) hn hwidth] at hports hout
    obtain ⟨hstate, hactive, hw⟩ := resumeUp_lanes p w.mask.toNat
      (if w.ok then regain p s else emit (.linkWidth p { w with ok := true }) (regain p s))
    rw [← portSt_congr hports p] at hstate hactive hw
    refine ⟨t, ht, hstate, by simpa using hactive, by rw [hw, hn], fun hok => puts_of_appended ?_⟩
    have hsent := (out_resumeUp ..).trans hout
    simpa [hok, hregained] using hsent
  case narrows =>
    intro s p lane n hrun hup hchange hactive hcluster hfree hn hsome
    obtain ⟨t, ht, hports, -⟩ := run_ports (r := { ports := true }) (f := laneUe p lane) hrun rfl
    subst hn
    have hstarts : laneUe p lane s = startLaneChange p 2 (bestLanes s p ((portSt s p).active.toNat - 2 ^ lane.val)
        (widest (popCount 9 ((portSt s p).active.toNat - 2 ^ lane.val)))) false s := by
      rw [laneUe_changes hup hchange hactive hcluster, if_neg (by simp [hfree]), if_neg hsome]
    refine ⟨t, ht, ?_⟩
    rw [portSt_congr hports p, hstarts, portSt_startLaneChange]
    rfl
  case waits =>
    intro s p lane hrun hup hchange hactive hcluster
    obtain ⟨t, ht, hports, -⟩ := run_ports (r := { ports := true }) (f := laneUe p lane) hrun rfl
    have hdue : laneUe p lane s = setPort p { portSt s p with ueDue := insertNat lane (portSt s p).ueDue } s :=
      laneUe_waits hup hchange hactive hcluster
    refine ⟨t, ht, ?_⟩
    rw [portSt_congr hports p, hdue, portSt_setPort]
    exact ⟨mem_insertNat_self lane _, hchange⟩
  case due =>
    intro s p c hrun hc hdue hup hagreed hcap
    obtain ⟨t, ht, hports, -⟩ := run_ports (r := { ports := true, data := true }) (f := widthSwitch p) hrun rfl
    obtain ⟨d, hop, hport⟩ := portSt_widthSwitch_due hc hdue hup hagreed hcap
    rw [← portSt_congr hports p] at hport
    refine ⟨t, ht, ?_⟩
    rw [hport]
    exact ⟨by simp [PortSt.withLanes], rfl, congrArg some hop⟩
  case widens =>
    intro s p lanes u n hrun hup hcluster hauto hchange hu hn hwider
    obtain ⟨t, ht, hports, -⟩ := run_ports (r := { ports := true }) (f := retrainDone p lanes) hrun rfl
    exact ⟨t, ht, by rw [portSt_congr hports p, retrainDone_widens hup hcluster hauto hchange hu hn hwider]⟩

end Sys2Proof.Machine
end
